-- ==== Sys2Proof/Word.lean ====
section
/-!
DEFINITION. The words of the device: bytes, 32-bit registers, and the plainest bit-field arithmetic over them (00 R5, R6).
-/
namespace Sys2Proof

/-- A byte is 8 bits (R6). -/
abbrev Byte := BitVec 8

/-- A register is 32 bits (R6). -/
abbrev Word := BitVec 32

/-- A tick of the timebase, 10 ns (R4). -/
abbrev Tick := Nat

/-- Bits `hi:lo` of a register, as a number (R6: ranges are written msb:lsb). -/
def fld (w : Word) (hi lo : Nat) : Nat := (w.toNat >>> lo) % 2 ^ (hi + 1 - lo)

/-- One bit of a register. -/
def bit (w : Word) (i : Nat) : Bool := w.toNat.testBit i

/-- A flag as a number. -/
def b2n (b : Bool) : Nat := if b then 1 else 0

/-- The value `v` placed at bits `hi:lo`, cut to the field's width. -/
def put (hi lo v : Nat) : Nat := (v % 2 ^ (hi + 1 - lo)) <<< lo

/-- A register composed from a number. -/
def word (n : Nat) : Word := BitVec.ofNat 32 n

/-- A number of `n` bits read as signed two's complement. -/
def sext (n v : Nat) : Int := if v % 2 ^ n < 2 ^ (n - 1) then (v % 2 ^ n : Nat) else (v % 2 ^ n : Nat) - (2 ^ n : Nat)

/-- A signed number as an `n`-bit two's complement field. -/
def toField (n : Nat) (v : Int) : Nat := (v % (2 ^ n : Nat)).toNat

/-- `n` saturated at `m`. -/
def sat (m n : Nat) : Nat := if n ≤ m then n else m

/-- One more, saturating at `m`. -/
def satInc (m n : Nat) : Nat := sat m (n + 1)

/-- A value outside `lo` to `hi` is replaced by the nearer limit. -/
def clampNat (lo hi v : Nat) : Nat := if v < lo then lo else if hi < v then hi else v

/-- The same for a signed value. -/
def clampInt (lo hi v : Int) : Int := if v < lo then lo else if hi < v then hi else v

/-- `a ÷ b` rounded up. -/
def ceilDiv (a b : Nat) : Nat := (a + b - 1) / b

/-- `a ÷ b` rounded to the nearest whole number, a half to the even one. -/
def roundHalfEven (a : Int) (b : Nat) : Int :=
  let q := a / b
  let r := 2 * (a % b)
  if r < b then q else if (b : Int) < r then q + 1 else if q % 2 = 0 then q else q + 1

/-- The element at `i` replaced by its image under `f`; a list with no such element is unchanged. -/
def updAt {α : Type} (f : α → α) : Nat → List α → List α
  | _, [] => []
  | 0, x :: xs => f x :: xs
  | i + 1, x :: xs => x :: updAt f i xs

/-- Like `updAt`, with every element's index, from `k` on. -/
def mapFrom {α β : Type} (f : Nat → α → β) : Nat → List α → List β
  | _, [] => []
  | k, x :: xs => f k x :: mapFrom f (k + 1) xs

/-- The little-endian bytes of `v`, `n` of them (R5). -/
def leBytes : Nat → Nat → List Byte
  | 0, _ => []
  | n + 1, v => BitVec.ofNat 8 v :: leBytes n (v / 256)

/-- The number that little-endian bytes spell (R5). -/
def leNat : List Byte → Nat
  | [] => 0
  | b :: bs => b.toNat + 256 * leNat bs

end Sys2Proof
end

