-- ==== Sys2Proof/Types.lean ====
section
/-!
DEFINITION. The operand types of the commands: ports, command headers, descriptors, member lists and the readings
that a happening brings with it.
-/
namespace Sys2Proof

/-- The two host ports (07 R252). -/
inductive PortId where
  | ha
  | hb
  deriving DecidableEq, Repr

/-- The other port. -/
def PortId.peer : PortId → PortId
  | .ha => .hb
  | .hb => .ha

/-- 0 HA, 1 HB, as events and registers name a port. -/
def PortId.code : PortId → Nat
  | .ha => 0
  | .hb => 1

/-- The header of a ring command: the tick at which its execution begins, where it was fetched, and the fields of its
descriptor that every opcode has (07 Table 7-5). `cnt` is the descriptor's count in its ring. -/
structure Hdr where
  at_ : Tick
  port : PortId
  ring : Nat
  cnt : Nat
  tag : Nat
  deadline : Tick
  silent : Bool
  fence : Bool
  arg : Nat
  deriving DecidableEq, Repr

/-- A descriptor as the intake reads it from host memory (07 Table 7-5): the 16 operand bytes as one number. -/
structure Desc where
  opcode : Nat
  flags : Nat
  arg : Nat
  tag : Nat
  deadline : Tick
  ops : Nat
  deriving DecidableEq, Repr

/-- One entry of a transaction's member list (07 R270). -/
structure Member where
  g : Nat
  action : Nat
  value : Nat
  deriving DecidableEq, Repr

/-- A frame record in host memory (11 Table 11-2): its 16 header bytes as fields, and the write containers. -/
structure FrameRec where
  cmd : Nat
  cmdB : Nat
  addrB : Nat
  addr : Nat
  dummy : Nat
  dirB : Nat
  wordB : Nat
  rsv11 : Nat
  count : Nat
  rsv14 : Nat
  data : List Word
  deriving DecidableEq, Repr

/-- What a conversion attempt brings: the front-end value in nV (for 3-wire sensors of V(c) and V(c + 1); for a
temperature sensor in 0.001 °C), whether the AII limiter acted in its window, and the quantities of its wire-break
check (04 Table 4-13): AII the instantaneous current in nA; AIRTD and AIRES the excitation pin in mV and the largest
sense pin less the excitation pin in mV; AITC the loop resistance in Ω. -/
structure Sample where
  x : Int
  x2 : Int
  lim : Bool
  chk : Int
  chk2 : Int
  deriving DecidableEq, Repr

/-- What one demodulation brings (04 R144): the samples of the channel and of its partner in nV at the front end, in their
order: with an EXS source 32 for each cycle, with an EXP source one after the rising and one after the falling edge of
each pulse. -/
structure Demod where
  v : List Int
  b : List Int
  deriving DecidableEq, Repr

/-- How far a current limit acted in one cycle or pulse of a drive (04 R145): not at all, for some of it, or for all of it. -/
inductive Limiting where
  | none | part | whole
  deriving DecidableEq, Repr

/-- One K readback of an AOI or AOV channel (04 Table 4-15): current in nA, pin voltage in µV, whether the pass device
is saturated, and whether the current limit acts. -/
structure Readback where
  na : Nat
  uv : Nat
  saturated : Bool
  limiting : Bool
  deriving DecidableEq, Repr

end Sys2Proof
end

