-- ==== Sys2Proof/Syntax.lean ====
section
/-!
DEFINITION. The commands of the block: one constructor per row of spec/opcode_table.json, in its order. `h` is a ring
command's header; `τ` is the tick at which a happening falls (log 1). `t` is a tile, `c` a channel of it, `g` a global
channel number, `n` a sequence or serial port, `p` a port or pipeline, `x` a context, `k` a fault or power block.
-/
namespace Sys2Proof

/-- A command of the block. -/
inductive Instr where
  | nop (h : Hdr)
  | timeRead (h : Hdr)
  | chMode (h : Hdr) (mode par : Nat) (carry : Bool) (cfg diag : Word)
  | outSet (h : Hdr) (commit value : Nat)
  | mirForceOff (h : Hdr) (commit : Nat)
  | mirForceOn (h : Hdr) (commit : Nat)
  | mirRelease (h : Hdr) (commit : Nat)
  | outCancel (h : Hdr)
  | chTrimSet (h : Hdr) (ofs gain : Nat)
  | chTrimZero (h : Hdr)
  | chTrimSpan (h : Hdr) (ref : Nat)
  | chTrimReset (h : Hdr)
  | rfxWrite (h : Hdr) (cond qual thr act : Word)
  | rfxEnable (h : Hdr) (en : Bool)
  | rfxStatus (h : Hdr)
  | seqArm (h : Hdr)
  | seqDisarm (h : Hdr)
  | seqTrigger (h : Hdr) (tick : Nat)
  | inject (h : Hdr) (slot : Word)
  | calibrate (h : Hdr) (conv : Nat)
  | calibrateExcl (h : Hdr) (conv : Nat)
  | streamStart (h : Hdr) (ring : Nat)
  | streamStop (h : Hdr)
  | streamSource (h : Hdr) (c : Nat)
  | bankLoad (h : Hdr) (image : List Int)
  | bankSelect (h : Hdr) (bank f : Nat)
  | spFrame (h : Hdr) (rec : FrameRec) (resAddr : Nat) (readFails : Bool)
  | spAbort (h : Hdr)
  | faultAck (h : Hdr) (mask : Nat)
  | logRead (h : Hdr) (log count addr start : Nat)
  | tileOffline (h : Hdr)
  | tileReadmit (h : Hdr)
  | rotate (h : Hdr) (newImg : Bool)
  | imageWrite (h : Hdr) (kiln : Bool) (offset len : Nat) (bytes : List Byte) (storeFails : Bool)
  | imageVerify (h : Hdr) (kiln : Bool) (storeFails : Bool)
  | imageActivateLive (h : Hdr) (defaults : Bool) (secs : Nat)
  | imageActivateRestart (h : Hdr) (defaults : Bool) (secs : Nat)
  | imageConfirm (h : Hdr) (storeFails : Bool)
  | imageRevert (h : Hdr)
  | imageRecover (h : Hdr)
  | settingsSave (h : Hdr)
  | imageErase (h : Hdr)
  | catRead (h : Hdr) (start count addr : Nat)
  | catWrite (h : Hdr) (start count : Nat) (words : List Word)
  | lock (h : Hdr) (key : Nat)
  | unlock (h : Hdr) (key : Nat)
  | claim (h : Hdr) (cls first : Nat)
  | release (h : Hdr) (cls first : Nat)
  | handover (h : Hdr) (cls first : Nat)
  | takeover (h : Hdr) (cls first : Nat)
  | ownerQuery (h : Hdr) (cls first : Nat)
  | txnSubmit (h : Hdr) (commit : Nat) (members : List Member)
  | txnCancel (h : Hdr) (tag : Nat)
  | doorbellPoll (τ : Nat) (p : PortId) (prods : List Nat) (fails : Bool)
  | nudge (τ : Nat) (p : PortId) (offset : Nat) (val : Word)
  | descriptorFetch (τ : Nat) (p : PortId) (ring : Nat) (d : Desc)
  | commandWaitDeadline (τ : Nat) (p : PortId) (ring cnt : Nat)
  | msixMessage (τ : Nat) (p : PortId) (ring : Nat)
  | ringError (τ : Nat) (p : PortId) (ring kind : Nat)
  | ringEnable (τ : Nat) (p : PortId) (ring : Nat) (val : Word)
  | ringDisable (τ : Nat) (p : PortId) (ring : Nat) (val : Word)
  | portEnable (τ : Nat) (p : PortId) (val : Word)
  | portReset (τ : Nat) (p : PortId) (perst : Bool)
  | portLiveChange (τ : Nat) (p : PortId) (linkUp busMaster : Bool) (speed width : Nat) (l1 : Bool)
  | channelRegWrite (τ : Nat) (p : PortId) (t c reg : Nat) (val : Word)
  | seqCfgArm (τ : Nat) (p : PortId) (t n : Nat) (val : Word)
  | seqCfgDisarm (τ : Nat) (p : PortId) (t n : Nat) (val : Word)
  | refEnable (τ : Nat) (p : PortId) (t : Nat) (val : Word)
  | refDisable (τ : Nat) (p : PortId) (t : Nat) (val : Word)
  | refReady (τ : Nat) (t : Nat) (dev : Int)
  | injCfgWrite (τ : Nat) (p : PortId) (t : Nat) (val : Word)
  | doTestWrite (τ : Nat) (p : PortId) (t : Nat) (val : Word)
  | rfxRegWrite (τ : Nat) (p : PortId) (t r reg : Nat) (val : Word)
  | rfxLatClear (τ : Nat) (p : PortId) (t : Nat) (val : Word)
  | trimRegWrite (τ : Nat) (p : PortId) (t c reg : Nat) (val : Word)
  | orderHorizonWrite (τ : Nat) (p : PortId) (val : Word)
  | tbNowLoRead (τ : Nat) (p : PortId)
  | vitCapture (τ : Nat) (p : PortId) (t : Nat) (val : Word)
  | registerWrite (τ : Nat) (p : PortId) (addr dwords be : Nat) (val : Word)
  | powerOn (τ : Nat) (lowMs : Nat) (vkaOk : Bool)
  | brownOut (τ : Nat)
  | porstFall (τ : Nat)
  | startup (τ : Nat) (chip recovN tmode : Bool) (vioMv : Nat)
  | barrierTransferStart (τ : Nat) (t : Nat)
  | startupComplete (τ : Nat)
  | depotImageLoadEnd (τ : Nat) (n : Nat) (ok : Bool)
  | supplyThreshold (τ : Nat) (rail : Nat) (mv : Int)
  | barrierTransferLoss (τ : Nat) (t : Nat)
  | barrierTransferResume (τ : Nat) (t : Nat)
  | vkaLoss (τ : Nat)
  | fallowEntry (τ : Nat)
  | wakeCrossing (τ : Nat)
  | fsafeFall (τ : Nat)
  | deviceScopeEnd (τ : Nat)
  | syncEdge (τ : Nat)
  | syncLeadPulse (τ : Nat)
  | syncLost (τ : Nat)
  | inputCrossing (τ : Nat) (t c : Nat) (level : Bool)
  | sieveAccession (τ : Nat) (t c : Nat)
  | chatterWindowEnd (τ : Nat) (t c : Nat)
  | stuckTimeout (τ : Nat) (t c : Nat)
  | dicGateEnd (τ : Nat) (t c : Nat)
  | trimButtonHold (τ : Nat) (t c : Nat)
  | trimButtonStuck (τ : Nat) (t c : Nat)
  | trimCaptureTimeout (τ : Nat) (t c : Nat)
  | trimSaveTimer (τ : Nat)
  | txnMemberArrival (τ : Nat) (p : PortId) (tag t : Nat)
  | txnReady (τ : Nat) (p : PortId) (tag t : Nat)
  | txnDecision (τ : Nat) (p : PortId) (tag : Nat)
  | txnDecisionArrival (τ : Nat) (p : PortId) (tag t : Nat)
  | txnCommit (τ : Nat) (p : PortId) (tag t : Nat)
  | txnAccessionReport (τ : Nat) (p : PortId) (tag t : Nat)
  | outputActionArrival (τ : Nat) (p : PortId) (ring cnt : Nat)
  | outputCommit (τ : Nat) (t c : Nat)
  | shortGndDetect (τ : Nat) (t c : Nat)
  | overloadRetry (τ : Nat) (t c : Nat)
  | thermalShutdown (τ : Nat) (t c : Nat)
  | thermalReenable (τ : Nat) (t c : Nat)
  | overDecl (τ : Nat) (t c : Nat)
  | openOn (τ : Nat) (t c : Nat) (low : Bool)
  | offStateCheck (τ : Nat) (t c : Nat) (mv : Int)
  | darkPulse (τ : Nat) (t c : Nat) (ua : Nat) (pins : List (Nat × Int))
  | pinClamp (τ : Nat) (t c : Nat) (acting : Bool) (mv : Int)
  | surge (τ : Nat) (t c : Nat) (mv : Int) (clampMa : Nat)
  | surgeEnd (τ : Nat) (t c : Nat)
  | lplusSample (τ : Nat) (t : Nat) (cv : Int)
  | reenergiseSlot (τ : Nat) (t : Nat)
  | aoReadback (τ : Nat) (t c : Nat) (r : Readback)
  | crailSample (τ : Nat) (t : Nat) (dv : Nat)
  | aiiFoldback (τ : Nat) (t c : Nat)
  | aiiRetry (τ : Nat) (t c : Nat) (ua : Nat)
  | excitationCycleCheck (τ : Nat) (t c : Nat) (limited : Limiting) (na : Nat)
  | mirrorPeriodStart (τ : Nat) (t c : Nat)
  | tileTempSample (τ : Nat) (t : Nat) (cjcA cjcB tdie : Int)
  | seqTimerTrigger (τ : Nat) (t n : Nat)
  | heldTriggerRelease (τ : Nat) (t n : Nat)
  | slotStart (τ : Nat) (t n : Nat)
  | conversionEnd (τ : Nat) (t conv : Nat) (x : Sample)
  | rangingReattempt (τ : Nat) (t conv : Nat)
  | dmdResult (τ : Nat) (t : Nat) (d : Demod)
  | scanDeadline (τ : Nat) (t n : Nat)
  | speculativeScanStart (τ : Nat) (t n : Nat)
  | specConfirmTimeout (τ : Nat) (t n : Nat)
  | injectStart (τ : Nat) (t conv : Nat)
  | injectDeadline (τ : Nat) (t : Nat) (p : PortId) (ring cnt : Nat)
  | calPeriodStart (τ : Nat) (t : Nat)
  | calStep (τ : Nat) (t conv : Nat) (coef : List (Int × Int)) (bad : Bool)
  | refCompare (τ : Nat) (t : Nat) (dev : Int)
  | lineChangeHub (τ : Nat) (l : Nat)
  | lineChangeTile (τ : Nat) (t l : Nat)
  | watchdogService (τ : Nat) (t : Nat)
  | watchdogExpiry (τ : Nat) (t : Nat)
  | laneFailure (τ : Nat) (t lanes : Nat)
  | linkReturn (τ : Nat) (t lanes : Nat)
  | eventArrivalMerge (τ : Nat) (src : Nat)
  | eventRelease (τ : Nat)
  | horizonEpisodeEnd (τ : Nat)
  | pipelineInput (τ : Nat) (p : Nat)
  | blockTimeout (τ : Nat) (p x : Nat)
  | streamDeliveryDeadline (τ : Nat) (p x : Nat)
  | rotationLoadEnd (τ : Nat) (ok : Bool)
  | rotationPrecopyEnd (τ : Nat) (snapOk : Bool)
  | rotationGapStart (τ : Nat)
  | rotationHandover (τ : Nat)
  | rotationGapTimeout (τ : Nat)
  | repairHandover (τ : Nat) (t : Nat)
  | tileOfflineComplete (τ : Nat) (t : Nat)
  | readmissionComplete (τ : Nat) (t : Nat) (ok : Bool) (lanes : Nat)
  | sramScrub (τ : Nat) (bank row : Nat) (single : Bool)
  | sramDoubleBitError (τ : Nat) (bank row : Nat) (item : Nat)
  | railAdjust (τ : Nat) (k margin : Nat)
  | marginRecovery (τ : Nat) (k : Nat)
  | retentionEntry (τ : Nat) (k : Nat)
  | powerReportRenewal (τ : Nat) (draws : List Nat)
  | presentEnd (τ : Nat) (k i : Nat)
  | selfchkCompare (τ : Nat) (k diff : Nat)
  | netCheck (τ : Nat)
  | aliveGateService (τ : Nat)
  | aliveGateTimeout (τ : Nat)
  | hubTempSample (τ : Nat) (tj : Int)
  | stormWindowEnd (τ : Nat)
  | plogMirrorWrite (τ : Nat) (fails : Bool)
  | sessionTimeout (τ : Nat)
  | activationSvSwitch (τ : Nat) (ok : Bool)
  | trialExpiry (τ : Nat)
  | spFrameStart (τ : Nat) (n : Nat)
  | spFrameEnd (τ : Nat) (n : Nat) (words : List Word) (edges : Nat)
  | svLockstepMismatch (τ : Nat)
  | fsafeRise (τ : Nat)
  | linkFrameCorrupted (τ : Nat) (t lane : Nat)
  | sckrStrayEdge (τ : Nat) (n : Nat)
  | pcieUncorrectableError (τ : Nat) (p : PortId) (status : Nat)
  | aliveEdge (τ : Nat)
  deriving DecidableEq, Repr

end Sys2Proof
end

