-- ==== Sys2Proof/Decode.lean ====
section
/-!
DEFINITION. Words. spec/opcode_table.json gives no row of this block any bits: a command comes from a ring, a register
write or a pin, and its operands are the constructor's. So no word spells a command.
-/
namespace Sys2Proof

/-- The command that a word of `nbits` bits spells by the table's bits: none, since no row has bits. -/
def decodeTableWord (_nbits _w : Nat) : Option Instr := none

end Sys2Proof
end

