-- ==== Sys2Proof/Config.lean ====
section
/-!
DEFINITION. What the manual fixes by name only: functions of outside standards that it cites without giving them,
left uninterpreted. None of them has a body, so a statement about one holds whatever it is.
-/
namespace Sys2Proof.Config

/-- The reference function of IEC 60584-1 for thermocouple type 0 to 6 (J, K, N, T, E, S, B): the EMF in pV at a
temperature in 0.0005 °C (R135). Uninterpreted: the manual cites the standard (log 8). -/
opaque tcEmf : Nat → Int → Int

/-- SHA-256 (R357 to R362): the digest of a byte string, as 32 bytes. Uninterpreted (log 9). -/
opaque sha256 : List Byte → List Byte

/-- ECDSA over P-256 with SHA-256 (R361): message, r and s, public key x and y. Uninterpreted (log 9). -/
opaque ecdsaOk : List Byte → List Byte → List Byte → Bool

/-- Whether the supervisor part of an image (its digest) accepts every record of a settings body (R376): the body's
format is the firmware's own. Uninterpreted (log 10). -/
opaque settingsAccepted : List Byte → Nat → Bool

/-- The register records and coefficient banks that a DEFAULTS section holds (R370, R417): the records' form is the
firmware's own. Uninterpreted (log 10). -/
opaque defaultSettings : List Byte → List (Nat × Word) × List (List Int)

/-- CODE of a NOTICE occurrence (Table 9-5 names a kind and numbers none), by the happening: 0 sequence disarmed (R17),
1 link buffer (R38), 2 STUCK (R93), 3 OVERRUN of a counter (R95), 4 pin clamp (R111), 5 SURGE (R161), 6 button STUCK
(R173), 7 sequence overrun (R195). A free value (log 11). -/
opaque noticeKind : Nat → Nat

/-- CODE of a STORE occurrence (Table 9-5 names an area and numbers none): 0 image check, 1 store access, 2 persistent
log. A free value (log 11). -/
opaque storeArea : Nat → Nat

/-- The level, at each tick, of a mirror output with ON_INVALID "last value" that has had no value yet (R167 states none).
A free value (log 11). -/
opaque mirNoLast : Nat → Bool

/-- The value, in 2^−16 of a code, from which an envelope detector follows the first tap sample of a stream (R237 states
none), from that sample's magnitude. A free value (log 11). -/
opaque envStart : Nat → Nat

/-- The ratio of a DMD channel with RATIO set whose amplitude and partner's add to 0 (R144 states none), by its own
amplitude. A free value (log 11). -/
opaque ratioZero : Int → Int

/-- How fast a tile's own oscillator runs against the hub's, in parts per million, while the tile's link is lost (R51 bounds
it by 100 and states no value), by the tile and the count at which it runs alone. A free value (log 11). -/
opaque tileRate : Nat → Nat → Int

/-- Whether the record that the persistent log is writing when VCORE falls without PORST_N is torn (R353, R410 state only
that it may be), by the power-on count and the records written. A free value (log 11). -/
opaque recordTorn : Nat → Nat → Bool

end Sys2Proof.Config
end

