-- ==== Sys2Proof/Machine/State.lean ====
section
/-!
DEFINITION. The state of the device as plain data, and the device right after a reset. Every field holds what the
register or unit named in its comment holds; registers that are computed from others (CH_MODE.ACTIVE, FLT_SUM, ...)
are not stored. A field's default is its value after a device reset (14 R443).
-/
namespace Sys2Proof.Machine

/-- Why a command ends in a fault. -/
inductive Fault where
  /-- A stress beyond the absolute maximum ratings: beyond them "no behaviour is specified" (15 R453). Raised by the
  happenings that carry a voltage (LPLUS_SAMPLE, PIN_CLAMP, SURGE, SUPPLY_THRESHOLD). Safe: the device may do anything. -/
  | beyondRatings
  deriving DecidableEq, Repr

/-- Why a command is refused. -/
inductive Refusal where
  /-- The command has no meaning yet; raised by no arm of exec. Safe. -/
  | notModelled (mnemonic : String)
  deriving DecidableEq, Repr

/-- Channel modes (03 Table 3-2). -/
inductive Mode where
  | off | di | dic | dout | dop | aiv | aii | airtd | aires | aitc | aoi | aov | exp | exs | dmd | mir | trim
  deriving DecidableEq, Repr

/-- An event (07 Table 7-12): `payload` is bytes 16 to 27 as one little-endian number; `wide` holds the four values of
a DETECTOR event's continuation slot (R276). `int` says whether a FAULT event may reach the ports (09 R340). -/
structure Event where
  ts : Tick
  kind : Nat
  tile : Nat
  ch : Nat
  payload : Nat := 0
  wide : List Int := []
  toPorts : Bool := true
  seq : Nat := 0
  mseq : Nat := 0
  late : Bool := false
  deriving DecidableEq, Repr

/-- What a tile sends to its filter pipeline: a result with its accession tick, or a gap notice with no value (06
R222). -/
structure PipeIn where
  ch : Nat
  seqSlot : Option (Nat × Nat) := none
  trig : Tick := 0
  ts : Tick := 0
  gap : Bool := false
  value : Int := 0
  rsw : Bool := false
  ovr : Bool := false
  dic : Bool := false
  acc : Tick := 0
  deriving DecidableEq, Repr

/-- An entry of a tile's link traffic (01 R38). -/
inductive LinkItem where
  | ev (e : Event)
  | res (r : PipeIn)
  deriving DecidableEq, Repr

/-- An output action (02 R67): kind 0 OUT_SET, 1 MIR_FORCE. `order` is its place in fetch order (R68). -/
structure Action where
  h : Hdr
  kind : Nat
  g : Nat
  value : Nat
  commit : Tick
  order : Nat
  opcode : Nat
  deriving DecidableEq, Repr

/-- Digital input state of a DI, DIC or TRIM channel (03 R87 to R94); `crossed` says that what the Sieve waits for began with a
crossing. -/
structure DiState where
  comp : Bool := false
  pend : Bool := false
  crossed : Bool := false
  crossAt : Tick := 0
  sieve : Bool := false
  level : Bool := false
  first : Bool := false
  riseAt : Tick := 0
  chatter : Bool := false
  chatRun : Bool := false
  chatStart : Tick := 0
  chatCount : Nat := 0
  chatQuiet : Nat := 0
  chatRate : Nat := 0
  deriving DecidableEq, Repr

/-- Counter state of a DIC channel (03 R95, R96). -/
structure DicState where
  count : Nat := 0
  gateStart : Tick := 0
  rises : Nat := 0
  firstRise : Tick := 0
  lastRise : Tick := 0
  highs : Nat := 0
  highSum : Nat := 0
  lastEdge : Option Tick := none
  overAt : Tick := 0
  deriving DecidableEq, Repr

/-- Output state of a channel (02 Table 2-7): `lvl3` the accessioned value (none: cleared), `prot` level 2, `hold` the
value in force when the safe state began, `post` the value kept after it (R70), `trip` switched off for the rest of the safe state,
`okAt` the tick at which SHORT_GND ends if no limit acts till then, `darkTill` the end of the dark pulse. `suspect` 0: found
SUSPECT while off, 1: during its own pulse; `pulsed` the channels pulsed since. -/
structure OutState where
  lvl3 : Option Nat := none
  prot : Bool := false
  latch : Bool := false
  retries : Nat := 0
  retryAt : Option Tick := none
  okAt : Option Tick := none
  hot : Bool := false
  hold : Nat := 0
  post : Option Nat := none
  holdGen : Bool := false
  trip : Bool := false
  elecOff : Bool := false
  darkTill : Tick := 0
  darkNext : Tick := 0
  noDarkTill : Tick := 0
  offHits : Nat := 0
  suspect : Option Nat := none
  suspectMv : Int := 0
  pulsed : List Nat := []
  orphan : Bool := false
  deriving DecidableEq, Repr

/-- Measuring state of a channel: the last accessioned result, AII foldback, burnout tests, mirror generation (the running
output period began at `mirPer` with length `mirPd` and high time `mirHi`; `mirWait` says that generation resumes at the
next one), the lengths for which each AO condition has held or been absent, and the last readback (04). -/
structure MeasState where
  has : Bool := false
  x : Int := 0
  y : Int := 0
  ts : Tick := 0
  fold : Bool := false
  burnCnt : Nat := 0
  burnAt : Tick := 0
  mirNow : Nat := 0
  mirNext : Option Nat := none
  mirGen : Bool := false
  mirHad : Bool := false
  mirPer : Tick := 0
  mirPd : Nat := 0
  mirHi : Nat := 0
  mirWait : Bool := false
  condOn : List Nat := [0, 0, 0, 0, 0, 0, 0, 0]
  condOff : List Nat := [0, 0, 0, 0, 0, 0, 0, 0]
  surgeAt : Option Tick := none
  na : Nat := 0
  uv : Nat := 0
  deriving DecidableEq, Repr

/-- A trim capture that waits for a result (04 R172): by command (a header) or by button (none). -/
structure TrimCap where
  h : Option Hdr
  span : Bool
  ref : Int
  till : Tick
  button : Nat := 0
  deriving DecidableEq, Repr

/-- Holds of a trim button pair, kept at the lower channel (04 R173): `both` says that a second press has cancelled the single
actions. -/
structure BtnState where
  zeroAt : Option Tick := none
  spanAt : Option Tick := none
  done : Bool := false
  both : Bool := false
  zeroStuck : Bool := false
  spanStuck : Bool := false
  deriving DecidableEq, Repr

/-- What the vitrine shows of one view of a channel (02 Table 2-3). -/
structure VitView where
  fate : Nat := 0
  accVal : Option (Nat × Tick) := none
  attempt : Nat := 0
  gain : Nat := 0
  deriving DecidableEq, Repr

/-- One channel (03 R81 to R118, 04). -/
structure Chan where
  mode : Mode := .off
  par : Nat := 0
  adm : Nat := 0
  cfg : Word := 0
  diag : Word := 0
  trimOfs : Int := 0
  trimGain : Nat := 0x400000
  trims : List (Tick × Int × Nat) := []
  valid : Bool := false
  diagP : Nat := 0
  diagL : Nat := 0
  clampP : Bool := false
  clampL : Bool := false
  partner : Nat := 0
  readback : Nat := 0
  di : DiState := {}
  dic : DicState := {}
  o : OutState := {}
  m : MeasState := {}
  staged : List Action := []
  caps : List TrimCap := []
  btn : BtnState := {}
  vf : List VitView := [{}, {}, {}, {}]
  deriving DecidableEq, Repr

/-- L+ states in the order of Table 3-12, lowest last. -/
inductive LState where
  | normal | high | low | missing | reversed
  deriving DecidableEq, Repr

/-- A tile's L+ monitor (03 R113, Table 3-9): successive samples beyond each entry and exit threshold. -/
structure LPlus where
  st : LState := .missing
  lowSeen : Bool := false
  missSeen : Bool := false
  revSeen : Bool := false
  highSeen : Bool := false
  volt : Int := 0
  nHigh : Nat := 0
  nLow : Nat := 0
  nMiss : Nat := 0
  nRev : Nat := 0
  nExit : Nat := 0
  deriving DecidableEq, Repr

/-- A mirror profile (04 Table 4-22). -/
structure MirProf where
  srcLo : Word := 0
  srcHi : Word := 0
  outLo : Nat := 0
  outHi : Nat := 0
  pwm : Nat := 1000
  deriving DecidableEq, Repr

/-- An injected conversion accepted into the queue (05 R205). -/
structure Inj where
  h : Hdr
  input : Nat
  slot : Word
  deriving DecidableEq, Repr

/-- Whose conversion a job is. -/
inductive JobSrc where
  | seq (n slot : Nat)
  | inj (e : Inj)
  deriving DecidableEq, Repr

/-- A slot or injected conversion in progress on a converter (05 R191, R201). `drop` is the FATE with which its result
will be discarded, `trig` then the trigger tick of its scan, `left` that its channel has left its mode, `spec` that its scan
was speculative when it started, `exc` that a cycle of its excitation failed, `fold` that foldback acted in its window,
`clamp` and `clampB` that the pin clamp did on its pins or its RATIO partner's. -/
structure Job where
  src : JobSrc
  input : Nat
  slot : Word
  start : Tick
  sampleAt : Tick
  attempt : Nat := 0
  attempt2 : Nat := 0
  gain : Nat := 0
  gain2 : Nat := 0
  done1 : Option Int := none
  done2 : Option Int := none
  waiting : Bool := false
  clamp : Bool := false
  spec : Bool := false
  exc : Bool := false
  fold : Bool := false
  clampB : Bool := false
  drop : Option Nat := none
  trig : Tick := 0
  left : Bool := false
  deriving DecidableEq, Repr

/-- A conversion result ready for accession (05 R214 to R217): `x` before linearisation and trim, `sides` what enters the
ranging history (input, gain, front-end value), `tested` whether a wire-break check was made or none is due. -/
structure Result where
  input : Nat
  x : Int
  ts : Tick
  flags : Nat
  seqSlot : Option (Nat × Nat) := none
  evt : Bool := false
  sides : List (Nat × Nat × Int) := []
  tested : Bool := true
  deriving DecidableEq, Repr

/-- A scan in progress (05 R191 to R198). `spec` is the predicted tick of an unconfirmed speculative scan and
`held` its results so far. -/
structure Scan where
  trig : Tick
  slot : Nat := 0
  acc : Nat := 0
  disc : Nat := 0
  late : Bool := false
  spec : Option Tick := none
  held : List Result := []
  restart : Option Tick := none
  deriving DecidableEq, Repr

/-- One regular sequence (05 Table 5-8): `cfg` holds the RWL fields of SEQ_CFG other than ARM, `timer` is the last tick
of its TIMER that has come, and `endAt` the tick at which its last scan ended. -/
structure Seq where
  arm : Bool := false
  active : Bool := false
  adm : Nat := 0
  cfg : Word := 0
  period : Nat := 100000
  phase : Nat := 0
  deadline : Nat := 0
  specTol : Nat := 100
  overrun : Nat := 0
  worst : Nat := 0
  scans : Nat := 0
  scan : Option Scan := none
  held : Option Tick := none
  lastTrig : Option Tick := none
  future : List (Tick × Hdr) := []
  hist : List Tick := []
  specWait : Nat := 0
  since : Bool := false
  noticeAt : Option Tick := none
  armAt : Tick := 0
  timer : Tick := 0
  endAt : Option Tick := none
  disarmH : List Hdr := []
  slots : List Word := List.replicate 64 0x00830A00#32
  deriving DecidableEq, Repr

/-- Calibration of a tile's converters (05 R207 to R210); `convs` bit 0 P, bit 1 F; a coefficient is an offset in nV
and a gain deviation in ppm. `dueP` and `dueF` are the ticks from which the next step may begin. -/
structure Cal where
  busy : Bool := false
  excl : Bool := false
  convs : Nat := 0
  stepsP : Nat := 0
  stepsF : Nat := 0
  dueP : Tick := 0
  dueF : Tick := 0
  before : Nat := 0
  hdrs : List Hdr := []
  bad : Bool := false
  done : Nat := 0
  valid : Bool := false
  fail : Bool := false
  temp : Int := 0
  lastAt : Option Tick := none
  coefP : List (Int × Int) := List.replicate 12 (0, 0)
  coefF : List (Int × Int) := List.replicate 12 (0, 0)
  deriving DecidableEq, Repr

/-- Ranging history of one input on one converter (05 R199): the last two accessioned values in nV at the front end
with their timestamps, newest first, and the gain of the newest. -/
structure Hist where
  conv : Nat
  input : Nat
  last : List (Int × Tick)
  gain : Nat
  gain2 : Nat
  deriving DecidableEq, Repr

/-- One reflex rule (08 Tables 8-1 to 8-5): the registers hold their RWL fields. -/
structure Rule where
  cond : Word := 0
  qual : Word := 0
  thr : Word := 0
  act : Word := 0
  armed : Bool := false
  why : Nat := 1
  truth : Bool := false
  fired : Nat := 0
  missed : Nat := 0
  deriving DecidableEq, Repr

/-- One port's copy of a tile's vitrine (02 R49). -/
structure Vit where
  sel : Word := 0
  done : Bool := false
  stat : Word := 0
  val : Word := 0
  tsLo : Word := 0
  tsHi : Word := 0
  deriving DecidableEq, Repr

/-- LIFE of a tile (08 Table 8-12). -/
inductive Life where
  | online | offlining | offline | readmitting
  deriving DecidableEq, Repr

/-- A tile's link to the hub (01 R14 to R17, R38, R39, R51; 08 R316, R317). `lifeH` is the command whose end is a change
of LIFE; `buffered` says that the link result buffer has not been empty since the link was lost; `lostWith` the lanes whose failure lost it; `ofs` is the offset of
the tile's copy of the timebase at hub count `ofsAt`. -/
structure Link where
  life : Life := .online
  laneOk : Nat := 7
  laneUse : Nat := 3
  lostWith : Nat := 0
  sparings : Nat := 0
  retrans : Nat := 0
  bad : List (Nat × Tick) := []
  sendQ : List LinkItem := []
  dropEv : Nat := 0
  dropRes : Nat := 0
  shownEv : Nat := 0
  shownRes : Nat := 0
  dropping : Bool := false
  buffered : Bool := false
  ofs : Int := 0
  ofsAt : Tick := 0
  lines : List Bool := List.replicate 64 false
  lifeH : List Hdr := []
  deriving DecidableEq, Repr

/-- The converter control of a tile (05 Table 5-7, R186, R199): `freeP` and `freeF` are the ticks at which the converters were
last freed. -/
structure ConvUnit where
  refEn : Bool := false
  align : Bool := false
  calAuto : Bool := true
  calDt : Nat := 50
  calPeriod : Nat := 60
  refReady : Bool := false
  refFault : Bool := false
  refRefused : Bool := false
  refDev : Int := 0
  badCnt : Nat := 0
  goodCnt : Nat := 0
  cal : Cal := {}
  injGap : Nat := 1000
  injW : Nat := 0
  injQ : List Inj := []
  injLast : Option Tick := none
  jobP : Option Job := none
  jobF : Option Job := none
  freeP : Tick := 0
  freeF : Tick := 0
  hist : List Hist := []
  deriving DecidableEq, Repr

/-- The occurrence that raised a safe state, as its entry and its exit report it (09 R341): block, source, effective class,
INDEX, CODE and ESCALATED (`up`); `nosrc` for TILE_OFFLINE, which has no source. -/
structure Cause where
  k : Nat := 0
  i : Nat := 0
  cls : Nat := 0
  ix : Nat := 0
  code : Nat := 0
  up : Bool := false
  nosrc : Bool := false
  deriving DecidableEq, Repr

/-- The safe-state scopes in force on a tile (09 Table 9-8) and its watchdog (Table 9-10). `cause` is what raised scope 2,
`wdCause` what raised scope 1, and each orphaned transaction stands with what raised its scope 0. -/
structure Safety where
  net : Bool := false
  wd : Bool := false
  blk : Bool := false
  off : Bool := false
  cause : Cause := {}
  wdCause : Cause := {}
  timeout : Nat := 10
  wdSeen : Bool := false
  wdServed : Tick := 0
  wdBack : Bool := false
  orphans : List (PortId × Nat × Cause) := []
  deriving DecidableEq, Repr

/-- One field tile (01 Table 1-2). -/
structure Tile where
  powered : Bool := false
  chans : List Chan := List.replicate 32 {}
  lp : LPlus := {}
  reen : Bool := false
  chatN : Nat := 20
  chatW : Nat := 1000
  tpWidth : Nat := 300
  tpPeriod : Nat := 10
  heatRef : Nat := 0
  excRef : Nat := 0
  crNow : Nat := 0
  railFault : Bool := false
  railSeen : Bool := false
  railLow : Nat := 0
  railHigh : Nat := 0
  cjc : Int := 0
  tdie : Int := 0
  cjcFixed : Int := 2500
  mirs : List MirProf := List.replicate 4 {}
  cv : ConvUnit := {}
  seqs : List Seq := List.replicate 8 {}
  rules : List Rule := List.replicate 64 {}
  rfxLat : Nat := 0
  link : Link := {}
  saf : Safety := {}
  evSeq : List Nat := List.replicate 33 0
  vitHa : Vit := {}
  vitHb : Vit := {}
  vitDisc : Nat := 0
  bound : Bool := true
  rotating : Bool := false
  engine : Nat := 0
  deriving DecidableEq, Repr

/-- The timebase beside its count (02 Table 2-5, R53 to R57). `rate` is the direction of the slewing, `slewLeft` what is left
of the measured offset, `slewCnt` the ticks since a tick was last gained or omitted, `noEdge` that SYNC is lost; `syncHigh` is when the last
pulse of lead mode began. -/
structure Timebase where
  mode : Nat := 0
  stepEn : Bool := false
  period : Nat := 100000
  loadLo : Nat := 0
  loadHi : Nat := 0
  aligned : Bool := false
  lost : Bool := false
  stepped : Bool := false
  refused : Bool := false
  offset : Int := 0
  edgeSeen : Bool := false
  lastEdge : Tick := 0
  rate : Int := 0
  slewLeft : Nat := 0
  slewCnt : Nat := 0
  noEdge : Bool := false
  syncHigh : Option Tick := none
  pulses : Nat := 0
  deriving DecidableEq, Repr

/-- The values of SETUP_LOCK (14 R444, R445). -/
structure LockSt where
  locked : Bool := false
  port : PortId := .ha
  fails : Nat := 0
  key : Nat := 0
  lastWrong : Option Tick := none
  deriving DecidableEq, Repr

/-- A LOCK command of the present tick (14 R445, R446). -/
structure LockReq where
  port : PortId
  unlock : Bool
  key : Nat
  deriving DecidableEq, Repr

/-- SETUP_LOCK (14 R446): in force, at the start of tick `chg`, and that tick's LOCK commands. -/
structure Lock extends LockSt where
  chg : Option Tick := none
  start : LockSt := {}
  reqs : List LockReq := []
  deriving DecidableEq, Repr

/-- An ownership request of the present tick (07 R281): its range, and the resources that it changed with their new
owner. -/
structure OwnReq where
  port : PortId
  cls : Nat
  first : Nat
  count : Nat
  hits : List Nat := []
  newOwner : Option PortId := none
  deriving DecidableEq, Repr

/-- Owners of the resources of each class (07 Table 7-6). -/
abbrev Owners := List (List (Option PortId))

/-- Nothing is owned after a device reset (07 Ownership). -/
def Owners.reset : Owners := [List.replicate 512 none, List.replicate 128 none, List.replicate 512 none,
  List.replicate 64 none, List.replicate 16 none]

/-- Ownership (07 R279 to R288): in force, at the start of tick `tick`, then with HA's grants of that tick (`mid`), and that
tick's requests. -/
structure Own where
  tab : Owners := Owners.reset
  start : Owners := Owners.reset
  mid : Owners := Owners.reset
  tick : Option Tick := none
  reqs : List OwnReq := []
  deriving DecidableEq, Repr

/-- A completion (07 Table 7-8): `payload` is bytes 16 to 27. -/
structure Completion where
  ts : Tick
  tag : Nat
  opcode : Nat
  status : Nat
  reason : Nat
  index : Nat
  payload : Nat
  ring : Nat
  cnt : Nat
  deriving DecidableEq, Repr

/-- A stream block (07 Table 7-14): each sample with the tick that a non-grid block gives it. -/
structure Block where
  ctx : Nat
  first : Int
  period : Nat
  samples : List (Tick × Word)
  bseq : Nat
  close : Tick
  grid : Bool
  dic : Bool
  final : Bool := false
  dl : Bool := false
  lost : Nat := 0
  delay : Nat := 0
  src : Nat := 0
  deadline : Tick := 0
  deriving DecidableEq, Repr

/-- Where an entry of a ring goes: slot count `n` of ring `ring`, its address in host memory and its PHASE (07 R257,
R263). -/
structure SlotAt where
  ring : Nat
  n : Nat
  addr : Nat
  phase : Bool
  deriving DecidableEq, Repr

/-- What the device writes to a host's memory (07 R254): the entries of its rings in their slots, the CONS words of the
doorbell page, the words and log entries of CAT_READ and LOG_READ, result words of serial frames, and MSI-X messages. -/
inductive HostWrite where
  | completion (p : SlotAt) (c : Completion)
  | event (p : SlotAt) (more : Option SlotAt) (e : Event)
  | overflow (p : SlotAt) (ts first last count : Nat)
  | block (p : SlotAt) (b : Block)
  | cons (ring addr n : Nat)
  | words (addr : Nat) (ws : List Word)
  | entries (addr : Nat) (es : List (List Byte))
  | msix (vector addr : Nat) (data : Word)
  deriving DecidableEq, Repr

/-- One ring of a port (07 Table 7-3, Table 7-4, R265, R291): `reserved` counts the completion slots kept for commands
fetched and not complete. -/
structure Ring where
  baseLo : Nat := 0
  baseHi : Nat := 0
  en : Bool := false
  ty : Nat := 0
  size : Nat := 0
  vec : Nat := 0
  cq : Nat := 0
  block : Nat := 1
  gap : Nat := 0
  err : Bool := false
  errKind : Nat := 0
  lost : Nat := 0
  prod : Nat := 0
  cons : Nat := 0
  reserved : Nat := 0
  unsig : Bool := false
  lastMsg : Option Tick := none
  deriving DecidableEq, Repr

/-- One MSI-X table entry (07 R255, R291). -/
structure Msix where
  addrLo : Word := 0
  addrHi : Word := 0
  data : Word := 0
  ctl : Word := 1
  deriving DecidableEq, Repr

/-- The configuration space of a port (07 Table 7-1), with the capabilities' writable fields: Max_Payload_Size and
Max_Read_Request_Size in bytes, Extended Tag Enable, the Completion Timeout value and its disable, ASPM L1 enable, D3hot,
MSI-X Enable and Function Mask, and AER's uncorrectable status with its header log. -/
structure CfgSpace where
  bar0 : Nat := 0
  bar2 : Nat := 0
  mps : Nat := 128
  mrrs : Nat := 512
  extTag : Bool := false
  ctoValue : Nat := 0
  ctoOff : Bool := false
  aspmL1 : Bool := false
  d3hot : Bool := false
  msixOn : Bool := false
  funcMask : Bool := false
  aerStatus : Nat := 0
  aerLog : List Word := [0, 0, 0, 0]
  deriving DecidableEq, Repr

/-- One host port (07 Table 7-3): `pollAt` is the tick from which the next regular poll is due, `pollAgain` that a nudge asks
for one, and `owed` completions that wait for a slot, each with its ring. -/
structure Port where
  enable : Bool := false
  dbPoll : Nat := 20
  live : Bool := false
  linkUp : Bool := false
  busMaster : Bool := false
  speed : Nat := 0
  width : Nat := 0
  l1 : Bool := false
  dbErr : Bool := false
  fellAt : Option Tick := none
  dbLo : Nat := 0
  dbHi : Nat := 0
  subSrc : Nat := 0x1FFFF
  subKind : Nat := 0xFFFFFFFF
  staging : List Event := []
  dropCnt : Nat := 0
  dropFirst : Nat := 0
  dropLast : Nat := 0
  pollAgain : Bool := false
  pollAt : Tick := 0
  cs : CfgSpace := {}
  owed : List (Nat × Completion) := []
  tbHi : Nat := 0
  tbLo : Nat := 0
  catDisc : Nat := 0
  catLast : Nat := 0
  msix : List Msix := List.replicate 64 {}
  pba : List Bool := List.replicate 64 false
  rr : Nat := 0
  rings : List Ring := List.replicate 64 {}
  out : List HostWrite := []
  deriving DecidableEq, Repr

/-- A command fetched and not yet begun, or waiting for an engine (01 R37, 07 R266). `cq` is the completion ring of its
command ring at its fetch, `held` whether a slot of it stands reserved (R265), `at_` the tick of the fetch, and `cmd` the command
itself once it waits. -/
structure Fetched where
  port : PortId
  ring : Nat
  cnt : Nat
  desc : Desc
  tile : Option Nat
  waiting : Bool := false
  cmd : Option Instr := none
  cq : Nat := 0
  held : Bool := true
  at_ : Tick := 0
  deriving DecidableEq, Repr

/-- A command begun and not complete, with its completion ring and reservation (07 R264 FENCE, R265) and the tile whose engine
executes it. -/
structure Running where
  port : PortId
  ring : Nat
  cnt : Nat
  cq : Nat
  held : Bool
  tile : Option Nat := none
  deriving DecidableEq, Repr

/-- A transaction staged in the hub (02 R71 to R76). Lists hold tile numbers; an answer is a tile with the channel and
reason of its REFUSE, or reason 0 for READY, and `got` those that have reached the hub; `accd` holds the members
accessioned. -/
structure Txn where
  h : Hdr
  c : Tick
  members : List Member
  order : Nat
  arrived : List Nat := []
  answers : List (Nat × Nat × Nat) := []
  got : List (Nat × Nat × Nat) := []
  cancelled : Bool := false
  decided : Option Bool := none
  held : List Nat := []
  ended : List Nat := []
  accd : List Nat := []
  orphans : List Nat := []
  lost : List Nat := []
  reported : List Nat := []
  deriving DecidableEq, Repr

/-- The event merge (02 R60 to R64). -/
structure Merge where
  held : List Event := []
  hubOut : List Event := []
  hubSeq : Nat := 0
  nextSeq : Nat := 1
  lastKey : Option (Nat × Nat × Nat × Nat) := none
  horizon : Nat := 5000
  epi : Bool := false
  epiLast : Tick := 0
  deriving DecidableEq, Repr

/-- A storm summary under way (09 R351). -/
structure Storm where
  tile : Nat
  kind : Nat
  first : Event
  last : Event
  count : Nat
  deriving DecidableEq, Repr

/-- An Archive entry (09 R349, Table 9-13). -/
inductive ArchEntry where
  | ev (e : Event)
  | more (e : Event)
  | storm (s : Storm)
  deriving DecidableEq, Repr

/-- One stratum of the Archive (09 Table 9-12, Table 9-16): the entries held, oldest first. -/
structure Stratum where
  entries : List ArchEntry := []
  next : Nat := 0
  limit : Nat := 0
  coal : Nat := 0
  lost : Nat := 0
  winCnt : Nat := 0
  storms : List Storm := []
  deriving DecidableEq, Repr

/-- A record of the persistent log (09 Table 9-15). -/
structure LogRec where
  entry : ArchEntry
  boots : Nat
  num : Nat
  torn : Bool := false
  deriving DecidableEq, Repr

/-- The persistent log (09 R352, R353): queue of S0 and S1 entries to be written, and the rings in the store. -/
structure Plog where
  queue : List (Nat × ArchEntry) := []
  s0 : List LogRec := []
  s1 : List LogRec := []
  next0 : Nat := 0
  next1 : Nat := 0
  boots : Nat := 0
  torn : Nat := 0
  skipped : Nat := 0
  ready : Bool := false
  failed : Bool := false
  graveRec : Bool := false
  deriving DecidableEq, Repr

/-- A trigger bus line (08 Table 8-6), with the condition's timestamp and the changes on their way. -/
structure Line where
  state : Bool := false
  stale : Bool := false
  driven : Bool := false
  tile : Nat := 0
  rule : Nat := 0
  ts : Tick := 0
  toHub : List (Bool × Tick) := []
  toTiles : List (Nat × Bool × Tick) := []
  deriving DecidableEq, Repr

/-- States of an engine (01 Table 1-6). -/
inductive EngSt where
  | bound | idle | loading | receiving | retired
  deriving DecidableEq, Repr

/-- A tile engine: `image` is the bank of the image it holds with its load complete (none: no image). -/
structure Engine where
  st : EngSt := .bound
  tile : Nat := 31
  ver : Nat := 0
  image : Option Nat := none
  want : Option Nat := none
  deriving DecidableEq, Repr

/-- Where a rotation stands in Table 8-8. -/
inductive RotPhase where
  | load | precopy | ready | gap
  deriving DecidableEq, Repr

/-- A planned rotation under way (08 R310), whose pre-copy ended at `copyAt`, and the registers of Table 8-11. `h` is none for a rotation of a live
activation or revert. A repair is its tile, its failed and its chosen engine (31: none yet) and E; `repairH` holds the commands
of rotations that became repairs. -/
structure Rot where
  busy : Bool := false
  tile : Nat := 0
  inEng : Nat := 0
  outEng : Nat := 0
  h : Option Hdr := none
  bank : Nat := 0
  phase : RotPhase := .load
  copyAt : Tick := 0
  gapAt : Tick := 0
  lastOutcome : Nat := 0
  lastTile : Nat := 0
  lastGap : Nat := 0
  repairs : List (Nat × Nat × Nat × Tick) := []
  repairH : List (Nat × Hdr) := []
  deriving DecidableEq, Repr

/-- A block's supply (08 R322 to R325, Table 8-16); `workAt` is the tick of its last work. -/
structure Pwr where
  st : Nat := 0
  rail : Nat := 0
  draw : Nat := 0
  own : Nat := 900
  ret : Bool := false
  workAt : Tick := 0
  minMargin : List Nat := List.replicate 8 0xFFFFFFFF
  slack : List Nat := List.replicate 8 0xFFFFFFFF
  deriving DecidableEq, Repr

/-- An SRAM bank (08 Table 8-13): rows that gave a corrected error in an earlier scrub pass, its own rail in mV and the tick of
its last work (01 R25, 08 R322). -/
structure Sram where
  ret : Bool := false
  own : Nat := 900
  workAt : Tick := 0
  spares : Nat := 0
  uncorr : Bool := false
  corrected : Nat := 0
  rows : List Nat := []
  deriving DecidableEq, Repr

/-- A coefficient bank (06 Table 6-5). -/
structure CBank where
  words : List Int := []
  valid : Bool := false
  deriving DecidableEq, Repr

/-- A delay line of a decimating stage, newest first, with the count of its inputs (06 R232). Each value is marked when
its computation saturated or met the limit (R228). -/
structure Stage where
  line : List (Int × Bool) := []
  n : Nat := 0
  deriving DecidableEq, Repr

/-- The detectors of a context (06 R237): one window under way and the envelope with 16 fraction bits. -/
structure Det where
  cnt : Nat := 0
  hi : Int := 0
  lo : Int := 0
  sum : Int := 0
  sq : Nat := 0
  env : Option Int := none
  marks : Nat := 0
  deriving DecidableEq, Repr

/-- A cross-fade under way (06 R242): to bank, over `f` samples, the next sample number. -/
structure Fade where
  dst : Nat
  f : Nat
  i : Nat
  h : Hdr
  deriving DecidableEq, Repr

/-- What a running context remembers (06): its source channel and slot, whether that is a DIC channel, `n` inputs taken, the grid (`trig0`, `tau0`, the next index), the last input,
the marks of its support newest first, the delay lines of its stages, the resampler's inputs (`rho0` is twice the
represented instant of its first), the detectors, the partial block newest sample first, and what waits. `pendSrc` is a
source switch that has not taken effect, and `retake` that the next result gives the grid anew (R225). -/
structure CtxRun where
  port : PortId := .ha
  ring : Nat := 0
  ch : Nat := 0
  slot : Nat := 0
  dic : Bool := false
  startAt : Tick := 0
  trig0 : Option Tick := none
  tau0 : Int := 0
  nextIdx : Nat := 0
  n : Nat := 0
  last : Int := 0
  ts : Tick := 0
  supp : List Nat := []
  pendSrc : Option (Nat × Hdr) := none
  retake : Bool := false
  rank : List Int := []
  hb : List Stage := []
  fir : Stage := {}
  resX : List (Int × Bool) := []
  resN : Nat := 0
  rho0 : Int := 0
  resK : Int := 0
  det : Det := {}
  part : List (Tick × Word) := []
  partFirst : Int := 0
  partAt : Tick := 0
  partLast : Tick := 0
  bseq : Nat := 0
  delivered : Nat := 0
  lost : Nat := 0
  wait : Option Block := none
  fade : Option Fade := none
  deriving DecidableEq, Repr

/-- A stream context (06 Table 6-7): the RWL fields of its registers, and its state while it runs. -/
structure Ctx where
  src : Word := 0
  struct : Word := 0x00010000#32
  res : Word := 100000#32
  det : Word := 0x004003E8#32
  deliv : Word := 0x08640000#32
  adm : Nat := 0
  bankNow : Nat := 0
  ignored : Nat := 0
  gaps : Nat := 0
  delay : Nat := 0
  lset : Nat := 0
  delayHalf : Nat := 0
  run : Bool := false
  demand : Nat := 0
  mem : Nat := 0
  rate : Nat := 0
  r : CtxRun := {}
  stopH : List Hdr := []
  ending : Option Nat := none
  deriving DecidableEq, Repr

/-- A filter pipeline (06 R218, R251). -/
structure Pipe where
  banks : List CBank := List.replicate 4 {}
  demRef : Nat := 0
  memRef : Nat := 0
  ctxs : List Ctx := List.replicate 32 {}
  deriving DecidableEq, Repr

/-- One select of a serial port (11 Table 11-6). -/
structure SpSel where
  mode : Nat := 0
  lsb : Bool := false
  ret : Nat := 0
  half : Nat := 5
  lead : Nat := 5
  trail : Nat := 5
  gap : Nat := 10
  deriving DecidableEq, Repr

/-- A frame fetched for a serial port (11 R395): `fails` says that its record cannot be read, `cfg` is its select's setting at S. -/
structure Frame where
  h : Hdr
  sel : Nat
  fr : FrameRec
  resAddr : Nat
  fails : Bool := false
  cfg : SpSel := {}
  s : Tick := 0
  abortAt : Option Tick := none
  deriving DecidableEq, Repr

/-- A serial master port (11 R384 to R404): `idleHigh` is the level at which SCK rests. -/
structure SPort where
  en : Bool := false
  cur : Option Frame := none
  wait : List Frame := []
  frames : Nat := 0
  edgeErr : Nat := 0
  stray : Nat := 0
  sels : List SpSel := List.replicate 4 {}
  free : Tick := 0
  idleHigh : Bool := false
  deriving DecidableEq, Repr

/-- A fault source (09 Table 9-1): `react` and `taken` are five bits, from the high one INT, NMI, BLK, CHIP, ALV; `ch` is the channel
of the latest occurrence, 32 where it belongs to none (R340). -/
structure Src where
  present : Bool := false
  latched : Bool := false
  clsNow : Nat := 0
  escalated : Bool := false
  taken : Nat := 0
  count : Nat := 0
  cls : Nat := 0
  react : Nat := 0
  first : Tick := 0
  last : Tick := 0
  ch : Nat := 32
  index : Nat := 0
  code : Nat := 0
  aux : Nat := 0
  deriving DecidableEq, Repr

/-- A fault block (09 Table 9-2): `shown` is the copy the hub shows while the tile's link is lost, with `shownSafe` (R329); `sent` and
`owed` pace its MSI-X messages (R332). -/
structure FBlk where
  srcs : List Src
  safe : Bool := false
  shown : Option (List Src) := none
  shownSafe : Bool := false
  vecHa : Nat := 63
  vecHb : Nat := 63
  esc2 : Nat := 24
  esc3 : Nat := 25
  esc4 : Nat := 17
  sentHa : Option Tick := none
  sentHb : Option Tick := none
  owedHa : Bool := false
  owedHb : Bool := false
  deriving DecidableEq, Repr

/-- The device's fault state beside its blocks (09 R339 to R348): `fsafe` is the level of FSAFE_N, `netOn` whether the
device scope is in force. `todo` is the model's own: reactions NMI, BLK and CHIP (block, source, taken) of occurrences
of the command being executed; it is empty between commands. -/
structure DevFault where
  fsafe : Bool := true
  fsafeSeen : Bool := false
  highSince : Tick := 0
  netOn : Bool := false
  netCause : Cause := { k := 54 }
  grave : Bool := false
  gravePrev : Bool := false
  aliveLevel : Bool := false
  gateAt : Tick := 0
  gateOk : Bool := false
  todo : List (Nat × Nat × Nat) := []
  deriving DecidableEq, Repr

/-- STATE of a bank record (10 Table 10-1). -/
inductive BankSt where
  | empty | writing | verified | trial | active | failed
  deriving DecidableEq, Repr

/-- A bank record (10 Table 10-1). -/
structure BankRec where
  st : BankSt := .empty
  nextBoot : Bool := false
  cause : Nat := 0
  gen : Nat := 0
  version : Nat := 0
  svn : Nat := 0
  floor : Nat := 0
  revoked : Nat := 0
  len : Nat := 0
  digest : List Byte := []
  engDigest : List Byte := []
  svDigest : List Byte := []
  deriving DecidableEq, Repr

/-- A settings half (10 R374): the body as register records and coefficient banks. -/
structure SetHalf where
  valid : Bool := false
  seq : Nat := 0
  fmt : Nat := 0
  regs : List (Nat × Word) := []
  banks : List CBank := []
  deriving DecidableEq, Repr

/-- UPD_STAT.STAGE (10 Table 10-10). -/
inductive UStage where
  | idle | writing | verifying | verified | activating | trial | reverting | recovery
  deriving DecidableEq, Repr

/-- Firmware update (10 R364 to R376, Table 10-10). `act` is the command of a live activation or revert under way. -/
structure Upd where
  stage : UStage := .idle
  runBank : Nat := 0
  session : Option PortId := none
  idleAt : Option Tick := none
  liveTrial : Bool := false
  rotated : Nat := 0
  lastOutcome : Nat := 0
  lastCheck : Nat := 0
  trialEnd : Option Tick := none
  trialSecs : Nat := 0
  act : Option Hdr := none
  svDone : Bool := false
  defaults : Bool := false
  fromDefaults : Bool := false
  loadedFmt : Option Nat := none
  savePend : Bool := false
  saveAt : Option Tick := none
  deriving DecidableEq, Repr

/-- Board supplies (12 Table 12-7): OK and SEEN bits in the order VCORE, VPHY, VIO, VISO, VKA. -/
structure Supply where
  ok : List Bool := [false, false, false, false, false]
  seen : List Bool := [false, false, false, false, false]
  vio33 : Bool := false
  viso : Nat := 0
  deriving DecidableEq, Repr

/-- START_STAT.PHASE (12 Table 12-7). -/
inductive Phase where
  | rom | loading | settings | tiles | complete | recovery | grave | test
  deriving DecidableEq, Repr

/-- Start-up (12 Table 12-7): `wantRecovery` and `dflt` are what a restart of the update asks of the next start-up. -/
structure Start where
  phase : Phase := .rom
  cause : Nat := 0
  setSrc : Nat := 0
  refused : Nat := 0
  doneMs : Nat := 0
  wantRecovery : Bool := false
  deriving DecidableEq, Repr

/-- Hub junction temperature (12 Table 12-7). -/
structure Therm where
  tj : Int := 0
  hot : Bool := false
  hotSeen : Bool := false
  deriving DecidableEq, Repr

/-- The keep-alive domain (12 R423). -/
structure Ka where
  fallow : Bool := false
  vkaLost : Bool := false
  lostNow : Bool := false
  wakeCnt : Nat := 0
  ret : List Word := List.replicate 64 0
  deriving DecidableEq, Repr

/-- Whether the device runs, is held in reset (12 R409), or lies in Fallow or off. -/
inductive Power where
  | running | held | fallow | off
  deriving DecidableEq, Repr

/-- What the store die and the keep-alive domain carry over every restart (12 Table 12-3), and identity. -/
structure Persist where
  cells : List Host.Cell := []
  recA : BankRec := { st := .active, gen := 1, digest := Config.sha256 [], engDigest := Config.sha256 [], svDigest := Config.sha256 [] }
  recB : BankRec := {}
  half0 : SetHalf := {}
  half1 : SetHalf := {}
  plog : Plog := {}
  ka : Ka := {}
  revId : Nat := 0xC1
  hwType : Nat := 0
  pciVendor : Nat := 0
  pciSubsys : Nat := 0
  unitId : Nat := 0
  nextCause : Nat := 0
  deriving DecidableEq, Repr

/-- Default class and reactions of fault source `i` of block `k` (09 Table 9-5); none for an unused entry. -/
def srcDefault (k i : Nat) : Option (Nat × Nat × Nat) :=
  if i = 15 then some (3, 3, 16)
  else if k ≤ 17 then [some (2, 2, 24), some (2, 2, 24), some (0, 0, 16)].getD i none
  else if k = 18 then [some (3, 3, 19), some (3, 3, 19)].getD i none
  else if k ≤ 34 then [some (0, 0, 16), some (1, 0, 16)].getD i none
  else if k ≤ 50 then
    [some (2, 2, 16), some (0, 0, 16), some (1, 0, 16), some (2, 2, 16), some (2, 0, 16), some (1, 0, 16),
     some (2, 0, 16), some (1, 0, 16), some (2, 2, 16), some (1, 0, 16), some (0, 0, 16), some (2, 0, 16),
     some (0, 0, 16), some (0, 0, 16), some (1, 0, 16)].getD i none
  else if k ≤ 52 then [some (1, 0, 16), some (1, 0, 16), some (1, 0, 16)].getD i none
  else if k = 53 then [some (0, 0, 0), some (1, 0, 16), some (0, 0, 16)].getD i none
  else
    [some (1, 0, 16), some (4, 4, 17), some (0, 0, 16), some (0, 0, 16), some (1, 0, 16), some (0, 0, 16),
     some (0, 0, 16), some (1, 0, 16), some (1, 0, 16), some (3, 0, 17), some (1, 0, 16)].getD i none

/-- A fault source after reset: its default class and reactions. -/
def Src.reset (k i : Nat) : Src :=
  match srcDefault k i with
  | some (c, _, r) => { cls := c, react := r }
  | none => {}

/-- A fault block after reset. -/
def FBlk.reset (k : Nat) : FBlk := { srcs := (List.range 16).map (Src.reset k) }

/-- The state of the device. -/
structure State where
  pending : List Instr := []
  power : Power := .running
  now : Tick := 0
  tb : Timebase := {}
  lock : Lock := {}
  own : Own := {}
  ha : Port := {}
  hb : Port := {}
  fetched : List Fetched := []
  running : List Running := []
  lastGrant : Option PortId := none
  order : Nat := 0
  transit : List Action := []
  txns : List Txn := []
  merge : Merge := {}
  arch : List Stratum := [{}, { limit := 40 }, { limit := 500 }, { limit := 200 }]
  archKind : Nat := 0xFFFFFFFB
  tiles : List Tile := (List.range 16).map fun t => { engine := t }
  lines : List Line := List.replicate 64 {}
  engines : List Engine := (List.range 18).map fun n =>
    if n < 16 then { st := .bound, tile := n } else { st := .idle, tile := 31 }
  rot : Rot := {}
  pwr : List Pwr := List.replicate 56 {}
  scaleEn : Bool := true
  pwrUpdate : Nat := 0
  sram : List Sram := List.replicate 256 {}
  pipes : List Pipe := List.replicate 16 {}
  sps : List SPort := List.replicate 16 {}
  blks : List FBlk := (List.range 55).map FBlk.reset
  dev : DevFault := {}
  upd : Upd := {}
  sup : Supply := {}
  start : Start := {}
  therm : Therm := {}
  per : Persist := {}
  deriving DecidableEq, Repr

/-- The device right after a reset: every register at its Reset column (14 R443), nothing owned, nothing queued, the
timebase at 0, start-up at PHASE ROM. -/
def State.reset : State := {}

end Sys2Proof.Machine
end

