-- ==== Sys2Proof/Machine/Operands.lean ====
section
/-!
DEFINITION. Operand forms: mode codes, field extractors of the channel registers, writable bits and reset values of
their layouts, descriptor and payload bytes, event keys, ring sizes and durations.
-/
namespace Sys2Proof.Machine

/-- Ticks of 10 ns in a microsecond, a millisecond and a second (00 R4). -/
abbrev us : Nat := 100
/-- See `us`. -/
abbrev ms : Nat := 100000
/-- See `us`. -/
abbrev sec : Nat := 100000000

/-- MODE codes (03 Table 3-2), in order. -/
def Mode.all : List Mode := [.off, .di, .dic, .dout, .dop, .aiv, .aii, .airtd, .aires, .aitc, .aoi, .aov, .exp, .exs,
  .dmd, .mir, .trim]

/-- The mode of a MODE code; none for the reserved codes 0x11 to 0x1F. -/
def Mode.ofCode (n : Nat) : Option Mode := Mode.all[n]?

/-- The MODE code of a mode. -/
def Mode.code : Mode → Nat
  | .off => 0 | .di => 1 | .dic => 2 | .dout => 3 | .dop => 4 | .aiv => 5 | .aii => 6 | .airtd => 7 | .aires => 8
  | .aitc => 9 | .aoi => 10 | .aov => 11 | .exp => 12 | .exs => 13 | .dmd => 14 | .mir => 15 | .trim => 16

/-- Analogue input modes of Table 4-4. -/
def Mode.isAi : Mode → Bool
  | .aiv | .aii | .airtd | .aires | .aitc => true
  | _ => false

/-- Modes whose results are conversions of P or F: the analogue inputs and DMD. -/
def Mode.isMeas (m : Mode) : Bool := m.isAi || m = .dmd

/-- Resistance modes. -/
def Mode.isRes (m : Mode) : Bool := m = .airtd || m = .aires

/-- Analogue output modes. -/
def Mode.isAo : Mode → Bool
  | .aoi | .aov => true
  | _ => false

/-- Modes with an accessioned level: DI, DIC and TRIM. -/
def Mode.isLvl : Mode → Bool
  | .di | .dic | .trim => true
  | _ => false

/-- Modes that take an output action of their own (13 Table 13-1). -/
def Mode.isOut : Mode → Bool
  | .dout | .aoi | .aov | .mir => true
  | _ => false

/-- Modes with a stage that is switched off on leaving them (03 R83, 04 R123). -/
def Mode.isDriven (m : Mode) : Bool := m.isOut || m = .exp || m = .exs

/-- Modes with trim (13 Table 13-1): all four operations for inputs and DMD, SET and RESET for AOI and AOV. -/
def Mode.trimmable (m : Mode) : Bool := m.isMeas || m.isAo

/-- CH_CFG on entry to a mode: the Reset columns of Tables 3-3, 3-6, 4-4, 4-10 to 4-12, 4-14, 4-17 and 4-19 (R122). -/
def cfgReset : Mode → Word
  | .di | .dic => 0x003D0000#32
  | .aiv | .aii | .airtd | .aires | .aitc => 0x04041401#32
  | .aoi => 0x08001E00#32
  | .aov => 0x08000A00#32
  | .exp => 0x190A0A32#32
  | .exs => 0x4F190000#32
  | .dmd => 0x0000010A#32
  | .mir => 0x0000000A#32
  | .trim => 0x02000000#32
  | _ => 0

/-- The bits of CH_CFG that a mode's layout has. -/
def cfgMask : Mode → Word
  | .di | .dic | .dout | .aov | .exp | .dmd => 0xFFFFFFFF#32
  | .aiv | .aii | .airtd | .aires | .aitc => 0xFFFCFFFF#32
  | .aoi => 0xFFFFBFFF#32
  | .exs => 0xFFFF0000#32
  | .mir => 0xFFF803FF#32
  | .trim => 0xFEFFFFFF#32
  | _ => 0

/-- The writable part of CH_DIAG on entry to a mode (Tables 3-8, 4-20). -/
def diagReset : Mode → Word
  | .dout | .mir => 0x70000000#32
  | .aiv | .aii | .airtd | .aires | .aitc | .dmd | .aoi | .aov | .exp | .exs => 0x85000000#32
  | _ => 0

/-- The writable bits of CH_DIAG. -/
def diagMask : Mode → Word
  | .dout | .mir => 0xF0000000#32
  | .aiv | .aii | .airtd | .aires | .aitc | .dmd | .aoi | .aov | .exp | .exs => 0x9F000000#32
  | _ => 0

/-- CH_DIAG as stored: the writable bits, with COMP_T 0 replaced by 1 (Table 4-20). -/
def diagStore (m : Mode) (w : Word) : Word :=
  let v := w &&& diagMask m
  if (m.isMeas || m.isAo || m = .exp || m = .exs) && fld v 28 24 = 0 then v ||| 0x01000000#32 else v

/-- SIEVE time S in ticks: SIEVE_T × unit (Table 3-3), 20 ms for a trim button (R173). -/
def Chan.sieveT (c : Chan) : Nat :=
  if c.mode = .trim then 20 * ms else fld c.cfg 26 17 * (if bit c.cfg 27 then 100 * us else us)

/-- THR 0b10 of DI and DIC: thresholds ratiometric to L+ (R85). -/
def Chan.ratio (c : Chan) : Bool := (c.mode = .di || c.mode = .dic) && fld c.cfg 31 30 = 2

/-- INVERT (Table 3-3); a trim button has none. -/
def Chan.invert (c : Chan) : Bool := (c.mode = .di || c.mode = .dic) && bit c.cfg 28

/-- CHAT_EN and CHAT_HOLD, of DI only. -/
def Chan.chatEn (c : Chan) : Bool := c.mode = .di && bit c.cfg 16
/-- See `chatEn`. -/
def Chan.chatHold (c : Chan) : Bool := c.mode = .di && bit c.cfg 15

/-- STUCK_T in seconds, or GATE in ms. -/
def Chan.stuckT (c : Chan) : Nat := fld c.cfg 11 0

/-- CNT of a DIC channel. -/
def Chan.cnt (c : Chan) : Nat := fld c.cfg 14 12

/-- RANGE and WIRE of Table 4-4. -/
def Chan.range (c : Chan) : Nat := fld c.cfg 31 29
/-- See `range`. -/
def Chan.wire (c : Chan) : Nat := fld c.cfg 28 27
/-- LIN of AIRTD and AITC. -/
def Chan.lin (c : Chan) : Bool := (c.mode = .airtd || c.mode = .aitc) && bit c.cfg 26
/-- CJC source of AITC. -/
def Chan.cjc (c : Chan) : Nat := fld c.cfg 25 24
/-- CJC_CH of AITC. -/
def Chan.cjcCh (c : Chan) : Nat := fld c.cfg 23 19
/-- PULSE_W × 50 µs, in ticks (Table 4-4). -/
def Chan.pulseW (c : Chan) : Nat := fld c.cfg 15 8 * (50 * us)

/-- Channels of a group led with this PAR (Table 3-1). -/
def Chan.groupN (c : Chan) : Nat := if c.mode = .dout then (if c.par = 1 then 2 else if c.par = 2 then 4 else 1) else 1

/-- DROP_ON_LOSS (Tables 3-6, 4-14, 4-17). -/
def Chan.dropOnLoss (c : Chan) : Bool :=
  match c.mode with
  | .dout | .mir => bit c.cfg 29
  | .aoi | .aov => bit c.cfg 28
  | _ => false

/-- I_DECL in mA: of DO (Table 3-6) or MIR (Table 4-17). -/
def Chan.iDecl (c : Chan) : Nat := if c.mode = .dout then fld c.cfg 27 18 else fld c.cfg 9 0

/-- RETRY_EN (Table 3-8). -/
def Chan.retryEn (c : Chan) : Bool := bit c.diag 28

/-- TP_EN of DO (Table 3-8); MIR ignores it (R162). -/
def Chan.tpEn (c : Chan) : Bool := c.mode = .dout && bit c.diag 31

/-- WB_EN (Table 4-20). -/
def Chan.wbEn (c : Chan) : Bool := bit c.diag 31

/-- SRC, PROF, ENC and ON_INVALID of MIR (Table 4-17). -/
def Chan.mirSrc (c : Chan) : Nat := fld c.cfg 28 24
/-- See `mirSrc`. -/
def Chan.mirProf (c : Chan) : Nat := fld c.cfg 22 21
/-- See `mirSrc`. -/
def Chan.mirPwm (c : Chan) : Bool := bit c.cfg 23
/-- See `mirSrc`. -/
def Chan.onInvalid (c : Chan) : Nat := fld c.cfg 20 19

/-- EXC_CH, RATIO, PART and NCYC of DMD (Table 4-12). -/
def Chan.excCh (c : Chan) : Nat := fld c.cfg 31 27
/-- See `excCh`. -/
def Chan.isRatio (c : Chan) : Bool := c.mode = .dmd && bit c.cfg 26
/-- See `excCh`. -/
def Chan.part (c : Chan) : Nat := fld c.cfg 25 21
/-- See `excCh`. -/
def Chan.ncyc (c : Chan) : Nat := fld c.cfg 11 6

/-- The channels that the mode and wiring claim above its own (04 Table 4-1). -/
def Chan.claims (c : Chan) : Nat :=
  match c.mode with
  | .aiv | .aitc => if c.wire = 2 then 1 else 0
  | .airtd | .aires => c.wire
  | _ => 0

/-- Whether the mode's values are signed (04 Table 4-3). -/
def Chan.signed (c : Chan) : Bool :=
  match c.mode with
  | .aiv | .dmd => true
  | .airtd => c.lin
  | .aitc => true
  | _ => false

/-- The code weight of Table 4-3, as a number that names it: equal numbers for equal weights. -/
def Chan.weight (c : Chan) : Nat :=
  match c.mode with
  | .aiv => if c.range = 2 then 2 else if c.range = 3 then 3 else 1
  | .aii => 4
  | .airtd => if c.lin then 8 else 5
  | .aires => if c.range = 2 then 6 else 5
  | .aitc => if c.lin then 8 else 3
  | .dmd => 9
  | .aoi | .exp | .exs => 4
  | .aov => 1
  | .dic => 10
  | _ => 0

/-- Gain set of the mode and RANGE, widest and narrowest code (05 Table 5-6); none for a mode that is not listed. -/
def Chan.gains (c : Chan) : Option (Nat × Nat) :=
  match c.mode with
  | .aiv => if c.range ≤ 1 then some (0, 6) else if c.range = 2 then some (4, 10) else some (7, 11)
  | .aitc => some (7, 11)
  | .aii => some (4, 9)
  | .airtd | .aires => if c.range = 0 then some (5, 11) else some (4, 10)
  | .dmd => some (0, 8)
  | _ => none

/-- Excitation current in µA by mode and RANGE (04 Table 4-5). -/
def Chan.excUa (c : Chan) : Nat := if c.range = 0 then 1000 else if c.range = 1 then 200 else 10

/-- Full scale of a gain code in nV (05 Table 5-5). -/
def fullScale (g : Nat) : Nat :=
  [12500000000, 6250000000, 3125000000, 2500000000, 1250000000, 625000000, 312500000, 156250000, 78125000, 39062500,
   19531250, 9765625].getD g 12500000000

/-- Settle time t_set of a gain code in ticks (05 Table 5-5). -/
def tSet (g : Nat) : Nat := if g ≤ 2 then 10 * us else if g ≤ 6 then 5 * us else 20 * us

/-- Conversion time of P by RATE, in ticks (05 Table 5-2). -/
def rateT (r : Nat) : Nat := [3125, 6250, 12500, 25000, 40000, 100000, 1666667, 2000000].getD r 25000

/-- Fields of a slot word (05 Table 5-9). -/
def Slot.input (w : Word) : Nat := fld w 31 26
/-- See `input`. -/
def Slot.conv (w : Word) : Nat := fld w 25 24
/-- See `input`. -/
def Slot.auto (w : Word) : Bool := bit w 23
/-- See `input`. -/
def Slot.gain (w : Word) : Nat := fld w 22 19
/-- See `input`. -/
def Slot.rate (w : Word) : Nat := fld w 18 16
/-- SETTLE in ticks. -/
def Slot.settle (w : Word) : Nat := fld w 15 8 * us
/-- See `input`. -/
def Slot.evt (w : Word) : Bool := bit w 7

/-- Fields of SEQ_CFG (05 Table 5-8). -/
def Seq.src (q : Seq) : Nat := fld q.cfg 26 24
/-- See `src`. -/
def Seq.policy (q : Seq) : Nat := fld q.cfg 23 22
/-- See `src`. -/
def Seq.scanEvt (q : Seq) : Bool := bit q.cfg 21
/-- See `src`. -/
def Seq.specN (q : Seq) : Nat := fld q.cfg 20 14
/-- See `src`. -/
def Seq.param (q : Seq) : Nat := fld q.cfg 13 6
/-- Number of slots. -/
def Seq.len (q : Seq) : Nat := fld q.cfg 5 0 + 1
/-- The slots in use. -/
def Seq.used (q : Seq) : List Word := q.slots.take q.len

/-- Fields of the rule registers (08 Tables 8-1 to 8-4). -/
def Rule.enable (r : Rule) : Bool := bit r.cond 31
/-- See `enable`. -/
def Rule.kind (r : Rule) : Nat := fld r.cond 29 27
/-- See `enable`. -/
def Rule.isLineSrc (r : Rule) : Bool := bit r.cond 26
/-- See `enable`. -/
def Rule.index (r : Rule) : Nat := fld r.cond 25 20
/-- See `enable`. -/
def Rule.invTrue (r : Rule) : Bool := bit r.cond 19
/-- See `enable`. -/
def Rule.qen (r : Rule) : Bool := bit r.qual 31
/-- See `enable`. -/
def Rule.qlevel (r : Rule) : Bool := bit r.qual 30
/-- See `enable`. -/
def Rule.qch (r : Rule) : Nat := fld r.qual 28 24
/-- See `enable`. -/
def Rule.hyst (r : Rule) : Nat := fld r.qual 23 0
/-- See `enable`. -/
def Rule.target (r : Rule) : Nat := fld r.act 31 27
/-- See `enable`. -/
def Rule.action (r : Rule) : Nat := fld r.act 26 24
/-- The rule's deadline in ticks: 0, or any value above 50, gives 50 µs. -/
def Rule.deadline (r : Rule) : Nat :=
  let d := fld r.act 23 16
  if d = 0 ∨ 50 < d then 50 * us else d * us
/-- See `enable`. -/
def Rule.value (r : Rule) : Nat := fld r.act 15 0
/-- The line of ACT LINE. -/
def Rule.line (r : Rule) : Nat := fld r.act 5 0

/-- A payload from (byte, length, value) fields, byte 16 first (07 Tables 7-7, 7-13). -/
def payload : List (Nat × Nat × Nat) → Nat
  | [] => 0
  | (b, n, v) :: fs => ((v % 256 ^ n) <<< (8 * (b - 16))) + payload fs

/-- Slots of a ring (07 Table 7-3): 16 × 2^SIZE. -/
def Ring.slots (r : Ring) : Nat := 16 * 2 ^ r.size

/-- Slot size of a stream ring in bytes (07 R257): BLOCK × 512, with 0 coding 32 units. -/
def blockBytes (b : Nat) : Nat := if b = 0 then 16384 else 512 * b

/-- Slots of a completion ring that stand reserved (07 R265); the other rings have none. -/
def Ring.kept (r : Ring) : Nat := if r.ty = 1 then r.reserved else 0

/-- Whether a device-written ring has `n` free slots beside those reserved (07 R260, R265). -/
def Ring.free (r : Ring) (n : Nat) : Bool := r.cons - r.prod + r.kept + n ≤ r.slots

/-- Size of a slot in bytes (07 R257). -/
def Ring.slotBytes (r : Ring) : Nat := if r.ty = 3 then blockBytes r.block else 32

/-- The PHASE bit of slot count `n` of a ring (07 R263): 1 in even passes. -/
def phaseBit (slots n : Nat) : Bool := n / slots % 2 = 0

/-- Slot `n` of ring number `r`: base + (n mod slots) × slot size, with the PHASE of its pass (07 R257, R263). -/
def Ring.slotAt (r : Nat) (n : Nat) (q : Ring) : SlotAt :=
  { ring := r, n := n, addr := q.baseHi * 2 ^ 32 + q.baseLo + n % q.slots * q.slotBytes, phase := phaseBit q.slots n }

/-- Enabled and free of error (RING_STAT.ACTIVE). -/
def Ring.active (r : Ring) : Bool := r.en && !r.err

/-- Slots that an event takes: a DETECTOR event is wide (07 R276). -/
def Event.slots (e : Event) : Nat := if e.kind = 0x0E then 2 else 1

/-- Order of event keys (02 Table 2-6): timestamp, tile, channel, then source sequence by signed 32-bit difference. -/
def keyLt (a b : Nat × Nat × Nat × Nat) : Bool :=
  if a.1 ≠ b.1 then a.1 < b.1
  else if a.2.1 ≠ b.2.1 then a.2.1 < b.2.1
  else if a.2.2.1 ≠ b.2.2.1 then a.2.2.1 < b.2.2.1
  else sext 32 (toField 32 ((a.2.2.2 : Int) - b.2.2.2)) < 0

/-- The key of an event. -/
def Event.key (e : Event) : Nat × Nat × Nat × Nat := (e.ts, e.tile, e.ch, e.seq)

/-- The first slot of an event as its 32 bytes, with PHASE `ph` (07 Table 7-12). -/
def Event.bytesAt (ph : Bool) (e : Event) : List Byte :=
  leBytes 8 e.ts ++ leBytes 8 (e.mseq % 2 ^ 56 + e.kind <<< 56) ++ leBytes 12 e.payload ++
    leBytes 4 (b2n ph <<< 31 + b2n e.late <<< 30 + e.tile <<< 25 + e.ch <<< 19 + e.seq % 65536)

/-- The continuation slot of a wide event, with PHASE `ph` (07 R276). -/
def Event.moreBytesAt (ph : Bool) (e : Event) : List Byte :=
  (List.range 4).flatMap (fun i => leBytes 4 (toField 32 (e.wide.getD i 0))) ++ leBytes 12 0 ++ leBytes 4 (b2n ph <<< 31)

/-- An event as the Archive keeps it (09 Table 9-13): the bytes of its slot with PHASE 0. -/
def Event.bytes (e : Event) : List Byte := e.bytesAt false

/-- Its continuation as the Archive keeps it. -/
def Event.moreBytes (e : Event) : List Byte := e.moreBytesAt false

/-- The DETAIL field of a completion (07 Table 7-11): REASON in bits 15:12, INDEX in bits 11:0. -/
def Completion.detail (c : Completion) : Nat := put 15 12 c.reason + put 11 0 c.index

/-- A completion as its 32 bytes, with PHASE `ph` (07 Table 7-8). -/
def Completion.bytes (ph : Bool) (c : Completion) : List Byte :=
  leBytes 8 c.ts ++ leBytes 4 c.tag ++ leBytes 1 c.opcode ++ leBytes 1 c.status ++
    leBytes 2 c.detail ++ leBytes 12 c.payload ++
    leBytes 4 (b2n ph <<< 31 + c.ring <<< 25 + c.cnt % 2 ^ 24)

/-- The overflow event as its 32 bytes, with PHASE `ph` (07 R277). -/
def overflowBytes (ph : Bool) (ts first last count : Nat) : List Byte :=
  leBytes 8 ts ++ leBytes 8 (first % 2 ^ 56 + 0x11 <<< 56) ++ leBytes 8 last ++ leBytes 4 count ++
    leBytes 4 (b2n ph <<< 31 + 16 <<< 25 + 32 <<< 19)

/-- The header of a stream block, with PHASE `ph` (07 Table 7-14). -/
def Block.header (ph : Bool) (b : Block) : List Byte :=
  let marks := b.samples.foldl (fun m x => m ||| fld x.2 31 26) 0
  leBytes 8 (toField 64 b.first) ++ leBytes 4 b.period ++ leBytes 2 b.samples.length ++ leBytes 2 b.ctx ++
    leBytes 8 b.bseq ++ leBytes 8 b.close ++
    leBytes 4 ((if b.dic then 8 else marks <<< 26) + b2n b.grid * 4 + b2n b.final * 2 + b2n b.dl) ++
    leBytes 4 b.lost ++ leBytes 4 b.delay ++ leBytes 2 b.src ++ leBytes 14 0 ++ leBytes 4 (b2n ph <<< 31)

/-- The samples of a stream block as bytes (07 R278). -/
def Block.body (b : Block) : List Byte :=
  b.samples.flatMap fun x => if b.grid then leBytes 4 x.2.toNat else leBytes 8 x.1 ++ leBytes 4 x.2.toNat

/-- The memory writes that a host sees, in their order (07 R254): a block's samples before its header, the continuation
of a wide event before its head. -/
def HostWrite.stores : HostWrite → List (Nat × List Byte)
  | .completion p c => [(p.addr, c.bytes p.phase)]
  | .event p q e => (match q with | some q => [(q.addr, e.moreBytesAt q.phase)] | none => []) ++ [(p.addr, e.bytesAt p.phase)]
  | .overflow p ts first last count => [(p.addr, overflowBytes p.phase ts first last count)]
  | .block p b => [(p.addr + 64, b.body), (p.addr, b.header p.phase)]
  | .cons _ addr n => [(addr, leBytes 8 n)]
  | .words addr ws => [(addr, ws.flatMap fun w => leBytes 4 w.toNat)]
  | .entries addr es => [(addr, es.flatten)]
  | .msix _ addr data => [(addr, leBytes 4 data.toNat)]

/-! ## Excitation at the pin (04 R139, R141, R143) -/

/-- The first quarter of the sine, for an angle of `a` quarter degrees up to 360, in 2^−30: its series with the angle in
2^−40 rad. -/
def sineQuarter (a : Nat) : Int :=
  let x : Int := (4797249133 : Int) * a
  let sq (y : Int) : Int := y * x / 2 ^ 40 * x / 2 ^ 40
  let t3 := sq x / 6
  let t5 := sq t3 / 20
  let t7 := sq t5 / 42
  let t9 := sq t7 / 72
  let t11 := sq t9 / 110
  let t13 := sq t11 / 156
  (x - t3 + t5 - t7 + t9 - t11 + t13) / 2 ^ 10

/-- The sine of an angle in quarter degrees, in 2^−30. -/
def sine (a : Nat) : Int :=
  let b := a % 1440
  if b ≤ 360 then sineQuarter b else if b ≤ 720 then sineQuarter (720 - b)
  else if b ≤ 1080 then -sineQuarter (b - 720) else -sineQuarter (1440 - b)

/-- The width and period in ticks of an EXP channel's pulses (04 Table 4-10). -/
def Chan.expWidth (ch : Chan) : Nat := fld ch.cfg 23 16 * (10 * us)
/-- See `expWidth`. -/
def Chan.expPeriod (ch : Chan) : Nat := fld ch.cfg 15 8 * (100 * us)

/-- FREQ of an EXS channel in Hz (04 Table 4-11). -/
def Chan.exsHz (ch : Chan) : Nat := 2500 * (fld ch.cfg 31 30 + 1)

/-- The phase of an EXS channel at a tick, in quarter degrees: 360° × FREQ × t from tick 0 (04 R141). -/
def Chan.exsPhase (ch : Chan) (now : Tick) : Nat := now * ch.exsHz * 1440 / sec % 1440

/-- What an excitation channel drives at a tick: a voltage pulse or a sine in µV, a current pulse in nA; 0 between pulses
(04 R139, R141). -/
def Chan.excPin (ch : Chan) (now : Tick) : Int :=
  match ch.mode with
  | .exp =>
    if now % max ch.expPeriod 1 < ch.expWidth then
      (if bit ch.cfg 31 then 20000 else 100000) * (fld ch.cfg 30 24 : Nat)
    else 0
  | .exs => 141421 * (fld ch.cfg 29 24 : Nat) * sine (ch.exsPhase now) / 2 ^ 30
  | _ => 0

/-- The sampling delay of a DMD channel after each edge of its pulsed source, in ticks: one not shorter than the pulse is
that width less 2 µs (04 Table 4-12). -/
def Chan.dmdDelay (ch src : Chan) : Nat :=
  let d := fld ch.cfg 5 0 * us
  if src.expWidth ≤ d then src.expWidth - 2 * us else d

end Sys2Proof.Machine
end

