-- ==== Sys2Proof/Machine/Flags.lean ====
section
/-!
DEFINITION. Computed state of a tile: groups and claims, the authority order, validity, CH_STAT and CH_DIAG, the heat
account, the excitation budget, the compliance rail, and the admission of a channel write.
-/
namespace Sys2Proof.Machine

/-- Channel `c` of a tile. -/
def Tile.chan (T : Tile) (c : Nat) : Chan := T.chans.getD c {}

/-- The leader whose PAR names DOP channel `c` (03 R99). -/
def Tile.leader (T : Tile) (c : Nat) : Option Nat :=
  if (T.chan c).mode ≠ .dop then none
  else if c % 2 = 1 ∧ (T.chan (c - 1)).groupN = 2 then some (c - 1)
  else if (T.chan (c - c % 4)).groupN = 4 then some (c - c % 4)
  else none

/-- The channel whose settings govern `c`: its leader, or itself. -/
def Tile.lead (T : Tile) (c : Nat) : Nat := (T.leader c).getD c

/-- The channels of the group that `c` leads, itself first. -/
def Tile.group (T : Tile) (c : Nat) : List Nat := (List.range (T.chan c).groupN).map (c + ·)

/-- The channel that claims `c` (04 R124). -/
def Tile.claimer (T : Tile) (c : Nat) : Option Nat :=
  if 1 ≤ c ∧ 1 ≤ (T.chan (c - 1)).claims then some (c - 1)
  else if 2 ≤ c ∧ 2 ≤ (T.chan (c - 2)).claims then some (c - 2)
  else none

/-- L+ MISSING or REVERSED. -/
def LState.gone : LState → Bool
  | .missing | .reversed => true
  | _ => false

/-- L+ LOW, MISSING or REVERSED: ratiometric inputs are invalid (03 R86). -/
def LState.weak : LState → Bool
  | .low | .missing | .reversed => true
  | _ => false

/-- LPLUS_STAT.STATE (03 Table 3-9). -/
def LState.code : LState → Nat
  | .normal => 0 | .low => 1 | .missing => 2 | .reversed => 3 | .high => 4

/-- Some safe-state scope applies to channel `c` (09 Table 9-8). -/
def Tile.safe (T : Tile) (c : Nat) : Bool :=
  T.saf.net || T.saf.wd || T.saf.blk || T.saf.off || (T.chan c).o.orphan

/-- A mirror's output period in ticks for a value `v` (04 R164, R165), and its high time. -/
def mirPeriod (ch : Chan) (pr : MirProf) (v : Nat) : Nat × Nat :=
  if ch.mirPwm then
    let p := pr.pwm * us
    let hi := (roundHalfEven ((p : Int) * v) 10000).toNat
    if hi < 20 * us then (p, 0) else if p - hi < 20 * us then (p, p) else (p, hi)
  else
    let p := (roundHalfEven (10000000000 : Int) (max v 1)).toNat
    (p, p / 2)

/-- OUT_LO or OUT_HI as used: values outside the range of ENC are used as the nearer limit (04 Table 4-22). -/
def mirOut (ch : Chan) (v : Nat) : Nat := if ch.mirPwm then clampNat 0 10000 v else clampNat 10 1000000 v

/-- The level of the running output period at tick `now`, as it was taken at its start (04 R164 to R166). -/
def mirWave (ch : Chan) (now : Tick) : Bool := (now - ch.m.mirPer) % max ch.m.mirPd 1 < ch.m.mirHi

/-- The level that a mirror at level 4 puts on its pin at tick `now`: generation, or ON_INVALID (04 R167). After a RELEASE
the pin is off until the period start at which generation resumes (R168; log 28). -/
def Tile.mirLevel (T : Tile) (c : Nat) (now : Tick) : Bool :=
  let ch := T.chan c
  if ch.m.mirGen then !ch.m.mirWait && mirWave ch now
  else match ch.onInvalid with
    | 0 => false
    | 1 => true
    | 2 => mirWave ch now
    | _ => if ch.m.mirHad then mirWave ch now else Config.mirNoLast now

/-- AOI value clamping of NAMUR (04 R151). -/
def namurClamp (ch : Chan) (v : Nat) : Nat :=
  if ch.mode = .aoi && bit ch.cfg 27 then
    if 3601 ≤ v ∧ v ≤ 3799 then 3800 else if 20501 ≤ v ∧ v ≤ 20999 then 20500 else v
  else v

/-- The authority level that sets the pin of an output channel (02 Table 2-7; 0 when none is active). -/
def Tile.auth (T : Tile) (c : Nat) : Nat :=
  let l := T.lead c
  let ch := T.chan l
  if !T.powered then 0
  else if ch.mode = .exp || ch.mode = .exs then (if ch.o.prot then 2 else 0)
  else if !ch.mode.isOut then 0
  else if T.safe l then 1
  else if ch.o.prot then 2
  else if ch.o.lvl3.isSome then 3
  else if ch.mode = .mir && ch.o.post.isNone then 4
  else 0

/-- The value of SAFE on an output channel in safe state (03 R112, 04 R158, R162): 0 while a protective action holds the
stage off. -/
def safeValue (ch : Chan) : Nat :=
  if ch.o.trip || ch.o.hot then 0
  else match ch.mode with
    | .dout | .mir => if fld ch.cfg 31 30 = 1 then 1 else if fld ch.cfg 31 30 = 2 then ch.o.hold else 0
    | .aoi | .aov =>
      match fld ch.cfg 31 29 with
      | 1 => ch.o.hold
      | 2 => 3500
      | 3 => 21500
      | 4 => if ch.mode = .aoi then fld ch.cfg 26 15 * 10 else fld ch.cfg 26 15 * 5
      | _ => 0
    | _ => 0

/-- The value that the authority order puts on an output channel at tick `now`: DO and MIR 0 or 1, AOI µA, AOV mV. After
a safe state the pin keeps its safe value (02 R70); an AOV stage in current limit keeps driving (04 Table 4-16). -/
def Tile.stage (T : Tile) (c : Nat) (now : Tick) : Nat :=
  let l := T.lead c
  let ch := T.chan l
  match T.auth c with
  | 1 => if ch.mode = .mir && fld ch.cfg 31 30 = 2 && ch.o.holdGen && !ch.o.trip && !ch.o.hot then b2n (T.mirLevel l now)
         else safeValue ch
  | 2 => if ch.mode = .aov && ch.diagP.testBit 2 && !ch.o.hot && !ch.o.latch then ch.o.lvl3.getD 0 else 0
  | 3 => namurClamp ch (ch.o.lvl3.getD 0)
  | 4 => b2n (T.mirLevel l now)
  | _ =>
    if ch.mode = .mir && fld ch.cfg 31 30 = 2 && ch.o.holdGen && ch.o.post.isSome then b2n (T.mirLevel l now)
    else if T.powered then ch.o.post.getD 0 else 0

/-- The stage is switched off electrically, or by a dark pulse. -/
def OutState.cut (o : OutState) (now : Tick) : Bool := o.elecOff || now < o.darkTill

/-- The value at the pin: the authority order's, while the stage is on. -/
def Tile.drive (T : Tile) (c : Nat) (now : Tick) : Nat :=
  if (T.chan (T.lead c)).o.cut now then 0 else T.stage c now

/-- The end of an analogue output's range in its code weight (04 Table 4-15). -/
def Chan.driveMax (ch : Chan) : Int := if ch.mode = .aoi then 4800000 else 5250000

/-- The driven value of an analogue output in its code weight, after trim and within its range (04 R150, R169). -/
def Tile.driveCodes (T : Tile) (c : Nat) (now : Tick) : Int :=
  let ch := T.chan c
  let k : Int := if ch.mode = .aoi then 200 else 500
  let v := T.drive c now
  let on := T.auth c = 3 && !ch.o.cut now
  if v = 0 && !on then 0 else
    clampInt 0 ch.driveMax (roundHalfEven (v * k * ch.trimGain) 4194304 + ch.trimOfs)

/-- The excitation source of a DMD channel is an admitted EXS or voltage-kind EXP channel (04 R143). -/
def Tile.excOk (T : Tile) (c : Nat) : Bool :=
  let x := T.chan (T.chan c).excCh
  x.mode = .exs || (x.mode = .exp && !bit x.cfg 31)

/-- The RATIO partner of a DMD channel qualifies (04 Table 4-12). -/
def Tile.partOk (T : Tile) (c : Nat) : Bool :=
  let a := T.chan c
  let b := T.chan a.part
  b.mode = .dmd && a.part ≠ c && b.excCh = a.excCh && b.ncyc = a.ncyc

/-- Validity of a channel: CH_STAT.VALID (03 Table 3-11, 04 R124, R176). -/
def Tile.valid (T : Tile) (c : Nat) : Bool :=
  let ch := T.chan c
  if ch.mode = .off then false
  else if ch.mode.isLvl then ch.valid
  else if ch.mode.isMeas then ch.m.has && ch.diagP &&& 221 = 0
  else true

/-- The condition of REF_LOST (04 R136, R143; 05 R186). -/
def Tile.refLost (T : Tile) (c : Nat) : Bool :=
  let ch := T.chan c
  ch.mode.isMeas &&
    (T.cv.refFault ||
      (ch.mode = .aitc && ch.cjc = 1 && !((T.chan ch.cjcCh).mode = .airtd && T.valid ch.cjcCh)) ||
      (ch.mode = .dmd && (!T.excOk c || (ch.isRatio && !T.partOk c))))

/-- A mirror source is in one of the modes of 04 R167 and valid. -/
def Tile.mirSrcOk (T : Tile) (c : Nat) : Bool :=
  let x := T.chan (T.chan c).mirSrc
  (x.mode.isMeas || x.mode = .dic) && T.valid (T.chan c).mirSrc

/-- CH_MODE as it reads (03 Table 3-1). -/
def Chan.modeWord (ch : Chan) : Word :=
  word (put 31 31 (b2n (ch.mode ≠ .off)) + put 30 28 ch.adm + put 9 8 ch.par + put 4 0 ch.mode.code)

/-- CH_DIAG as it reads (Tables 3-8, 4-20; 03 R97, R105). -/
def Tile.diagWord (T : Tile) (c : Nat) : Word :=
  let ch := T.chan c
  match ch.mode with
  | .di | .dic => word (put 15 0 ch.di.chatRate)
  | .dop =>
    let l := T.leader c
    let w := match l with
      | some k => ((T.chan k).diag &&& 0xF0000000#32).toNat
      | none => 0x70000000
    word (w + put 20 16 ch.partner + put 7 0 (match l with | some k => (T.chan k).o.retries | none => 0))
  | .dout | .mir => word (ch.diag.toNat + put 20 16 ch.partner + put 7 0 ch.o.retries)
  | .off | .trim => 0
  | _ => word (ch.diag.toNat + put 23 0 ch.readback)

/-- CH_STAT as it reads (03 Table 3-11). -/
def Tile.statWord (T : Tile) (c : Nat) (now : Tick) : Word :=
  let ch := T.chan c
  let l := T.chan (T.lead c)
  let lvl := if ch.mode.isLvl then b2n ch.di.level else if l.mode.isOut then b2n (l.o.lvl3.getD 0 ≠ 0) else 0
  word (put 31 31 (b2n (T.valid c)) + put 30 30 lvl + put 29 29 (b2n (T.drive c now ≠ 0)) + put 28 26 (T.auth c) +
    put 25 25 (b2n l.o.latch) + put 24 24 (b2n ch.clampP) + put 23 23 (b2n ch.clampL) + put 15 8 ch.diagL +
    put 7 0 ch.diagP)

/-- CR_SET in 0.1 V (04 R152); 0 with no analogue output admitted. -/
def Tile.crSet (T : Tile) : Nat :=
  if T.chans.any (fun c => c.mode.isAo) then
    let need := T.chans.foldl (fun m c =>
      if c.mode = .aoi then max m (240 * fld c.cfg 13 7) else if c.mode = .aov then max m 10500 else m) 0
    ceilDiv (max 6000 (need + 2000)) 100
  else 0

/-- A channel's heat account terms, each rounded up to 0.1 mW (03 R120, Table 3-13). -/
def Tile.heatTerm (T : Tile) (ch : Chan) : Nat :=
  match ch.mode with
  | .di | .dic => if bit ch.cfg 29 then 37 else 151
  | .dout =>
    let i := ch.iDecl
    let e := fld ch.cfg 17 9
    let n := ch.groupN
    (if n = 1 then ceilDiv (8 * i * i) 1000 else ceilDiv (88 * i * i) (10000 * n)) +
      (if bit ch.cfg 28 then 0 else ceilDiv (e * fld ch.cfg 8 0) 6) +
      (if ch.tpEn && 0 < e then ceilDiv (240 * i * T.tpWidth) (100000 * T.tpPeriod) else 0)
  | .mir => ceilDiv (8 * ch.iDecl * ch.iDecl) 1000
  | .aii => 300
  | .aoi => ceilDiv (24 * (100 * T.crSet - 240 * fld ch.cfg 6 0) + 360 * T.crSet) 100
  | .aov =>
    let i := fld ch.cfg 14 7
    ceilDiv (100 * i * (T.crSet - fld ch.cfg 6 0) + 15 * i * T.crSet) 1000
  | _ => 0

/-- The account total in 0.1 mW (03 R120): 20.0 mW fixed, and one term per channel. -/
def Tile.heat (T : Tile) : Nat := T.chans.foldl (fun n ch => n + T.heatTerm ch) 200

/-- A channel's excitation budget term in µW (04 Table 4-9). -/
def excTerm (ch : Chan) : Nat :=
  match ch.mode with
  | .exp =>
    let a := fld ch.cfg 30 24
    let w := fld ch.cfg 23 16
    let p := fld ch.cfg 15 8
    if bit ch.cfg 31 then ceilDiv (10 * a * w) p else ceilDiv (50 * a * a * w) (fld ch.cfg 7 0 * p)
  | .exs => let a := fld ch.cfg 29 24; ceilDiv (500 * a * a) (fld ch.cfg 23 16)
  | .airtd | .aires => if ch.range = 0 then 420 else if ch.range = 1 then 168 else 11
  | _ => 0

/-- The committed excitation budget in µW (04 R137). -/
def Tile.exc (T : Tile) : Nat := T.chans.foldl (fun n ch => n + excTerm ch) 0

/-- Admitted channels of a tile that satisfy `f`. -/
def Tile.countBy (T : Tile) (f : Chan → Bool) : Nat := (T.chans.filter f).length

/-- Whether a slot of an armed sequence names channel `c` (05 R190). -/
def Tile.slotted (T : Tile) (c : Nat) : Bool :=
  T.seqs.any fun q => q.active && q.used.any fun w => Slot.input w = c

/-- Bad parameters of a CH_CFG layout (03 R81; 04 Tables 4-4, 4-10, 4-11, 4-12, 4-14, 4-17, R124). -/
def Tile.badCfg (T : Tile) (c : Nat) (ch : Chan) : Bool :=
  let w := ch.cfg
  match ch.mode with
  | .di => fld w 31 30 = 3 || 6 ≤ fld w 14 12
  | .dic => fld w 31 30 = 3 || 6 ≤ fld w 14 12 || fld w 11 0 = 0
  | .dout =>
    fld w 31 30 = 3 || 250 * ch.groupN < fld w 27 18 || (!bit w 28 && 100 * ch.groupN < fld w 17 9) ||
      (ch.par = 1 && c % 2 = 1) || (ch.par = 2 && c % 4 ≠ 0)
  | .aiv => 3 < ch.range || (ch.wire ≠ 0 && ch.wire ≠ 2) || 31 < c + ch.claims
  | .aii => 1 < ch.range || ch.wire ≠ 0
  | .airtd => 1 < ch.range || ch.wire = 3 || 31 < c + ch.claims || fld w 15 8 < 4 || 200 < fld w 15 8
  | .aires => 2 < ch.range || ch.wire = 3 || 31 < c + ch.claims || fld w 15 8 < 4 || 200 < fld w 15 8
  | .aitc =>
    6 < ch.range || (ch.wire ≠ 0 && ch.wire ≠ 2) || 31 < c + ch.claims || fld w 7 0 = 0 || ch.cjc = 3 ||
      (ch.cjc = 1 && !((T.chan ch.cjcCh).mode = .airtd && (T.chan ch.cjcCh).lin))
  | .aoi => 4 < fld w 31 29 || 2400 < fld w 26 15 || 115 < fld w 13 7 || fld w 13 7 < fld w 6 0
  | .aov =>
    !(fld w 31 29 = 0 || fld w 31 29 = 1 || fld w 31 29 = 4) || 2100 < fld w 26 15 || fld w 14 7 = 0 ||
      200 < fld w 14 7 || 105 < fld w 6 0
  | .exp =>
    let a := fld w 30 24
    a = 0 || (if bit w 31 then 100 else 50) < a || fld w 23 16 = 0 || fld w 15 8 = 0 ||
      5 * fld w 15 8 < fld w 23 16 || fld w 7 0 = 0
  | .exs => fld w 29 24 < 5 || 20 < fld w 29 24 || fld w 23 16 = 0
  | .dmd => 359 < fld w 20 12 || ch.ncyc = 0 || fld w 5 0 = 0
  | .mir => fld w 31 30 = 3 || ch.mirSrc = c || 250 < fld w 9 0
  | _ => false

/-- Group and claim conflicts of a write that leaves channel `c` as `ch`, from the tile before it (03 R99, R124; 04
Table 4-2; 05 R190). `modeReg` says that the write is to CH_MODE, `cfgReg` that it reaches CH_MODE or CH_CFG. -/
def Tile.conflict (T : Tile) (c : Nat) (ch : Chan) (modeReg cfgReg : Bool) : Bool :=
  let old := T.chan c
  (ch.mode = .dout && (List.range ch.groupN).any fun k => k ≠ 0 && (T.chan (c + k)).mode ≠ .dop) ||
    (modeReg && ch.mode ≠ old.mode && (T.leader c).isSome) ||
    (modeReg && (T.claimer c).isSome) ||
    ((List.range (ch.claims + 1)).any fun k => k ≠ 0 && (T.chan (c + k)).mode ≠ .off) ||
    (cfgReg && T.slotted c) ||
    (ch.mode = .exs && (T.chans.zipIdx).any fun x => x.2 ≠ c && x.1.mode = .exs && fld x.1.cfg 31 30 ≠ fld ch.cfg 31 30)

/-- Per-tile limits of 04 Table 4-2, and the excitation budget of R137, of the tile after a write. -/
def Tile.overLimit (T T' : Tile) : Bool :=
  let ovr (n : Nat) (f : Chan → Bool) := n < T'.countBy f && T.countBy f < T'.countBy f
  ovr 8 (fun x => x.mode.isAo) || ovr 4 (fun x => x.mode = .exs) || ovr 8 (fun x => x.mode = .exp) ||
    ovr 8 (fun x => x.mode.isRes) || (10000 < T'.exc && T.exc ≤ T'.exc)

/-- The ADM code of a channel write from the tile before it (`T`) and after it (`T'`), in the order of 03 R82.
`txn` says that R431 refuses it. -/
def Tile.admCode (T T' : Tile) (c : Nat) (modeReg cfgReg txn : Bool) : Nat :=
  let ch := T'.chan c
  if T.badCfg c ch || (ch.mode ≠ .dout && ch.par ≠ 0) then 3
  else if txn || T.conflict c ch modeReg cfgReg then 4
  else if T.overLimit T' then 2
  else if 6000 < T'.heat && T.heat ≤ T'.heat then 1
  else 0

end Sys2Proof.Machine
end

