-- ==== Sys2Proof/Machine/Ops.lean ====
section
/-!
DEFINITION. The named operations over the state: time, access to tiles, channels, ports and rings, ownership and lock
as they stood before the tick, events at their sources, fault records, the safe-state net, ring writes, completions,
the merge, the Archive and the persistent log, and the store die's memory.
-/
namespace Sys2Proof.Machine

/-! ## Access -/

/-- Tile `t`. -/
def State.tile (s : State) (t : Nat) : Tile := s.tiles.getD t {}
/-- Channel c of tile t. -/
def State.chan (s : State) (t c : Nat) : Chan := (s.tile t).chan c
/-- Tile `t` replaced by its image under `f`. -/
def State.modTile (t : Nat) (f : Tile → Tile) (s : State) : State := { s with tiles := updAt f t s.tiles }
/-- Channel `c` of a tile replaced. -/
def Tile.modChan (c : Nat) (f : Chan → Chan) (T : Tile) : Tile := { T with chans := updAt f c T.chans }
/-- Channel c of tile t replaced. -/
def State.modChan (t c : Nat) (f : Chan → Chan) (s : State) : State := s.modTile t (Tile.modChan c f)
/-- A host port. -/
def State.port (s : State) : PortId → Port
  | .ha => s.ha
  | .hb => s.hb
/-- A host port replaced. -/
def State.modPort (p : PortId) (f : Port → Port) (s : State) : State :=
  match p with
  | .ha => { s with ha := f s.ha }
  | .hb => { s with hb := f s.hb }
/-- Ring `r` of a port. -/
def Port.ring (p : Port) (r : Nat) : Ring := p.rings.getD r {}
/-- Ring `r` of a port replaced. -/
def Port.modRing (r : Nat) (f : Ring → Ring) (p : Port) : Port := { p with rings := updAt f r p.rings }
/-- Sequence `n` of a tile. -/
def Tile.seq (T : Tile) (n : Nat) : Seq := T.seqs.getD n {}
/-- Sequence `n` of tile `t` replaced. -/
def State.modSeq (t n : Nat) (f : Seq → Seq) (s : State) : State :=
  s.modTile t fun T => { T with seqs := updAt f n T.seqs }
/-- Converter control of tile `t` replaced. -/
def State.modCv (t : Nat) (f : ConvUnit → ConvUnit) (s : State) : State := s.modTile t fun T => { T with cv := f T.cv }
/-- Link of tile `t` replaced. -/
def State.modLink (t : Nat) (f : Link → Link) (s : State) : State := s.modTile t fun T => { T with link := f T.link }
/-- Safe-state scopes of tile `t` replaced. -/
def State.modSaf (t : Nat) (f : Safety → Safety) (s : State) : State := s.modTile t fun T => { T with saf := f T.saf }
/-- Output state of a channel replaced. -/
def State.modOut (t c : Nat) (f : OutState → OutState) (s : State) : State := s.modChan t c fun x => { x with o := f x.o }
/-- Measuring state of a channel replaced. -/
def State.modMeas (t c : Nat) (f : MeasState → MeasState) (s : State) : State :=
  s.modChan t c fun x => { x with m := f x.m }
/-- Pipeline `p`. -/
def State.pipe (s : State) (p : Nat) : Pipe := s.pipes.getD p {}
/-- Context `c` of pipeline `p`. -/
def State.ctx (s : State) (p c : Nat) : Ctx := (s.pipe p).ctxs.getD c {}
/-- Context `c` of pipeline `p` replaced. -/
def State.modCtx (p c : Nat) (f : Ctx → Ctx) (s : State) : State :=
  { s with pipes := updAt (fun P => { P with ctxs := updAt f c P.ctxs }) p s.pipes }
/-- Serial port `n` replaced. -/
def State.modSp (n : Nat) (f : SPort → SPort) (s : State) : State := { s with sps := updAt f n s.sps }
/-- Engine `n`. -/
def State.engine (s : State) (n : Nat) : Engine := s.engines.getD n {}
/-- Engine `n` replaced. -/
def State.modEngine (n : Nat) (f : Engine → Engine) (s : State) : State := { s with engines := updAt f n s.engines }
/-- Fault block `k`. -/
def State.blk (s : State) (k : Nat) : FBlk := s.blks.getD k { srcs := [] }
/-- Fault block `k` replaced. -/
def State.modBlk (k : Nat) (f : FBlk → FBlk) (s : State) : State := { s with blks := updAt f k s.blks }
/-- A source of a fault block. -/
def FBlk.src (b : FBlk) (i : Nat) : Src := b.srcs.getD i {}
/-- A source of a fault block replaced. -/
def State.modSrc (k i : Nat) (f : Src → Src) (s : State) : State :=
  s.modBlk k fun b => { b with srcs := updAt f i b.srcs }

/-- A deadline fault records its final lateness `x` when its late job completes, where it is still the source's latest
occurrence (02 R78). -/
def State.lateness (k i idx x : Nat) (s : State) : State :=
  s.modSrc k i fun f => if f.latched && f.index = idx then { f with aux := sat 0xFFFFFFFF x } else f

/-- Every `f i s`, for each `i` of the list in order. -/
def forAll {α : Type} (f : α → State → State) : List α → State → State
  | [], s => s
  | x :: xs, s => forAll f xs (f x s)

/-! ## Time -/

/-- The hub count advances to the tick of a happening and never decreases (02 R50); it stands while the device does
not run. -/
def State.advance (τ : Tick) (s : State) : State :=
  if s.power = .running then { s with now := max s.now τ } else s

/-- Ownership of a resource as a command of the present tick sees it: as it stood before this tick's changes
(07 R282). -/
def State.owner (s : State) (cls i : Nat) : Option PortId :=
  let o := if s.own.tick = some s.now then s.own.start else s.own.tab
  ((o.getD cls []).getD i none)

/-- SETUP_LOCK as anything but LOCK sees it in the present tick (14 R446). -/
def State.lockNow (s : State) : LockSt := if s.lock.chg = some s.now then s.lock.start else s.lock.toLockSt

/-- The lock is set, as anything but LOCK sees it. -/
def State.locked (s : State) : Bool := s.lockNow.locked

/-- PHASE reads COMPLETE. -/
def State.complete (s : State) : Bool := s.start.phase = .complete

/-- RWL fields accept a write (14 R442, 12 R419). -/
def State.rwl (s : State) : Bool := !s.locked && s.complete

/-- One idle tick of the hub count. A follower that corrects an offset gains or omits one tick in 5,000 (02 R55), and while SYNC
is lost the correction in force does not end (R57). -/
def State.tickOn (s : State) : State :=
  let b := s.tb
  if s.power ≠ .running then s
  else if b.mode = 1 && b.slewLeft ≠ 0 then
    if b.slewCnt < 4999 then { s with now := s.now + 1, tb := { b with slewCnt := b.slewCnt + 1 } }
    else { s with now := if 0 < b.rate then s.now + 2 else s.now, tb := { b with slewCnt := 0, slewLeft := if b.noEdge then b.slewLeft else b.slewLeft - 1 } }
  else { s with now := s.now + 1, tb := { b with slewCnt := min 4999 (b.slewCnt + 1) } }

/-! ## Events at their sources -/

/-- The tile has no link to the hub: no healthy lane, or no power. -/
def Tile.lost (T : Tile) : Bool := !T.powered || T.link.laneOk = 0

/-- The tile's copy of the timebase (02 R51): the hub count and the copy's offset. While the link is lost the copy runs on
alone from its last offset, at the free rate of its oscillator within 1 tick in 10,000; with a link an offset left from
the loss is slewed by one tick in 5,000 until it lies within two ticks. -/
def State.tnow (t : Nat) (s : State) : Tick :=
  let T := s.tile t
  let L := T.link
  let e : Int := s.now - L.ofsAt
  let o := if T.lost then L.ofs + e * clampInt (-100) 100 (Config.tileRate t L.ofsAt) / 1000000
    else if 0 ≤ L.ofs then max (min L.ofs 2) (L.ofs - e / 5000) else min (max L.ofs (-2)) (L.ofs + e / 5000)
  (s.now + o).toNat

/-- The tick at which fault block `k` detects what happens now: its tile's copy, or the hub count (02 R58, R78). -/
def State.bnow (k : Nat) (s : State) : Tick := if 35 ≤ k ∧ k ≤ 50 then s.tnow (k - 35) else s.now

/-- The hub cannot know what block `k` records now: its tile's link is lost (01 R38, 09 R329). -/
def State.unseen (k : Nat) (s : State) : Bool := 35 ≤ k && k ≤ 50 && (s.tile (k - 35)).lost

/-- Bytes of the link result buffer (01 R38), and of its items: an event of 32 (07 R275), a result of 16 (05 R213). -/
def linkBytes : Nat := 16384

/-- See `linkBytes`. -/
def LinkItem.bytes : LinkItem → Nat
  | .ev _ => 32
  | .res _ => 16

/-- Bytes that a tile's link traffic takes in the buffer. -/
def Link.used (L : Link) : Nat := L.sendQ.foldl (fun n x => n + x.bytes) 0

/-- A hub event with the hub's next source sequence number, on its way to the merge (02 R58, R60). -/
def State.emitHubAt (ts kind pl : Nat) (wide : List Int) (toPorts : Bool) (s : State) : State :=
  let e : Event := { ts := ts, kind := kind, tile := 16, ch := 32, payload := pl, wide := wide, toPorts := toPorts,
                     seq := s.merge.hubSeq }
  { s with merge := { s.merge with hubOut := s.merge.hubOut ++ [e], hubSeq := (s.merge.hubSeq + 1) % 2 ^ 32 } }

/-- A hub event stamped with the hub count. -/
def State.emitHub (kind pl : Nat) (s : State) : State := s.emitHubAt s.now kind pl [] true

/-! ## Fault records -/

/-- Reaction bits of a five-bit field: INT 16, NMI 8, BLK 4, CHIP 2, ALV 1 (09 Table 9-1). -/
def reactMask (k : Nat) : Nat := if k = 18 then 19 else if k = 53 ∨ k = 54 then 27 else 31

/-- Mandatory reactions of a class (09 Table 9-3). -/
def mandatory (c : Nat) : Nat := if c = 3 then 16 else if 4 ≤ c then 17 else 0

/-- Whether an occurrence of native class `c` in source `i` is escalated (09 R335, R338). -/
def FBlk.escalates (b : FBlk) (i c : Nat) : Bool :=
  i ≠ 15 && 1 ≤ c && c ≤ 3 &&
    b.srcs.zipIdx.any fun x => x.2 ≠ i && x.2 ≠ 15 && x.1.latched && x.1.clsNow = c

/-- The reactions taken at an occurrence (09 R331), with its effective class and whether it was escalated. -/
def FBlk.judge (b : FBlk) (k i : Nat) : Nat × Bool × Nat :=
  let src := b.src i
  let up := b.escalates i src.cls
  let c := if up then src.cls + 1 else src.cls
  let esc := if up then (if c = 2 then b.esc2 else if c = 3 then b.esc3 else b.esc4) else 0
  (c, up, (src.react ||| mandatory c ||| esc) &&& reactMask k)

/-- An occurrence as its source records it (09 R327). -/
def Src.occur (x : Src) (cls : Nat) (up : Bool) (taken : Nat) (τ : Tick) (ch idx code aux : Nat) : Src :=
  { x with present := true, latched := true, clsNow := cls, escalated := up, taken := taken,
           count := if x.latched then satInc 0xFFFF x.count else 1,
           first := if x.latched then x.first else τ, last := τ, ch := ch, index := idx, code := code, aux := aux }

/-- FAULT event payload (09 Table 9-7). -/
def faultPayload (k i cls taken action idx code aux : Nat) (up nosrc : Bool) : Nat :=
  payload [(16, 1, k), (17, 1, i % 16 + 64 * b2n nosrc + 128 * b2n up), (18, 1, cls % 8 + 8 * taken), (19, 1, action),
    (20, 2, idx), (22, 2, code), (24, 4, aux)]

/-- Some source of effective class 3 or 4 is latched, as a cause of the safe-state net (09 R343); `g` bounds the class
from below. -/
def State.latchedFrom (s : State) (g : Nat) : Bool :=
  s.blks.any fun b => b.srcs.any fun x => x.latched && g ≤ x.clsNow

/-- The safe-state net is asserted (09 R343). -/
def State.net (s : State) : Bool := !s.dev.fsafe || s.dev.grave || s.latchedFrom 3

/-- The value that each output of a tile holds when a safe state begins (09 R342, 03 R112): nothing changes for a
channel that is already in one. -/
def Tile.capture (T : Tile) (now : Tick) : Tile :=
  { T with chans := mapFrom (fun c ch =>
      if ch.mode.isOut && !T.safe c then
        let v := if ch.o.elecOff then 0 else T.stage c now
        { ch with o := { ch.o with hold := v, holdGen := ch.mode = .mir && (T.auth c = 4 || ch.o.holdGen), trip := false } }
      else ch) 0 T.chans }

/-- A scope's flag set on a tile, with the values to hold captured first. -/
def State.enterScope (t : Nat) (f : Safety → Safety) (s : State) : State :=
  (s.modTile t fun T => T.capture (s.tnow t)).modSaf t f

/-- Level 3 is cleared on every channel that no scope holds any more, and its pin stays at the safe value (02 R70). -/
def Tile.leaveSafe (before T : Tile) : Tile :=
  { T with chans := mapFrom (fun c ch =>
      if ch.mode.isOut && before.safe c && !T.safe c then
        { ch with o := { ch.o with lvl3 := none, trip := false, post := some (safeValue ch), holdGen := ch.o.holdGen && !ch.o.trip } }
      else ch) 0 T.chans }

/-- A scope's flag cleared on a tile, with level 3 cleared where the safe state ends. -/
def State.leaveScope (t : Nat) (f : Safety → Safety) (s : State) : State :=
  s.modTile t fun T => Tile.leaveSafe T { T with saf := f T.saf }

/-- Source (k, i)'s latest occurrence as the cause of a safe state. -/
def State.causeOf (k i : Nat) (s : State) : Cause :=
  let x := (s.blk k).src i
  { k := k, i := i, cls := x.clsNow, ix := x.index, code := x.code, up := x.escalated }

/-- The payload of a safe-state event with this cause (09 R341). -/
def Cause.payload (action scope : Nat) (c : Cause) : Nat := faultPayload c.k c.i c.cls 0 action c.ix c.code scope c.up c.nosrc

/-- The event of the device scope, at entry (action 3) or exit (4), with its cause (09 R341). -/
def State.netEvent (action : Nat) (s : State) : State :=
  s.emitHub 0x10 (s.dev.netCause.payload action 3)

/-- Tile numbers. -/
def tileNos : List Nat := List.range 16

/-- The safe-state net is asserted by cause (k, i): scope 3 at every tile with a healthy lane (09 R341, R343). -/
def State.assertNet (k i : Nat) (s : State) : State :=
  if s.dev.netOn then s
  else
    let s := { s with dev := { s.dev with netOn := true, netCause := s.causeOf k i } }
    (forAll (fun t s => if (s.tile t).lost then s else s.enterScope t fun f => { f with net := true }) tileNos s).netEvent 3

/-- The address of an MSI-X table entry. -/
def Msix.addr (m : Msix) : Nat := m.addrHi.toNat * 2 ^ 32 + m.addrLo.toNat

/-- An MSI-X message: the data of its table entry written to the entry's address, unless the vector or the function is
masked: then it is pending (07 R291). -/
def State.msix (p : PortId) (v : Nat) (s : State) : State :=
  s.modPort p fun P =>
    let m := P.msix.getD v {}
    if P.live && P.cs.msixOn then
      if bit m.ctl 0 || P.cs.funcMask then { P with pba := updAt (fun _ => true) v P.pba }
      else { P with out := P.out ++ [.msix v m.addr m.data] }
    else P

/-- An interrupt of fault block `k` at one port: at most one message in 100 µs (09 R332), and none while the block's tile
has lost its link: it is owed. -/
def State.faultMsi (k : Nat) (p : PortId) (s : State) : State :=
  let b := s.blk k
  let (sent, v) := match p with
    | .ha => (b.sentHa, b.vecHa)
    | .hb => (b.sentHb, b.vecHb)
  if !(s.port p).live then s
  else if s.unseen k || (match sent with | some x => decide (s.now < x + 100 * us) | none => false) then
    s.modBlk k fun b => match p with
      | .ha => { b with owedHa := true }
      | .hb => { b with owedHb := true }
  else
    (s.modBlk k fun b => match p with
      | .ha => { b with owedHa := false, sentHa := some s.now }
      | .hb => { b with owedHb := false, sentHb := some s.now }).msix p v

/-- The persistent log header receives the grave record (09 R339, Table 9-14), and running serial frames end (11 R402). -/
def State.graveRecord (s : State) : State :=
  { s with per := { s.per with plog := { s.per.plog with graveRec := true } },
           sps := s.sps.map fun p => { p with cur := p.cur.map fun f => { f with abortAt := some (f.abortAt.getD s.now) } } }

/-- The occurrence recorded, its interrupt, the net and the grave hold; no FAULT event of its own yet. Reactions NMI,
BLK and CHIP are left in `todo`. Gives the event's payload and whether it reaches the ports. -/
def State.record (k i ch idx code aux : Nat) (τ : Tick) (s : State) : State × Nat × Bool :=
  let b := s.blk k
  let (cls, up, taken) := b.judge k i
  let s := s.modSrc k i fun x => x.occur cls up taken τ ch idx code aux
  let s := if taken &&& 16 ≠ 0 then (s.faultMsi k .ha).faultMsi k .hb else s
  let s := if taken &&& 14 ≠ 0 ∨ (k ≤ 17 ∧ 2 ≤ cls) then
      { s with dev := { s.dev with todo := s.dev.todo ++ [(k, i, taken)] } } else s
  let s := if 3 ≤ cls then s.assertNet k i else s
  let s := if 4 ≤ cls ∧ !s.dev.grave then
      ({ s with dev := { s.dev with grave := true } }.graveRecord).emitHub 0x10
        (faultPayload k i cls 0 5 idx code aux up false) else s
  (s, faultPayload k i cls taken 0 idx code aux up false, taken &&& 16 ≠ 0)

/-- An item into a tile's link traffic. From the loss of the link until its buffer is empty the 16 KiB buffer holds it, or
it is discarded and counted, with a NOTICE at the first discard since the buffer last emptied (01 R38, R39). The
NOTICE's INDEX, for which Table 9-5 names no meaning that fits, is 0 (log 12). -/
def State.linkPush (t : Nat) (x : LinkItem) (s : State) : State :=
  let T := s.tile t
  let count (n : Nat) (ev : Bool) (L : Link) : Link :=
    if ev then { L with dropEv := sat 0xFFFF (L.dropEv + n) } else { L with dropRes := sat 0xFFFF (L.dropRes + n) }
  if !T.powered then s
  else if (T.lost || T.link.buffered) && linkBytes < T.link.used + x.bytes then
    let ev := match x with | .ev _ => true | .res _ => false
    let s := s.modLink t (count 1 ev)
    if T.link.dropping then s
    else
      let (s, _, _) := s.record (35 + t) 12 32 0 (Config.noticeKind 1) 0 (s.tnow t)
      s.modLink t fun L => { count 1 true L with dropping := true }
  else s.modLink t fun L => { L with sendQ := L.sendQ ++ [x] }

/-- An event of channel `c` (32: the tile as a whole) with timestamp `ts` and its source sequence number. -/
def State.emitAt (t c ts kind pl : Nat) (toPorts : Bool) (s : State) : State :=
  let T := s.tile t
  let e : Event := { ts := ts, kind := kind, tile := t, ch := c, payload := pl, toPorts := toPorts,
                     seq := T.evSeq.getD c 0 }
  (s.modTile t fun T => { T with evSeq := updAt (fun n => (n + 1) % 2 ^ 32) c T.evSeq }).linkPush t (.ev e)

/-- An event of a channel at the present tick of its tile. -/
def State.emit (t c kind pl : Nat) (s : State) : State := s.emitAt t c (s.tnow t) kind pl true

/-- An occurrence of source `i` of block `k` (09 R327), detected now, with its FAULT event. `ch` is the channel of a
channel source, 32 otherwise. -/
def State.raiseCh (k i ch idx code aux : Nat) (s : State) : State :=
  let τ := s.bnow k
  let (s, pl, ports) := s.record k i ch idx code aux τ
  if 35 ≤ k ∧ k ≤ 50 then s.emitAt (k - 35) ch τ 0x10 pl ports else s.emitHubAt τ 0x10 pl [] ports

/-- An occurrence that belongs to no channel. -/
def State.raise (k i idx code aux : Nat) (s : State) : State := s.raiseCh k i 32 idx code aux

/-- PRESENT of a condition source ends, with its event (09 R327, R340). -/
def State.endPresent (k i : Nat) (s : State) : State :=
  let x := (s.blk k).src i
  if x.present then
    let s := s.modSrc k i fun x => { x with present := false }
    let pl := faultPayload k i x.clsNow x.taken 1 x.index x.code x.aux x.escalated false
    let ports := x.taken &&& 16 ≠ 0
    if 35 ≤ k ∧ k ≤ 50 then s.emitAt (k - 35) x.ch (s.tnow (k - 35)) 0x10 pl ports else s.emitHubAt s.now 0x10 pl [] ports
  else s

/-- A class 0 notice of a tile (Table 9-5 NOTICE), by its happening. -/
def State.notice (t ch idx kind : Nat) (s : State) : State := s.raiseCh (35 + t) 12 ch idx (Config.noticeKind kind) 0

/-- A safe-state event of a tile (09 R341): scope 0 to 2, entered (3) or left (4), with its cause. -/
def State.scopeEvent (t action scope : Nat) (c : Cause) (s : State) : State :=
  s.emitAt t 32 (s.tnow t) 0x10 (c.payload action scope) true

/-- The safe-state net's device scope ends at one tick for every tile (09 R344): no cause holds and FSAFE_N has been
high for 1 ms. -/
def State.endNet (s : State) : State :=
  if s.dev.netOn && !s.net && s.dev.highSince + ms ≤ s.now then
    (forAll (fun t s => s.leaveScope t fun f => { f with net := false }) tileNos
      { s with dev := { s.dev with netOn := false } }).netEvent 4
  else s

/-! ## Rings -/

/-- The port may write its rings. -/
def State.portRuns (s : State) (p : PortId) : Bool := (s.port p).enable && (s.port p).live && !s.dev.grave

/-- The write of ring `r`'s count to its CONS word of the doorbell page (07 Table 7-4, R261). -/
def Port.consWrite (P : Port) (r : Nat) : HostWrite :=
  .cons r (P.dbHi * 2 ^ 32 + P.dbLo + 0x200 + 8 * r) (P.ring r).cons

/-- `n` slots written to ring `r`: the entries, then its count with its CONS word, and its unsignalled mark (07 R261,
R291). -/
def Port.wrote (r n : Nat) (ws : List HostWrite) (P : Port) : Port :=
  let P := P.modRing r fun q => { q with cons := q.cons + n, unsig := true }
  { P with out := P.out ++ ws ++ [P.consWrite r] }

/-- The slot that ring `r` writes next, and the one after it. -/
def Port.slot (P : Port) (r : Nat) : SlotAt := (P.ring r).slotAt r (P.ring r).cons
/-- See `slot`. -/
def Port.slot2 (P : Port) (r : Nat) : SlotAt := (P.ring r).slotAt r ((P.ring r).cons + 1)

/-- The port's active event ring. -/
def Port.evRing (P : Port) : Option Nat := P.rings.findIdx? fun q => q.active && q.ty = 2

/-- The event, when the event ring has room for it, written to it; none when it has not (07 R260, R293). -/
def Port.putEvent (runs : Bool) (e : Event) (P : Port) : Option Port :=
  match P.evRing with
  | some r =>
    if runs && (P.ring r).free e.slots then some (P.wrote r e.slots
      [.event (P.slot r) (if e.slots = 2 then some (P.slot2 r) else none) e]) else none
  | none => none

/-- Staged entries in use (07 R276). -/
def staged (es : List Event) : Nat := es.foldl (fun n e => n + e.slots) 0

/-- Staged events written while slots are free. -/
def Port.drain (runs : Bool) : List Event → Port → Port
  | [], P => { P with staging := [] }
  | e :: es, P =>
    match P.putEvent runs e with
    | some P => Port.drain runs es P
    | none => { P with staging := e :: es }

/-- A slot became free: first one overflow event for what was dropped, then the staged events in order (02 R66, 07
R277). -/
def Port.pump (runs : Bool) (now : Tick) (P : Port) : Port :=
  match P.evRing with
  | none => P
  | some r =>
    if 0 < P.dropCnt then
      if runs && (P.ring r).free 1 then
        let P' := P.wrote r 1 [.overflow (P.slot r) now P.dropFirst P.dropLast (sat 0xFFFFFFFF P.dropCnt)]
        let P' := P'.modRing r fun q => { q with lost := sat 0xFFFF (q.lost + P.dropCnt) }
        Port.drain runs P.staging { P' with dropCnt := 0 }
      else P
    else Port.drain runs P.staging P

/-- A released event for this port (02 R65, R66; 07 R274, R277). -/
def Port.deliver (runs : Bool) (e : Event) (P : Port) : Port :=
  if P.subSrc.testBit e.tile && P.subKind.testBit e.kind && e.toPorts then
    let direct := if P.staging.isEmpty && P.dropCnt = 0 then P.putEvent runs e else none
    match direct with
    | some P => P
    | none =>
      if P.dropCnt = 0 ∧ staged P.staging + e.slots ≤ 2048 then { P with staging := P.staging ++ [e] }
      else { P with dropCnt := P.dropCnt + 1, dropLast := e.mseq,
                    dropFirst := if P.dropCnt = 0 then e.mseq else P.dropFirst }
  else P

/-- A completion for ring `cq`: written when the ring runs and has a slot, kept while it is full, discarded when no such
ring is enabled (07 R258, R265, R293). -/
def Port.complete (runs : Bool) (cq : Nat) (c : Completion) (P : Port) : Port :=
  let q := P.ring cq
  if runs && q.active && q.ty = 1 then
    if q.free 1 then P.wrote cq 1 [.completion (P.slot cq) c] else { P with owed := P.owed ++ [(cq, c)] }
  else P

/-- The completions kept for want of a slot, offered again in their order. -/
def Port.settleOwed (runs : Bool) (P : Port) : Port :=
  P.owed.foldl (fun P x => P.complete runs x.1 x.2) { P with owed := [] }

/-- Both ports write what they hold. -/
def State.pump (s : State) : State :=
  { s with ha := (s.ha.settleOwed (s.portRuns .ha)).pump (s.portRuns .ha) s.now,
           hb := (s.hb.settleOwed (s.portRuns .hb)).pump (s.portRuns .hb) s.now }

/-! ## Completions -/

/-- What a command ends with (07 Tables 7-8, 7-10, 7-11). -/
structure Reply where
  st : Nat
  rs : Nat := 0
  ix : Nat := 0
  pl : Nat := 0
  deriving DecidableEq, Repr

/-- OK with a payload. -/
def Reply.ok (pl : Nat) : Reply := { st := 0, pl := pl }

/-- The command that a header names. -/
def isCmd (h : Hdr) (p : PortId) (r n : Nat) : Bool := h.port = p && h.ring = r && h.cnt = n

/-- A command in execution: its completion ring and whether a slot of it is reserved; for one without a record the ring
that its command ring names now (log 1). -/
def State.inFlight (h : Hdr) (s : State) : Running :=
  (s.running.find? fun x => isCmd h x.port x.ring x.cnt).getD
    { port := h.port, ring := h.ring, cnt := h.cnt, cq := ((s.port h.port).ring h.ring).cq, held := false }

/-- The command's completion: its reservation ends, and the completion is written to the completion ring named at its
fetch; with SILENT an OK writes none (07 R258, R265, R271). -/
def State.reply (h : Hdr) (op : Nat) (r : Reply) (s : State) : State :=
  let x := s.inFlight h
  let c : Completion := { ts := s.now, tag := h.tag, opcode := op, status := r.st, reason := r.rs, index := r.ix,
                          payload := r.pl, ring := h.ring, cnt := h.cnt }
  let s := { s with running := s.running.filter fun x => !isCmd h x.port x.ring x.cnt }
  let s := s.modPort h.port fun P => P.modRing x.cq fun q => { q with reserved := q.reserved - b2n x.held }
  if h.silent ∧ r.st = 0 then s
  else s.modPort h.port fun P => P.complete (s.portRuns h.port) x.cq c

/-- The command begins: it is in execution and no longer among those fetched and not begun (07 R266). -/
def State.begun (h : Hdr) (s : State) : State :=
  match s.fetched.find? fun f => isCmd h f.port f.ring f.cnt with
  | some f => { s with
      fetched := s.fetched.filter fun f => !isCmd h f.port f.ring f.cnt,
      running := s.running ++ [{ port := f.port, ring := f.ring, cnt := f.cnt, cq := f.cq, held := f.held, tile := f.tile }] }
  | none => s

/-- The deadline of a ring command has passed (07 R266; 0: none). -/
def State.past (h : Hdr) (s : State) : Bool := h.deadline ≠ 0 && h.deadline < s.now

/-- Smallest margin of job kind `j` of block `k` (02 R80): 0 scans, 1 stream delivery, 2 transactions, 3 output actions,
4 reflexes, 5 ring commands (08 Table 8-16). -/
def State.margin (k j m : Nat) (s : State) : State :=
  { s with pwr := updAt (fun w => { w with minMargin := updAt (fun x => min x m) j w.minMargin }) k s.pwr }

/-- A power block replaced. -/
def State.modPwr (k : Nat) (f : Pwr → Pwr) (s : State) : State := { s with pwr := updAt f k s.pwr }

/-- A request finds block `k` at work: it leaves retention (08 R323). -/
def State.rouse (k : Nat) (s : State) : State := s.modPwr k fun w => { w with ret := false, workAt := s.now }

/-- The ring command deadline fault (Table 2-9): of the tile's engine `e`, or of hub common. -/
def State.raiseCmd (h : Hdr) (e : Option Nat) (s : State) : State :=
  match e with
  | some k => s.raise k 2 h.ring 0 (sat 0xFFFFFFFF (s.now - h.deadline))
  | none => s.raise 54 6 h.ring 0 (sat 0xFFFFFFFF (s.now - h.deadline))

/-! ## The store die's memory (01 Table 1-8) -/

/-- What a byte of the store that nothing has written reads as (log 7). -/
def storeBlank : Byte := 0xFF#8

/-- One byte of the store. -/
def Memory.read : List Host.Cell → Nat → Byte
  | [], _ => storeBlank
  | (b, v) :: m, a => if b = a then v else Memory.read m a

/-- One byte of the store written; the canonical form is kept. -/
def Memory.write : List Host.Cell → Nat → Byte → List Host.Cell
  | [], a, v => if v = storeBlank then [] else [(a, v)]
  | (b, w) :: m, a, v =>
    if a < b then (if v = storeBlank then (b, w) :: m else (a, v) :: (b, w) :: m)
    else if a = b then (if v = storeBlank then m else (a, v) :: m)
    else (b, w) :: Memory.write m a v

/-- The canonical form from address `lo` on: addresses strictly rising, no entry that reads as an unlisted byte. -/
def Memory.wfFrom : Nat → List Host.Cell → Bool
  | _, [] => true
  | lo, (b, v) :: m => lo ≤ b && v ≠ storeBlank && Memory.wfFrom (b + 1) m

/-- The canonical form. -/
def Memory.wf (m : List Host.Cell) : Bool := Memory.wfFrom 0 m

/-- A run of bytes written from address `a`. -/
def Memory.writeRun : List Host.Cell → Nat → List Byte → List Host.Cell
  | m, _, [] => m
  | m, a, v :: vs => Memory.writeRun (Memory.write m a v) (a + 1) vs

/-- `n` bytes read from address `a`. -/
def Memory.readRun (m : List Host.Cell) (a n : Nat) : List Byte := (List.range n).map fun i => Memory.read m (a + i)

/-! ## The persistent log and the Archive -/

/-- Capacity of a stratum (09 Table 9-12). -/
def stratumSize (n : Nat) : Nat := [4096, 8192, 12288, 8192].getD n 0

/-- The oldest queued entry of log `n` written as its record, with the ring's slot reused (09 R352). -/
def Plog.writeOne (n : Nat) (l : Plog) : Plog :=
  match l.queue.find? (fun x => x.1 = n) with
  | none => l
  | some x =>
    let q := l.queue.eraseP (fun y => y.1 = n)
    if n = 0 then
      { l with queue := q, next0 := l.next0 + 1,
               s0 := (l.s0 ++ [({ entry := x.2, boots := l.boots, num := l.next0 } : LogRec)]).drop (l.s0.length + 1 - 4096) }
    else
      { l with queue := q, next1 := l.next1 + 1,
               s1 := (l.s1 ++ [({ entry := x.2, boots := l.boots, num := l.next1 } : LogRec)]).drop (l.s1.length + 1 - 3008) }

/-- An entry offered to the mirror (09 R352): every S0 entry; an S1 entry while the 512-entry queue has room. -/
def Plog.offer (n : Nat) (x : ArchEntry) (l : Plog) : Plog :=
  if n = 0 then { l with queue := l.queue ++ [(0, x)] }
  else if n = 1 then
    if l.queue.length < 512 then { l with queue := l.queue ++ [(1, x)] } else { l with skipped := satInc 0xFFFF l.skipped }
  else l

/-- An entry written to stratum `n`, over the oldest one when it is full (09 R350), and offered to the mirror. An S0
entry is overwritten only once mirrored, so a full S0 whose oldest entry still waits has it written first; when the
store has failed it is overwritten anyway and STORE is raised. -/
def State.archPut (n : Nat) (x : ArchEntry) (s : State) : State :=
  let A := s.arch.getD n {}
  let full := stratumSize n ≤ A.entries.length
  let waits := n = 0 && full && 4096 ≤ (s.per.plog.queue.filter fun y => y.1 = 0).length
  let s := if waits && !s.per.plog.failed then { s with per := { s.per with plog := s.per.plog.writeOne 0 } } else s
  let s := if waits && s.per.plog.failed then s.raise 54 7 0 (Config.storeArea 1) 0 else s
  let s := { s with arch := updAt (fun A =>
    { A with entries := (if full then A.entries.drop 1 else A.entries) ++ [x], next := (A.next + 1) % 2 ^ 32,
             lost := if full then satInc 0xFFFFFFFF A.lost else A.lost }) n s.arch }
  { s with per := { s.per with plog := s.per.plog.offer n x } }

/-- The stratum of an event (09 Table 9-12); none for a kind the Archive never takes. -/
def Event.stratum (e : Event) : Option Nat :=
  if e.kind = 0x10 then
    some (if 3 ≤ (e.payload >>> 16) % 8 ∨ 3 ≤ (e.payload >>> 24) % 256 then 0 else 1)
  else if e.kind = 0x0F ∨ e.kind = 0x12 ∨ e.kind = 0x09 then some 1
  else if e.kind = 1 ∨ e.kind = 3 ∨ e.kind = 4 ∨ e.kind = 5 ∨ e.kind = 6 ∨ e.kind = 7 ∨ e.kind = 10 ∨ e.kind = 11 then some 2
  else if e.kind = 2 ∨ e.kind = 8 ∨ e.kind = 12 ∨ e.kind = 13 ∨ e.kind = 14 then some 3
  else none

/-- A further event of a window coalesced into the summary of its tile and kind (09 R351). -/
def addStorm (e : Event) : List Storm → List Storm
  | [] => [{ tile := e.tile, kind := e.kind, first := e, last := e, count := 1 }]
  | w :: ws => if w.tile = e.tile ∧ w.kind = e.kind then { w with last := e, count := w.count + 1 } :: ws
               else w :: addStorm e ws

/-- A released event offered to the Archive (09 R349 to R351). -/
def State.archive (e : Event) (s : State) : State :=
  match e.stratum with
  | none => s
  | some n =>
    if s.archKind.testBit e.kind then
      let A := s.arch.getD n {}
      if n ≠ 0 ∧ A.limit ≤ A.winCnt then
        { s with arch := updAt (fun A => { A with storms := addStorm e A.storms }) n s.arch }
      else
        let s := { s with arch := updAt (fun A => { A with winCnt := A.winCnt + 1 }) n s.arch }
        let s := s.archPut n (.ev e)
        if e.kind = 0x0E then s.archPut n (.more e) else s
    else s

/-! ## The event merge (02 R60 to R66) -/

/-- Events in key order. -/
def insertKey (e : Event) : List Event → List Event
  | [] => [e]
  | x :: xs => if keyLt e.key x.key then e :: x :: xs else x :: insertKey e xs

/-- The release of one event: the next merge sequence number, both ports and the Archive (02 R61, R65). -/
def State.release (late : Bool) (e : Event) (s : State) : State :=
  let e := { e with mseq := s.merge.nextSeq, late := late }
  let k := match s.merge.lastKey with
    | some k => if keyLt k e.key then e.key else k
    | none => e.key
  let s := { s with merge := { s.merge with nextSeq := s.merge.nextSeq + 1, lastKey := some k },
                    ha := s.ha.deliver (s.portRuns .ha) e, hb := s.hb.deliver (s.portRuns .hb) e }
  s.archive e

/-- Held events whose horizon has passed, released in key order (02 R61, R63). -/
def releaseDue : List Event → State → State
  | [], s => { s with merge := { s.merge with held := [] } }
  | e :: es, s =>
    if e.ts + s.merge.horizon ≤ s.now then releaseDue es (s.release false e)
    else { s with merge := { s.merge with held := e :: es } }

/-- Release of everything due now. -/
def State.releaseHeld (s : State) : State := releaseDue s.merge.held s

/-- An early release of the lowest held event because the buffer of 4,096 is full (02 R64). -/
def State.releaseEarly (s : State) : State :=
  match s.merge.held with
  | [] => s
  | e :: es =>
    let s := { s with merge := { s.merge with held := es } }
    let s := if s.merge.epi then
        s.modSrc 54 3 fun x => { x with aux := satInc 0xFFFFFFFF x.aux }
      else s.raise 54 3 0 0 1
    let s := { s with merge := { s.merge with epi := true, epiLast := s.now } }
    s.release false e

/-- An event's arrival at the merge (02 R61, R62, R64). One that finds the buffer full is judged before the early release that
it causes: it is held, not LATE, though its key may lie below that of the event then released (log 37). -/
def State.arrive (e : Event) (s : State) : State :=
  let late := e.ts + s.merge.horizon < s.now ||
    (match s.merge.lastKey with | some k => keyLt e.key k | none => false)
  if late then s.release true e
  else
    let s := if 4096 ≤ s.merge.held.length then s.releaseEarly else s
    { s with merge := { s.merge with held := insertKey e s.merge.held } }

end Sys2Proof.Machine
end

