-- ==== Sys2Proof/Machine/Tiles.lean ====
section
/-!
DEFINITION. What a tile does by itself at one tick: diagnoses, pre-checks, accession of output actions, mirrors, reflex
rules and trigger lines, and trim changes.
-/
namespace Sys2Proof.Machine

/-- A bit of a flag field set or cleared. -/
def setBit (n b : Nat) (on : Bool) : Nat := if on then n ||| 1 <<< b else if n.testBit b then n - 1 <<< b else n

/-- A diagnosis bit without an event of its own (03 R110: CHATTER, INVALID). -/
def Chan.mark (b : Nat) (on : Bool) (ch : Chan) : Chan :=
  { ch with diagP := setBit ch.diagP b on, diagL := if on then setBit ch.diagL b true else ch.diagL }

/-- A diagnosis becomes present or stops being present, with one DIAG event at each change (03 R106, 04 R157). -/
def State.setDiagX (t c b : Nat) (on : Bool) (partner burn : Nat) (s : State) : State :=
  if (s.chan t c).diagP.testBit b = on then s
  else (s.modChan t c (Chan.mark b on)).emit t c 4
    (payload [(16, 1, b), (17, 1, b2n on), (18, 1, partner), (20, 4, burn)])

/-- A diagnosis without partner. -/
def State.setDiag (t c b : Nat) (on : Bool) (s : State) : State := s.setDiagX t c b on 0 0

/-- A provisional item of tile `t` discarded (02 R46), with its FATE in view `v` of its channel. -/
def State.discard (t c v fate : Nat) (s : State) : State :=
  s.modTile t fun T => { (T.modChan c fun ch => { ch with vf := updAt (fun x => { x with fate := fate }) v ch.vf }) with
    vitDisc := satInc 0xFFFFFFFF T.vitDisc }

/-- An item of view `v` of a channel accessioned: its FATE, value and tick (02 Table 2-3). -/
def State.accessioned (t c v val : Nat) (ts : Tick) (attempt gain : Nat) (s : State) : State :=
  s.modChan t c fun ch => { ch with vf := updAt (fun x =>
    { x with fate := 1, accVal := some (val, ts), attempt := attempt, gain := gain }) v ch.vf }

/-- A channel that a staged transaction names, until it completes (13 R431). -/
def State.inTxn (g : Nat) (s : State) : Bool := s.txns.any fun x => x.members.any fun m => m.g = g

/-! ## Output actions -/

/-- The pre-checks of an output action (03 R101, 04 R155, R168): 0 passes, else REASON 1 MODE, 2 SUPPLY, 3 WIRING.
`kind` 0 is OUT_SET, 1 MIR_FORCE. -/
def Tile.preCheck (T : Tile) (c kind v : Nat) : Nat :=
  let ch := T.chan c
  match ch.mode with
  | .dout =>
    if kind ≠ 0 then 1
    else if v = 0 then 0
    else if T.lp.st.gone then 2
    else if (T.group c).any fun k => (T.chan k).diagP.testBit 5 then 3
    else 0
  | .aoi | .aov =>
    if kind ≠ 0 then 1
    else if v = 0 then 0
    else if T.lp.st.gone || ch.diagP.testBit 7 then 2
    else 0
  | .mir => if kind ≠ 1 then 1 else if v = 0 then 0 else if T.lp.st.gone then 2 else 0
  | _ => 1

/-- The largest value of an OUT_SET on a channel (04 R151, Table 7-7). -/
def Chan.outMax (ch : Chan) : Nat := if ch.mode = .dout then 1 else if ch.mode = .aov then 10500 else 24000

/-- The output state after an accessioned action of value `v` (03 R102 to R104; 04 R157, R168): the retry count starts
again, a latch ends with its protective action, and an action that leaves the channel off ends an overload. -/
def Tile.afterAction (T : Tile) (c kind v : Nat) (now : Tick) (o : OutState) : OutState :=
  let ch := T.chan c
  let lvl := if kind = 1 then (if v = 0 then some 0 else if v = 1 then some 1 else none) else some v
  let off := v = 0
  let held := o.hot || (ch.mode.isAo && ch.diagP.testBit 2) ||
    (!ch.mode.isAo && !off && !o.latch && o.prot)
  let dead := T.lp.st.gone || T.reen
  { o with lvl3 := lvl, post := none, holdGen := o.holdGen && T.safe c, prot := held, latch := false, retries := 0,
           okAt := if off then none else if o.latch || (!ch.mode.isAo && ch.diagP.testBit 0) then some (now + 200 * us) else o.okAt,
           retryAt := if off || o.latch then none else o.retryAt,
           elecOff := o.elecOff || (dead && T.drive c now = 0),
           darkTill := if off then 0 else o.darkTill }

/-- An output action accessioned at level 3 (02 R67 to R70, 07 Table 7-13 OUTPUT). `origin` 0 command, 1 transaction,
2 reflex, 3 supply, 4 mode change. -/
def State.accessionOut (t c kind v origin port rule tag : Nat) (s : State) : State :=
  let T := s.tile t
  let now := s.tnow t
  let s := s.modOut t c (T.afterAction c kind v now)
  let s := s.modMeas t c fun m => if kind = 1 ∧ v = 2 ∧ T.auth c ≠ 4 then { m with mirWait := true } else m
  let s := if v = 0 ∧ (T.chan c).mode ≠ .aoi ∧ (T.chan c).mode ≠ .aov then
      forAll (fun k s => s.setDiag t k 0 false) (T.group c) s else s
  let s := if !(T.chan c).mode.isAo then forAll (fun k s => s.setDiag t k 7 false) (T.group c) s else s
  let s := s.accessioned t c 1 v now 0 0
  s.emit t c 7 (payload [(16, 4, v), (20, 1, origin), (21, 1, port), (22, 1, rule), (24, 4, tag)])

/-! ## Commanded actions of one tick (02 R68) -/

/-- A commanded action that is due on a channel: a staged single action, or a member of a transaction that its tile holds
with COMMIT. -/
inductive Due where
  | act (a : Action)
  | mem (x : Txn) (m : Member)

/-- Its commit tick and its place in fetch order. -/
def Due.key : Due → Tick × Nat
  | .act a => (a.commit, a.order)
  | .mem x _ => (x.c, x.order)

/-- One key comes before another. -/
def dueLt (a b : Tick × Nat) : Bool := a.1 < b.1 || (a.1 = b.1 && a.2 < b.2)

/-- An item inserted in the order of R68. -/
def insertDue (d : Due) : List Due → List Due
  | [] => [d]
  | x :: xs => if dueLt d.key x.key then d :: x :: xs else x :: insertDue d xs

/-- The members of transaction `x` on a channel that its tile has yet to accession (02 R72). -/
def Txn.left (x : Txn) (t c : Nat) : List Member :=
  if x.decided = some true && x.held.contains t && !x.ended.contains t && !x.lost.contains t then
    x.members.filter fun m => m.g = 32 * t + c && !x.accd.contains m.g
  else []

/-- The commanded actions whose commit tick the tile's copy has reached, in the order in which they are accessioned (02
R68). -/
def State.dues (t c : Nat) (s : State) : List Due :=
  let now := s.tnow t
  let acts := ((s.chan t c).staged.filter fun a => a.commit ≤ now).map Due.act
  let mems := s.txns.flatMap fun x => if x.c ≤ now then (x.left t c).map (Due.mem x) else []
  (acts ++ mems).foldr insertDue []

/-- A channel with DROP_ON_LOSS and no L+ is left off by an action of its tile (13 Table 13-3). -/
def State.dropAfter (t c v : Nat) (off : Nat → Nat → Nat → State → State) (s : State) : State :=
  if (s.tile t).lp.st.gone && v ≠ 0 && (s.chan t c).dropOnLoss then off t c 3 s else s

/-- The action's own stage switched off by the tile: origin 3 supply, 4 mode change (03 R83, R115; 04 R123). EXP and EXS
have no level 3 and report the same event. -/
def State.offAction (t c origin : Nat) (s : State) : State :=
  let ch := s.chan t c
  if ch.mode.isOut then s.accessionOut t c (if ch.mode = .mir then 1 else 0) 0 origin 0xFF 0 0
  else s.emit t c 7 (payload [(20, 1, origin), (21, 1, 0xFF)])

/-- A commanded action accessioned: with its completion (02 R67, 07 OUT_SET), or as a member of its transaction (02 R74). -/
def State.accDue (t c : Nat) (d : Due) (s : State) : State :=
  match d with
  | .act a =>
    let s := s.modChan t c fun ch => { ch with staged := ch.staged.filter fun b => b ≠ a }
    let s := s.accessionOut t c a.kind a.value 0 a.h.port.code 0 a.h.tag
    let s := if a.commit = 0 then s else s.accessioned t c 1 a.value a.commit 0 0
    s.reply a.h a.opcode (Reply.ok 0)
  | .mem x m =>
    let s := { s with txns := s.txns.map fun (y : Txn) =>
      if y.h.port = x.h.port ∧ y.h.tag = x.h.tag then { y with accd := y.accd ++ [m.g] } else y }
    let s := (s.accessionOut t c m.action m.value 1 x.h.port.code 0 x.h.tag).accessioned t c 1 m.value x.c 0 0
    let s := s.accessioned t c 3 m.value x.c 0 0
    s.dropAfter t c m.value State.offAction

/-- Every commanded action that is due on a channel, accessioned before a reflex or an off action of the same tick (02
R68). -/
def State.commandsFirst (t c : Nat) (s : State) : State := forAll (State.accDue t c) (s.dues t c) s

/-! ## Mirrors -/

/-- The mapped value of a source result (04 R163). -/
def mirMap (ch : Chan) (pr : MirProf) (uns : Bool) (x : Int) : Nat :=
  let lo : Int := if uns then pr.srcLo.toNat else pr.srcLo.toInt
  let hi : Int := if uns then pr.srcHi.toNat else pr.srcHi.toInt
  let a : Int := mirOut ch pr.outLo
  let b : Int := mirOut ch pr.outHi
  let x := clampInt (min lo hi) (max lo hi) x
  if lo = hi then a.toNat
  else if lo < hi then roundHalfEven ((x - lo) * (b - a) + a * (hi - lo)) (hi - lo).toNat |>.toNat
  else roundHalfEven ((lo - x) * (b - a) + a * (lo - hi)) (lo - hi).toNat |>.toNat

/-- A mirror that SAFE HOLD keeps generating at the value in force: in a safe state, and after it until a fresh action (04
R162, 02 R70). -/
def Tile.mirHeld (T : Tile) (c : Nat) : Bool :=
  let ch := T.chan c
  fld ch.cfg 31 30 = 2 && (T.safe c || (ch.o.post.isSome && ch.o.holdGen))

/-- A valid accessioned result of channel `c` reaches the mirrors that name it (04 R163, R167; 13 R436: not under SAFE
HOLD). -/
def Tile.feedMirrors (c : Nat) (x : Int) (T : Tile) : Tile :=
  { T with chans := mapFrom (fun k ch =>
      if ch.mode = .mir && ch.mirSrc = c && !T.mirHeld k then
        { ch with m := { ch.m with mirNext := some (mirMap ch (T.mirs.getD ch.mirProf {}) ((T.chan c).mode = .dic) x) } }
      else ch) 0 T.chans }

/-! ## Trigger lines -/

/-- The state of line `l` as its driving tile last sent it. -/
def Line.sent (L : Line) : Bool := match L.toHub.getLast? with | some x => x.1 | none => L.state

/-- A driven line's state at its tile: a change is on its way to the hub (08 R306). -/
def Line.send (v : Bool) (ts : Tick) (L : Line) : Line :=
  if L.sent = v then L else { L with toHub := L.toHub ++ [(v, ts)] }

/-- Rule (t, r) drives line `l` with value `v`. -/
def State.driveLine (t r l : Nat) (v : Bool) (ts : Tick) (s : State) : State :=
  { s with lines := updAt (fun L => { (L.send v ts) with driven := true, tile := t, rule := r }) l s.lines }

/-- Rule (t, r) no longer drives line `l`: it reads 0 (08 R306). -/
def State.freeLine (t r l : Nat) (ts : Tick) (s : State) : State :=
  { s with lines := updAt (fun L =>
      if L.driven ∧ L.tile = t ∧ L.rule = r then { (L.send false ts) with driven := false } else L) l s.lines }

/-! ## Reflex rules (08 R299 to R306) -/

/-- The tile is in service for its reflex unit and sequencer. -/
def Tile.online (T : Tile) : Bool := T.powered && T.link.life = .online

/-- WHY of a rule (08 Table 8-1): 0 armed, 1 not enabled, 2 MODE, 3 SUPPLY, 4 WIRING, 5 SOURCE, 6 OFFLINE; where several
hold, in the order not enabled, OFFLINE, SOURCE, then the pre-check (log 13). -/
def Tile.ruleWhy (T : Tile) (r : Rule) : Nat :=
  let src := T.chan r.index
  let level := r.kind ≤ 4
  let suits :=
    if r.isLineSrc then level && r.action ≠ 6
    else if level then src.mode = .di || src.mode = .trim
    else src.mode.isMeas || src.mode = .dic || src.mode.isAo
  let pre (kind v : Nat) := match T.preCheck r.target kind v with | 0 => 0 | n => n + 1
  if !r.enable then 1
  else if !T.online then 6
  else if !suits then 5
  else match r.action with
    | 0 => if (T.chan r.target).mode = .dout then pre 0 0 else 2
    | 1 => if (T.chan r.target).mode = .dout then pre 0 1 else 2
    | 2 => if (T.chan r.target).mode.isAo && r.value ≤ (T.chan r.target).outMax then pre 0 r.value else 2
    | 3 => pre 1 0
    | 4 => pre 1 1
    | 5 => pre 1 2
    | 6 => 0
    | _ => 2

/-- The accessioned level of a qualifier holds (08 Table 8-2). -/
def Tile.qualifies (T : Tile) (r : Rule) : Bool :=
  if r.qen then
    let ch := T.chan r.qch
    if ch.mode.isLvl then ch.di.level = r.qlevel
    else if ch.mode = .dout || ch.mode = .mir then decide (ch.o.lvl3.getD 0 ≠ 0) = r.qlevel
    else false
  else true

/-- The truth of a level or threshold condition, from its state before (08 R301). -/
def ruleTruth (T : Tile) (stale : Bool) (r : Rule) : Bool :=
  if r.isLineSrc then
    if stale then r.truth
    else
      let v := T.link.lines.getD r.index false
      if r.kind = 3 then v else if r.kind = 4 then !v else false
  else
    let ch := T.chan r.index
    if r.kind ≤ 2 then false
    else if !T.valid r.index then r.invTrue || r.truth
    else if r.kind = 3 then ch.di.level
    else if r.kind = 4 then !ch.di.level
    else if !ch.m.has then false
    else
      let thr : Int := if ch.signed then sext 24 (fld r.thr 23 0) else fld r.thr 23 0
      if r.kind = 5 then (if thr ≤ ch.m.y then true else if ch.m.y < thr - r.hyst then false else r.truth)
      else (if ch.m.y ≤ thr then true else if thr + r.hyst < ch.m.y then false else r.truth)

/-- An edge that reaches the reflex unit: of a line (true) or channel, its number, rising or not. -/
abbrev Edge := Bool × Nat × Bool

/-- An edge kind fires at an edge of the right sense (08 R303). -/
def edgeFires (r : Rule) (e : Option Edge) : Bool :=
  match e with
  | some (line, i, up) =>
    r.isLineSrc = line && r.index = i && (r.kind = 2 || (r.kind = 0 && up) || (r.kind = 1 && !up))
  | none => false

/-- A rule's action at its firing instant (08 R303), after the commanded actions of its tick (02 R68), with its latency
and its deadline by the tile's copy (R305, Table 2-9). -/
def State.fireRule (t i : Nat) (ts : Tick) (s : State) : State :=
  let r := (s.tile t).rules.getD i {}
  let lat := s.tnow t - ts
  let miss := r.deadline < lat
  let s := s.modTile t fun T => { T with
    rfxLat := max T.rfxLat (sat 0xFFFF lat),
    rules := updAt (fun r => { r with fired := satInc 0xFFFF r.fired,
                                      missed := if miss then satInc 0xFFFF r.missed else r.missed }) i T.rules }
  let s := if r.action < 6 then s.commandsFirst t r.target else s
  let s := if miss then s else s.margin (35 + t) 4 (r.deadline - lat)
  let s := match r.action with
    | 0 => s.accessionOut t r.target 0 0 2 0xFF i 0
    | 1 => s.accessionOut t r.target 0 1 2 0xFF i 0
    | 2 => s.accessionOut t r.target 0 r.value 2 0xFF i 0
    | 3 => s.accessionOut t r.target 1 0 2 0xFF i 0
    | 4 => s.accessionOut t r.target 1 1 2 0xFF i 0
    | 5 => s.accessionOut t r.target 1 2 2 0xFF i 0
    | _ => s
  if miss then s.raise (35 + t) 11 i 0 (sat 0xFFFFFFFF (lat - r.deadline)) else s

/-- One rule judged: its truth, ARMED and WHY, its line, and its firing. -/
def State.judgeRule (t : Nat) (e : Option Edge) (ts : Tick) (i : Nat) (s : State) : State :=
  let T := s.tile t
  let r := T.rules.getD i {}
  if r.cond = 0 && r.act = 0 && !r.armed then s
  else
    let stale := (s.lines.getD r.index {}).stale
    let why := T.ruleWhy r
    let cond := ruleTruth T stale r
    let now := why = 0
    let q := T.qualifies r
    let fire := now && q && (if r.kind ≤ 2 then edgeFires r e else cond && (!r.truth || !r.armed) && !(r.isLineSrc && stale))
    let s := s.modTile t fun T => { T with rules := updAt (fun r =>
      { r with truth := cond, armed := now, why := why }) i T.rules }
    let s := if r.action = 6 then
        if now then s.driveLine t i r.line (cond && q) ts
        else if T.online then s.freeLine t i r.line ts else s
      else s
    if fire then s.fireRule t i ts else s

/-- Every rule of a tile judged in ascending number (02 R68), and once more for the lines that the actions change. -/
def State.reflex (t : Nat) (e : Option Edge) (ts : Tick) (s : State) : State :=
  let s := forAll (State.judgeRule t e ts) (List.range 64) s
  forAll (State.judgeRule t none ts) (List.range 64) s

/-! ## Conditions that follow from others -/

/-- REF_LOST of a measuring channel, SRC_INVALID of a mirror and RAIL of an analogue output follow their conditions. -/
def State.deriveChan (t c : Nat) (s : State) : State :=
  let T := s.tile t
  let ch := T.chan c
  if ch.mode.isMeas then s.setDiag t c 6 (T.refLost c)
  else if ch.mode = .mir then
    let bad := !T.mirSrcOk c
    let pr := T.mirs.getD ch.mirProf {}
    let (p, hi) := mirPeriod ch pr (mirOut ch pr.outLo)
    let s := if bad && !T.mirHeld c && (ch.m.mirGen || ch.m.mirNext.isSome || (ch.onInvalid = 2 && ch.m.mirPd = 0)) then
        s.modMeas t c fun m => { m with
          mirGen := false, mirNext := none,
          mirPer := if ch.onInvalid = 2 then s.tnow t else m.mirPer, mirPd := if ch.onInvalid = 2 then p else m.mirPd,
          mirHi := if ch.onInvalid = 2 then hi else m.mirHi }
      else s
    s.setDiag t c 6 bad
  else if ch.mode.isAo then s.setDiag t c 7 T.railFault
  else s

/-- Channel numbers. -/
def chanNos : List Nat := List.range 32

/-- The derived conditions of a tile, and then its rules (08 R302). -/
def State.refreshAt (t : Nat) (e : Option Edge) (ts : Tick) (s : State) : State :=
  let derive := fun s => forAll (State.deriveChan t) chanNos s
  (derive (derive s)).reflex t e ts

/-- The same at the present tick, with no edge. -/
def State.refresh (t : Nat) (s : State) : State := s.refreshAt t none (s.tnow t)

/-! ## Trim (04 R169 to R171) -/

/-- The limit of OFS in codes: 5 % of the span of the mode's range; none for a mode without trim. -/
def Chan.ofsMax (ch : Chan) : Option Nat :=
  match ch.mode with
  | .aiv => some (if ch.range = 1 then 250000 else 500000)
  | .aii => some (if ch.range = 1 then 160000 else 200000)
  | .airtd => some (if ch.lin then 52500 else if ch.range = 0 then 20000 else 200000)
  | .aires => some (if ch.range = 0 then 20000 else if ch.range = 1 then 200000 else 250000)
  | .aitc => some (if ch.lin then [70500, 82100, 78500, 33500, 63500, 90900, 78500].getD ch.range 78500 else 500000)
  | .dmd => some 419430
  | .aoi => some 240000
  | .aov => some 262500
  | _ => none

/-- OFS lies within its limit for the channel's mode. -/
def Chan.ofsOk (ch : Chan) (ofs : Int) : Bool :=
  match ch.ofsMax with
  | some m => -(m : Int) ≤ ofs && ofs ≤ m
  | none => true

/-- GAIN lies from 0.9 to 1.1. -/
def gainOk (g : Nat) : Bool := 0x399999 ≤ g && g ≤ 0x466666

/-- The trim of a result with timestamp `ts`: a change holds from its tick on (04 R171). -/
def Chan.trimAt (ch : Chan) (ts : Tick) : Int × Nat :=
  match (ch.trims.filter fun x => ts < x.1).getLast? with
  | some x => x.2
  | none => (ch.trimOfs, ch.trimGain)

/-- A trim change takes effect now, with its event; a settings save falls due 10 s later (04 R171, 10 R375). The trims
before it are kept for 10 s, longer than any result is on its way. -/
def State.trimChange (t c : Nat) (ofs : Int) (gain : Nat) (s : State) : State :=
  let ch := s.chan t c
  let s := s.modChan t c fun ch => { ch with
    trimOfs := ofs, trimGain := gain,
    trims := (s.tnow t, ch.trimOfs, ch.trimGain) :: ch.trims.filter fun x => s.tnow t < x.1 + 10 * sec }
  let s := s.emit t c 0x0A (payload [(16, 3, toField 24 ch.trimOfs), (19, 3, ch.trimGain), (22, 3, toField 24 ofs),
    (25, 3, gain)])
  { s with upd := { s.upd with savePend := true, saveAt := some (s.now + 10 * sec) } }

end Sys2Proof.Machine
end

