-- ==== Sys2Proof/Machine/Admission.lean ====
section
/-!
DEFINITION. Admission of sequences and injected conversions (05 R180 to R183, R189, R211 to R213).
-/
namespace Sys2Proof.Machine

/-! ## Slots -/

/-- An input whose slot takes GAIN as given and refuses AUTO: ZERO, CAL_P, CAL_N, SHORT (05 Table 5-4). -/
def slotGainInput (i : Nat) : Bool := i = 32 || i = 41 || i = 42 || i = 43

/-- An internal input with a dedicated front end: CJC_A, CJC_B, TDIE. -/
def tempInput (i : Nat) : Bool := 37 ≤ i && i ≤ 39

/-- The gain at which an internal input converts (05 R181). -/
def internalGain (i : Nat) (slot : Word) : Nat :=
  if slotGainInput i then Slot.gain slot else if tempInput i then 0 else 3

/-- Excitation cycle or pulse period of a DMD channel times `n`, in ticks rounded up (05 R211); 0 without a source
(log 14). -/
def Tile.cycles (T : Tile) (c n : Nat) : Nat :=
  let x := T.chan (T.chan c).excCh
  if x.mode = .exs then ceilDiv (n * 40000) (fld x.cfg 31 30 + 1)
  else if x.mode = .exp then n * fld x.cfg 15 8 * (100 * us)
  else 0

/-- Conversion time of a slot on its converter (05 R178, R179). -/
def slotConvT (w : Word) : Nat := if Slot.conv w = 1 then 50 else rateT (Slot.rate w)

/-- The worst-case time of a slot or injected conversion of input `i` (05 Table 5-12). -/
def Tile.slotWorst (T : Tile) (i : Nat) (w : Word) : Nat :=
  let ch := T.chan i
  let fixed := Slot.settle w + slotConvT w
  let auto := Slot.settle w + 3 * slotConvT w + 64 * us
  if 32 ≤ i then fixed
  else if ch.mode.isRes then ch.pulseW
  else if ch.mode = .dmd then Slot.settle w + T.cycles i (ch.ncyc + 1)
  else (if Slot.auto w then auto else fixed) + (if ch.mode = .aitc then 800 * us else 0)

/-- The pulse of a resistance slot holds its attempts (05 R211). -/
def Chan.pulseHolds (ch : Chan) (w : Word) : Bool :=
  let n := if ch.wire = 1 then 2 else 1
  let a := if Slot.auto w then 3 else 1
  n * (a * slotConvT w + (a - 1) * (32 * us)) + 100 * us ≤ ch.pulseW

/-- A slot of input `i` passes the checks of 05 R180 to R183 and R211. -/
def Tile.slotOk (T : Tile) (i : Nat) (w : Word) : Bool :=
  let ch := T.chan i
  Slot.conv w < 2 && i < 44 &&
    if 32 ≤ i then (if slotGainInput i then !Slot.auto w && Slot.gain w < 12 else true)
    else
      match ch.gains with
      | none => false
      | some (lo, hi) =>
        (T.claimer i).isNone &&
          (if ch.mode = .aiv || ch.mode = .aii then true
           else if ch.mode = .dmd then Slot.conv w = 1 && !Slot.auto w
           else Slot.conv w = 0) &&
          (Slot.auto w || (lo ≤ Slot.gain w && Slot.gain w ≤ hi)) && (!ch.mode.isRes || ch.pulseHolds w)

/-! ## Sequences -/

/-- The interval I(s) of 05 R212. -/
def Seq.interval (q : Seq) : Nat := max q.period 1

/-- The sequence has a slot on converter `v`. -/
def Seq.uses (q : Seq) (v : Nat) : Bool := q.used.any fun w => Slot.conv w = v

/-- Two sequences share a converter. -/
def Seq.shares (a b : Seq) : Bool := (a.uses 0 && b.uses 0) || (a.uses 1 && b.uses 1)

/-- S(s): the slots' worst-case times added. -/
def Tile.seqSum (T : Tile) (q : Seq) : Nat := q.used.foldl (fun n w => n + T.slotWorst (Slot.input w) w) 0

/-- D(s) of 05 R212. -/
def Seq.limit (q : Seq) : Nat := if q.deadline ≠ 0 then min q.interval q.deadline else q.interval

/-- B(s): the largest slot on a converter that s uses, in an armed sequence above s. -/
def Tile.blocking (T : Tile) (armed : List (Nat × Seq)) (n : Nat) (q : Seq) : Nat :=
  armed.foldl (fun m x => if n < x.1 then
    x.2.used.foldl (fun m w => if q.uses (Slot.conv w) then max m (T.slotWorst (Slot.input w) w) else m) m else m) 0

/-- The next value of r in the loop of 05 R212. -/
def Tile.worstNext (T : Tile) (armed : List (Nat × Seq)) (gap w n : Nat) (q : Seq) (r : Nat) : Nat :=
  T.seqSum q + T.blocking armed n q + ceilDiv r (2 * ms) * (if q.uses 0 then 8450 else 0) +
    ceilDiv r (2 * ms) * (if q.uses 1 then 2250 else 0) + (1 + ceilDiv r (gap * us)) * (w * us) +
    armed.foldl (fun m x => if x.1 < n && x.2.shares q then m + ceilDiv r x.2.interval * T.seqSum x.2 else m) 0

/-- The loop of 05 R212: WORST, or none when it passes D(s). Each turn raises `r`, so `D(s)` turns suffice. -/
def Tile.worstLoop (T : Tile) (armed : List (Nat × Seq)) (gap w n : Nat) (q : Seq) : Nat → Nat → Option Nat
  | 0, _ => none
  | k + 1, r =>
    let next := T.worstNext armed gap w n q r
    if q.limit < next then none else if next = r then some r else T.worstLoop armed gap w n q k next

/-- WORST of sequence `n` among the armed sequences, or none (05 R212). -/
def Tile.worstOf (T : Tile) (armed : List (Nat × Seq)) (gap w n : Nat) (q : Seq) : Option Nat :=
  T.worstLoop armed gap w n q (q.limit + 2) (T.seqSum q + T.blocking armed n q)

/-- The armed sequences of a tile with their numbers. -/
def Tile.armedSeqs (T : Tile) : List (Nat × Seq) := ((List.range 8).map fun n => (n, T.seq n)).filter fun x => x.2.active

/-- Every armed sequence passes the test of 05 R212. -/
def Tile.worstAll (T : Tile) (armed : List (Nat × Seq)) (gap w : Nat) : Bool :=
  armed.all fun x => (T.worstOf armed gap w x.1 x.2).isSome

/-- A sum of fractions (numerator, denominator). -/
def fracSum : List (Nat × Nat) → Nat × Nat
  | [] => (0, 1)
  | (a, b) :: xs => let (c, d) := fracSum xs; (a * d + c * b, b * d)

/-- Results of one scan: a DMD slot with RATIO counts two (05 R213). -/
def Tile.seqResults (T : Tile) (q : Seq) : Nat :=
  q.used.foldl (fun n w => n + (if Slot.input w < 32 && (T.chan (Slot.input w)).isRatio then 2 else 1)) 0

/-- Lanes in use of a tile's link. -/
def Link.lanes (l : Link) : Nat := b2n (l.laneUse.testBit 0) + b2n (l.laneUse.testBit 1) + b2n (l.laneUse.testBit 2)

/-- The link test of 05 R213: at most 256 Mbit/s, or 128 Mbit/s on one lane (01 R17). -/
def Tile.linkFits (T : Tile) (one : Bool) (armed : List (Nat × Seq)) : Bool :=
  let (a, b) := fracSum (armed.map fun x => (T.seqResults x.2, x.2.interval))
  a * (if one then 100 else 50) ≤ b

/-- A chain from sequence `n`, over armed and disarmed sequences, leads back to it. -/
def Tile.chainCycle (T : Tile) (n : Nat) : Nat → Nat → Bool
  | 0, _ => false
  | k + 1, m => if m = n then true else
      let q := T.seq m
      if q.src = 4 then T.chainCycle n k (q.param % 8) else false

/-- The fields of SEQ_CFG are within range (05 Tables 5-8 and 5-10). -/
def Tile.seqCfgOk (T : Tile) (n : Nat) (q : Seq) : Bool :=
  q.src < 5 && q.policy ≠ 3 && q.specN ≤ 64 &&
    (if q.src = 2 || q.src = 3 then q.param / 64 ≠ 0 else true) &&
    (if q.src = 4 then !T.chainCycle n 9 (q.param % 8) else true)

/-- The ADM code of an arm of sequence `n` as `q` (05 R189). -/
def Tile.seqAdmit (T : Tile) (n : Nat) (q : Seq) : Nat :=
  let armed := (T.armedSeqs.filter fun x => x.1 ≠ n) ++ [(n, q)]
  if !T.seqCfgOk n q || !(q.used.all fun w => T.slotOk (Slot.input w) w) || (q.src = 1 && q.period ≤ q.phase) then 3
  else if !T.cv.refReady ||
      (T.cv.cal.busy && T.cv.cal.excl && ((T.cv.cal.convs.testBit 0 && q.uses 0) || (T.cv.cal.convs.testBit 1 && q.uses 1)))
  then 5
  else if !T.worstAll armed T.cv.injGap T.cv.injW || !T.linkFits (T.link.lanes = 1) armed then 2
  else 0

/-- WORST of every armed sequence as admitted; 0 for one that is not armed (05 R212). -/
def Tile.setWorst (T : Tile) : Tile :=
  let armed := T.armedSeqs
  { T with seqs := mapFrom (fun n q =>
      { q with worst := if q.active then (T.worstOf armed T.cv.injGap T.cv.injW n q).getD q.worst else 0 }) 0 T.seqs }

end Sys2Proof.Machine
end

