-- ==== Sys2Proof/Machine/Streams.lean ====
section
/-!
DEFINITION. Filter pipelines: coefficient banks, the stages and detectors of a stream context, its blocks and their
delivery, its start and its end (06 R218 to R251, 07 R278, R294, R295).
-/
namespace Sys2Proof.Machine

/-! ## Fields and banks -/

/-- SC_SRC.GRID, SEQ, SLOT, CH, BANK (06 Table 6-7). -/
def Ctx.grid (c : Ctx) : Bool := bit c.src 30
/-- See `grid`. -/
def Ctx.seqN (c : Ctx) : Nat := fld c.src 29 27
/-- See `grid`. -/
def Ctx.slotN (c : Ctx) : Nat := fld c.src 26 21
/-- See `grid`. -/
def Ctx.srcCh (c : Ctx) : Nat := fld c.src 20 16
/-- See `grid`. -/
def Ctx.bank (c : Ctx) : Nat := fld c.src 15 14
/-- Points of the rank filter; 0 when it is off. -/
def Ctx.rankN (c : Ctx) : Nat := if fld c.struct 31 29 = 0 then 0 else 2 * fld c.struct 31 29 + 1
/-- The rank, with 0 for the median. -/
def Ctx.rankK (c : Ctx) : Nat := if fld c.struct 28 25 = 0 then (c.rankN + 1) / 2 else fld c.struct 28 25
/-- Half-band stages. -/
def Ctx.hbN (c : Ctx) : Nat := fld c.struct 24 22
/-- FIR on. -/
def Ctx.firEn (c : Ctx) : Bool := bit c.struct 21
/-- D_f; 1 while the FIR is off. -/
def Ctx.firD (c : Ctx) : Nat := if c.firEn then fld c.struct 20 16 else 1
/-- Resampler on. -/
def Ctx.resEn (c : Ctx) : Bool := bit c.struct 15
/-- OUT_PERIOD in ticks. -/
def Ctx.resPeriod (c : Ctx) : Nat := c.res.toNat
/-- Any detector on. -/
def Ctx.detOn (c : Ctx) : Bool := bit c.det 31 || bit c.det 30 || bit c.det 28
/-- WINDOW. -/
def Ctx.window (c : Ctx) : Nat := fld c.det 15 0
/-- BLOCK, the block close time in ticks and the delivery deadline in ticks. -/
def Ctx.blockN (c : Ctx) : Nat := fld c.deliv 31 27
/-- See `blockN`. -/
def Ctx.blockT (c : Ctx) : Nat := fld c.deliv 26 16 * ms
/-- See `blockN`. -/
def Ctx.dl (c : Ctx) : Nat := fld c.deliv 15 0 * us

/-- Word `i` of a bank image (06 Table 6-5). -/
def CBank.w (b : CBank) (i : Nat) : Int := b.words.getD i 0
/-- N_f. -/
def CBank.nf (b : CBank) : Nat := toField 16 (b.w 0) % 256
/-- ANTI. -/
def CBank.anti (b : CBank) : Bool := (toField 16 (b.w 0)).testBit 15
/-- m_j, for j from 1 to 6. -/
def CBank.m (b : CBank) (j : Nat) : Nat := toField 16 (b.w j)
/-- T. -/
def CBank.t (b : CBank) : Nat := toField 16 (b.w 7)

/-- Word `k` of the image is in use. -/
def CBank.inUse (b : CBank) (k : Nat) : Bool :=
  if k < 8 then true
  else if k < 104 then (k - 8) % 16 < b.m ((k - 8) / 16 + 1)
  else if k < 232 then k - 104 < (b.nf + 1) / 2
  else if k < 1256 then (k - 232) % 16 < b.t
  else false

/-- Every field of Table 6-5 is in range and every reserved or unused word is 0 (06 R240). -/
def CBank.ok (b : CBank) : Bool :=
  1 ≤ b.nf && toField 16 (b.w 0) / 256 % 128 = 0 &&
    ([1, 2, 3, 4, 5, 6].all fun j => b.m j = 0 || (2 ≤ b.m j && b.m j ≤ 16)) &&
    (b.t = 0 || b.t = 4 || b.t = 8 || b.t = 16) &&
    (List.range 1536).all fun k => b.inUse k || b.w k = 0

/-- The bank in force of a running context. -/
def Pipe.inForce (P : Pipe) (c : Ctx) : CBank := P.banks.getD c.bankNow {}

/-- The value of coefficient word `k` for the output sample under way (06 R242). -/
def Pipe.coef (P : Pipe) (c : Ctx) (k : Nat) : Int :=
  let a := (P.inForce c).w k
  match c.r.fade with
  | none => a
  | some f => roundHalfEven ((f.f - f.i : Int) * a + f.i * (P.banks.getD f.dst {}).w k) f.f

/-! ## Arithmetic (06 R226 to R228) -/

/-- Limit of the accumulator, 2^39 − 1. -/
def accLimit : Int := 549755813887
/-- Limit of a stage value. -/
def valLimit : Int := 16777215

/-- Products added in order, each addition saturating; whether one saturated (06 R227). -/
def macc (terms : List Int) : Int × Bool :=
  terms.foldl (fun a t => let v := clampInt (-accLimit) accLimit (a.1 + t); (v, a.2 || v ≠ a.1 + t)) (0, false)

/-- A stage output from its products, marked when its computation, or that of a value it uses, saturated or met the
limit (06 R228; log 14). -/
def stageOut (terms : List Int) (used : Bool) : Int × Bool :=
  let (a, sat) := macc terms
  let y := roundHalfEven a 32768
  let v := clampInt (-valLimit) valLimit y
  (v, sat || v ≠ y || used)

/-- A value into a delay line of `len` taps; the first value fills it (06 R232). -/
def Stage.push (len : Nat) (x : Int × Bool) (g : Stage) : Stage :=
  { line := if g.n = 0 then List.replicate len x else (x :: g.line).take len, n := g.n + 1 }

/-- Value and mark at place `i` of a delay line. -/
def Stage.at_ (g : Stage) (i : Nat) : Int × Bool := g.line.getD i (0, false)

/-- Output of half-band stage `j` of m_j = `m` (06 R230): from the outermost pair inward, the centre last. -/
def hbOut (coef : Nat → Int) (j m : Nat) (g : Stage) : Int × Bool :=
  let ks := (List.range m).reverse
  let mid := 2 * m - 1
  let terms := ks.map fun k => coef (8 + 16 * (j - 1) + k) * ((g.at_ (mid - (2 * k + 1))).1 + (g.at_ (mid + (2 * k + 1))).1)
  let used := ks.any fun k => (g.at_ (mid - (2 * k + 1))).2 || (g.at_ (mid + (2 * k + 1))).2
  stageOut (terms ++ [16384 * (g.at_ mid).1]) (used || (g.at_ mid).2)

/-- Output of the FIR (06 R231). For an antisymmetric set the later sample is subtracted from the earlier one (R227). -/
def firOut (coef : Nat → Int) (n : Nat) (anti : Bool) (g : Stage) : Int × Bool :=
  let half := n / 2
  let terms := (List.range half).map fun i =>
    let late := (g.at_ i).1
    let early := (g.at_ (n - 1 - i)).1
    coef (104 + i) * (if anti then early - late else early + late)
  let mid := if n % 2 = 1 then [if anti then 0 else coef (104 + half) * (g.at_ half).1] else []
  stageOut (terms ++ mid) ((g.line.take n).any fun x => x.2)

/-- The half-band cascade from stage `j` on: a stage gives an output at every second input (06 R232). -/
def hbChain (coef : Nat → Int) (m : Nat → Nat) : Nat → List Stage → Int × Bool → List Stage × Option (Int × Bool)
  | _, [], x => ([], some x)
  | j, g :: gs, x =>
    let g' := g.push (4 * m j - 1) x
    if g.n % 2 = 1 then
      let (gs', y) := hbChain coef m (j + 1) gs (hbOut coef j (m j) g')
      (g' :: gs', y)
    else (g' :: gs, none)

/-- A value into its place of an ascending list. -/
def insertInt (x : Int) : List Int → List Int
  | [] => [x]
  | y :: ys => if x ≤ y then x :: y :: ys else y :: insertInt x ys

/-- The k-th smallest value (06 R229). -/
def kth (k : Nat) (xs : List Int) : Int := (xs.foldr insertInt []).getD (k - 1) 0

/-- The integer square root, from bit `b` downward. -/
def isqrtFrom : Nat → Nat → Nat → Nat
  | 0, r, _ => r
  | b + 1, r, a => if (r + 2 ^ b) * (r + 2 ^ b) ≤ a then isqrtFrom b (r + 2 ^ b) a else isqrtFrom b r a

/-- √a ÷ w rounded half to even (06 R237). -/
def rootOver (a w : Nat) : Nat :=
  let q := isqrtFrom 48 0 a / w
  let h := (2 * q + 1) * w
  if 4 * a < h * h then q else if h * h < 4 * a then q + 1 else if q % 2 = 0 then q else q + 1

/-! ## Sizes (06 R233, R234, R247 to R249) -/

/-- 2^h · D_f. -/
def Ctx.decim (c : Ctx) : Nat := 2 ^ c.hbN * c.firD

/-- The stage numbers 1 to HB_N. -/
def Ctx.hbs (c : Ctx) : List Nat := (List.range c.hbN).map (· + 1)

/-- Delay of the stages before the resampler in half input periods (06 Table 6-2). -/
def Ctx.preHalf (c : Ctx) (b : CBank) : Nat :=
  (c.rankN - 1) + c.hbs.foldl (fun n j => n + 2 * (2 * b.m j - 1) * 2 ^ (j - 1)) 0 +
    (if c.firEn then (b.nf - 1) * 2 ^ c.hbN else 0)

/-- DELAY_HALF (06 R234). -/
def Ctx.halfDelay (c : Ctx) (b : CBank) : Nat := c.preHalf b + (if c.resEn then b.t * c.decim else 0)

/-- L_set (06 R234). -/
def Ctx.settle (c : Ctx) (b : CBank) : Nat :=
  1 + (c.rankN - 1) + c.hbs.foldl (fun n j => n + (4 * b.m j - 2) * 2 ^ (j - 1)) 0 +
    (if c.firEn then (b.nf - 1) * 2 ^ c.hbN else 0) + (if c.resEn then (b.t - 1) * c.decim else 0)

/-- The output period of a grid context in ticks (07 Table 7-14). -/
def Ctx.outPeriod (c : Ctx) (per : Nat) : Nat := if c.resEn then c.resPeriod else per * c.decim

/-- A slot word gives results of channel `c`: it converts the channel, or a DMD channel with RATIO whose partner it is (05
R204). -/
def Tile.yields (T : Tile) (c : Nat) (w : Word) : Bool :=
  let i := Slot.input w
  i = c || (i < 32 && (T.chan i).isRatio && T.partOk i && (T.chan i).part = c)

/-- The input rate in inputs per tick, as a fraction (06 R247). -/
def Tile.inRate (T : Tile) (c : Ctx) : Nat × Nat :=
  if c.grid then (1, (T.seq c.seqN).interval)
  else fracSum ((T.armedSeqs.flatMap fun x =>
      (x.2.used.filter (T.yields c.srcCh)).map fun _ => (1, x.2.interval)) ++
    (if T.cv.injW ≠ 0 then [(1, T.cv.injGap * us)] else []))

/-- The rate of a context's outputs per tick. -/
def Tile.outRate (T : Tile) (c : Ctx) : Nat × Nat :=
  let (a, b) := T.inRate c
  if c.resEn then (1, c.resPeriod) else (a, b * c.decim)

/-- The rate of its tap samples per tick. -/
def Tile.tapRate (T : Tile) (c : Ctx) : Nat × Nat := if bit c.det 27 then T.outRate c else T.inRate c

/-- Demand in 10,000 MAC/s, rounded up (06 R247). -/
def Tile.demand (T : Tile) (c : Ctx) (b : CBank) : Nat :=
  let (f, g) := T.inRate c
  let (tf, tg) := T.tapRate c
  let (x, y) := fracSum ([(2 * f, g), (c.rankN * f, g)] ++ (c.hbs.map fun j => ((b.m j + 1) * f, g * 2 ^ j)) ++
    (if c.firEn then [((b.nf + 1) / 2 * f, g * c.decim)] else []) ++
    (if c.resEn then [(b.t, c.resPeriod)] else []) ++
    (if c.detOn then [((b2n (bit c.det 31) + b2n (bit c.det 30) + b2n (bit c.det 28)) * tf, tg)] else []))
  ceilDiv (x * 10000) (max y 1)

/-- State words (06 R248). -/
def Ctx.memWords (c : Ctx) (b : CBank) : Nat :=
  8 + c.rankN + c.hbs.foldl (fun n j => n + (4 * b.m j - 1)) 0 + (if c.firEn then b.nf else 0) +
    (if c.resEn then b.t else 0) + (if c.detOn then 8 else 0)

/-- Delivery rate in Mbit/s, rounded up (06 R249). -/
def Tile.streamRate (T : Tile) (c : Ctx) : Nat :=
  let (f, g) := T.outRate c
  let bb := blockBytes c.blockN
  ceilDiv (f * 100 * (if c.grid then 32 else 96) * bb) (max (g * (bb - 64)) 1)

/-- Samples that a block holds (07 R278). -/
def Ctx.blockLen (c : Ctx) : Nat := (blockBytes c.blockN - 64) / (if c.grid then 4 else 12)

/-- Committed demand of a pipeline: a fade counts its context twice (06 R241). -/
def Pipe.committed (P : Pipe) : Nat :=
  P.ctxs.foldl (fun n c => if c.run then n + c.demand + (if c.r.fade.isSome then c.demand else 0) else n) 0

/-- Committed state words of a pipeline. -/
def Pipe.memUsed (P : Pipe) : Nat := P.ctxs.foldl (fun n c => if c.run then n + c.mem else n) 0

/-- Committed stream rate to a port in Mbit/s (06 R249). -/
def State.budget (p : PortId) (s : State) : Nat :=
  s.pipes.foldl (fun n P => P.ctxs.foldl (fun n c => if c.run && c.r.port = p then n + c.rate else n) n) 0

/-- A bank is in force in a running context, or an end of a fade (06 R240). -/
def Pipe.bankUsed (P : Pipe) (k : Nat) : Bool :=
  P.ctxs.any fun c => c.run && (c.bankNow = k || (match c.r.fade with | some f => f.dst = k | none => false))

/-! ## One input through the stages -/

/-- What one input gives: detector windows and output samples. -/
inductive PipeAct where
  | det (inst : Int) (marks : Nat) (wide : List Int)
  | out (ts : Tick) (w : Word) (inst : Int)
  deriving DecidableEq, Repr

/-- Marks of the last `l` inputs: START 32, GAP 16, RSW 8, CHSW 4, SAT 1 (06 R235). -/
def CtxRun.marks (r : CtxRun) (l : Nat) : Nat :=
  (r.supp.take l).foldl (· ||| ·) (if r.n < l then 32 else 0)

/-- One tap sample through the detectors (06 R237, R238). -/
def Ctx.detect (v : Int) (marks : Nat) (inst : Int) (c : Ctx) : Ctx × List PipeAct :=
  if !c.detOn then (c, [])
  else
    let d := c.r.det
    let x : Int := v.natAbs * 65536
    let e := d.env.getD (Config.envStart v.natAbs)
    let e := e + roundHalfEven (x - e) (2 ^ (if e < x then fld c.det 26 23 else fld c.det 22 19))
    let first := d.cnt = 0
    let d : Det := { cnt := d.cnt + 1, hi := if first then v else max d.hi v, lo := if first then v else min d.lo v,
                     sum := (if first then 0 else d.sum) + v,
                     sq := (if first then 0 else d.sq) + v.natAbs * v.natAbs,
                     env := some e, marks := (if first then 0 else d.marks) ||| marks }
    if d.cnt = c.window then
      let a := d.cnt * d.sq - (if bit c.det 29 then d.sum.natAbs * d.sum.natAbs else 0)
      let pk (y : Int) := if bit c.det 31 then y else 0
      let wide := [pk d.hi, pk d.lo, if bit c.det 30 then (rootOver a d.cnt : Int) else 0,
                   if bit c.det 28 then roundHalfEven e 65536 else 0]
      ({ c with r := { c.r with det := { d with cnt := 0 } } }, [.det inst d.marks wide])
    else ({ c with r := { c.r with det := d } }, [])

/-- The progress of a fade by one output sample (06 R242), with the header of a BANK_SELECT that completes. -/
def Ctx.fadeOn (c : Ctx) : Ctx × List Hdr :=
  match c.r.fade with
  | none => (c, [])
  | some f =>
    if f.f ≤ f.i then ({ c with bankNow := f.dst, r := { c.r with fade := none } }, [f.h])
    else ({ c with r := { c.r with fade := some { f with i := f.i + 1 } } }, [])

/-- An output sample: the word of Table 6-4, the detectors tapped there, and the progress of a fade (06 R242). The last
part is the header of a BANK_SELECT that completes. -/
def Ctx.emitOut (y : Int × Bool) (sm : Nat) (ts : Tick) (inst : Int) (c : Ctx) : Ctx × List PipeAct × List Hdr :=
  let marks := sm ||| (if c.r.fade.isSome then 2 else 0) ||| (if y.2 then 1 else 0)
  let w := word (marks <<< 26 + toField 25 y.1)
  let (c, ds) := if bit c.det 27 then c.detect y.1 marks inst else (c, [])
  (c.fadeOn.1, .out ts w inst :: ds, c.fadeOn.2)

/-- The resampler's outputs that its newest input completes (06 R233): products from the outermost pair inward. -/
def Ctx.resample (P : Pipe) (pr sm : Nat) (ts : Tick) : Nat → Ctx → Ctx × List PipeAct × List Hdr
  | 0, c => (c, [], [])
  | k + 1, c =>
    let t := (P.inForce c).t
    let num : Int := 2 * c.r.resK * c.resPeriod - c.r.rho0
    let den : Int := 2 * pr
    let n := num / den
    let p := roundHalfEven (64 * (num - n * den)) (2 * pr)
    let (n, p) := if p = 64 then (n + 1, 0) else (n, p)
    let at_ (j : Nat) : Int × Bool := c.r.resX.getD ((c.r.resN : Int) - 1 - (n - t / 2 + 1 + j)).toNat (0, false)
    if n + t / 2 ≤ (c.r.resN : Int) - 1 then
      let js := (List.range (t / 2)).flatMap fun j => [j, t - 1 - j]
      let y := stageOut (js.map fun j => P.coef c (232 + 16 * p.toNat + j) * (at_ j).1) (js.any fun j => (at_ j).2)
      let (c', as, hs) := c.emitOut y sm ts (c.r.resK * c.resPeriod)
      let (c', bs, gs) := Ctx.resample P pr sm ts k { c' with r := { c'.r with resK := c'.r.resK + 1 } }
      (c', as ++ bs, hs ++ gs)
    else (c, [], [])

/-- One input value through rank filter, tap and halvings: what the tap's detectors send, and a value for the rest of the
chain (06 R223, R230 to R232). -/
def Ctx.front (P : Pipe) (per : Nat) (v : Int) (tau : Int) (ts : Tick) (c : Ctx) : Ctx × List PipeAct × Option (Int × Bool) :=
  let nr := c.rankN
  let rank := if nr = 0 then [] else if c.r.rank.isEmpty then List.replicate nr v else (v :: c.r.rank).take nr
  let x := if nr = 0 then v else kth c.rankK rank
  let tap : Int := if c.grid then tau - ((nr - 1) / 2 : Nat) * (per : Int) else ts
  let d := if bit c.det 27 then (c, []) else c.detect x (c.r.marks (max nr 1)) tap
  let hb := if c.r.hb.isEmpty then List.replicate c.hbN {} else c.r.hb
  let y := hbChain (P.coef c) (P.inForce c).m 1 hb (x, false)
  ({ d.1 with r := { d.1.r with rank := rank, hb := y.1 } }, d.2, y.2)

/-- A value out of the halvings through FIR and resampler to the output samples that it completes (06 R232 to R236). -/
def Ctx.rear (P : Pipe) (per : Nat) (tau : Int) (ts : Tick) (y : Int × Bool) (c : Ctx) : Ctx × List PipeAct × List Hdr :=
  let b := P.inForce c
  let g := c.r.fir
  let g' := if c.firEn then g.push b.nf y else g
  let c := { c with r := { c.r with fir := g' } }
  if c.firEn && g.n % c.firD ≠ c.firD - 1 then (c, [], [])
  else
    let y := if c.firEn then firOut (P.coef c) b.nf b.anti g' else y
    let sm := c.r.marks c.lset
    if c.resEn then
      let first := c.r.resN = 0
      let rho := if first then 2 * tau - c.preHalf b * per else c.r.rho0
      let k0 := if first then -((-rho) / (2 * c.resPeriod)) else c.r.resK
      let c := { c with r := { c.r with
        rho0 := rho, resK := k0, resN := c.r.resN + 1,
        resX := if first then List.replicate 32 y else (y :: c.r.resX).take 32 } }
      c.resample P (per * c.decim) sm ts 8
    else c.emitOut y sm ts (if c.grid then tau - c.delay else ts)

/-- One input value of a running context: `tau` its grid instant, `ts` its timestamp, `mark` its reason bits (06 R219,
R235, R236). -/
def Ctx.take (P : Pipe) (per : Nat) (v : Int) (mark : Nat) (tau : Int) (ts : Tick) (dic : Bool) (c : Ctx) :
    Ctx × List PipeAct × List Hdr :=
  let c := { c with r := { c.r with n := c.r.n + 1, last := v, ts := ts, supp := (mark :: c.r.supp).take (max c.lset 16) } }
  if dic then (c.fadeOn.1, [.out ts (word (toField 32 v)) 0], c.fadeOn.2)
  else
    let x := c.front P per v tau ts
    match x.2.2 with
    | none => (x.1, x.2.1, [])
    | some y =>
      let z := x.1.rear P per tau ts y
      (z.1, x.2.1 ++ z.2.1, z.2.2)

/-! ## Blocks -/

/-- The context ends: its STREAM_END event, and the completion of the STREAM_STOP that ended it (06 R245). -/
def State.endCtx (p c : Nat) (s : State) : State :=
  let x := s.ctx p c
  let s := s.modCtx p c fun x => { x with run := false, ending := none, stopH := [], demand := 0, mem := 0, rate := 0, r := {} }
  let s := s.emitHub 0x0D (payload [(16, 2, 32 * p + c), (18, 1, x.ending.getD 0), (20, 4, x.r.delivered)])
  forAll (fun h s => s.reply h 0x51 (Reply.ok 0)) x.stopH s

/-- The context's stream ring can take its blocks (07 R257, R295). -/
def State.ringTakes (p c : Nat) (s : State) : Bool :=
  let x := s.ctx p c
  let q := (s.port x.r.port).ring x.r.ring
  s.portRuns x.r.port && q.active && q.ty = 3 && q.block = x.blockN

/-- A waiting block is written when its ring has a free slot (06 R244, 07 R294). INDEX of DL_STREAM, which Table 9-5 names
only `context`, is the context's number in its pipeline (log 29). -/
def State.pumpCtx (p c : Nat) (s : State) : State :=
  let x := s.ctx p c
  match x.r.wait with
  | none => s
  | some b =>
    let P := s.port x.r.port
    if s.ringTakes p c && (P.ring x.r.ring).free 1 then
      let miss := b.deadline ≠ 0 ∧ b.deadline < s.now
      let s := if miss ∧ !b.dl then s.raise (19 + p) 0 c 0 (sat 0xFFFFFFFF (s.now - b.deadline))
        else if b.dl then s.lateness (19 + p) 0 c (s.now - b.deadline) else s
      let s := if b.deadline ≠ 0 ∧ !miss then s.margin (19 + p) 1 (b.deadline - s.now) else s
      let b := { b with lost := x.r.lost, dl := b.dl || decide miss }
      let s := s.modPort x.r.port fun P => P.wrote x.r.ring 1 [.block (P.slot x.r.ring) b]
      let s := s.modCtx p c fun x => { x with r := { x.r with wait := none, lost := 0, delivered := x.r.delivered + 1 } }
      if b.final then s.endCtx p c else s
    else s

/-- Every waiting block is offered to its ring. -/
def State.pumpStreams (s : State) : State :=
  forAll (fun i s => if (s.ctx (i / 32) (i % 32)).r.wait.isSome then s.pumpCtx (i / 32) (i % 32) else s) (List.range 512) s

/-- The partial block closes (06 R244): a block that still waits is dropped and counted (07 R294). -/
def State.closeBlock (p c : Nat) (final : Bool) (s : State) : State :=
  let x := s.ctx p c
  let per := ((s.tile p).seq x.seqN).interval
  let b : Block := { ctx := 32 * p + c, first := if x.grid then x.r.partFirst else 0,
                     period := if x.grid then x.outPeriod per else 0, samples := x.r.part.reverse, bseq := x.r.bseq,
                     close := s.now, grid := x.grid, dic := x.r.dic, final := final,
                     delay := x.delay, src := 32 * p + x.r.ch,
                     deadline := if x.dl = 0 then 0 else x.r.partLast + x.dl }
  let drop := x.r.wait.isSome
  let s := if drop then s.modPort x.r.port fun P => P.modRing x.r.ring fun q => { q with lost := satInc 0xFFFF q.lost } else s
  let s := s.modCtx p c fun x => { x with r := { x.r with part := [], bseq := x.r.bseq + 1, wait := some b,
                                                          lost := if drop then x.r.lost + 1 else x.r.lost } }
  s.pumpCtx p c

/-- A detector event (06 R238, 07 R276) or an output sample into the block (06 R244). -/
def State.pipeAct (p c : Nat) (a : PipeAct) (s : State) : State :=
  match a with
  | .det inst marks wide =>
    let x := s.ctx p c
    s.emitHubAt s.now 0x0E (payload [(16, 8, toField 64 inst), (24, 2, p <<< 12 + c <<< 7 + marks <<< 1),
      (26, 1, b2n (bit x.det 31) + 2 * b2n (bit x.det 30) + 4 * b2n (bit x.det 28))]) wide true
  | .out ts w inst =>
    let s := s.modCtx p c fun x => { x with r := { x.r with
      partFirst := if x.r.part.isEmpty then inst else x.r.partFirst,
      partAt := if x.r.part.isEmpty then s.now else x.r.partAt, partLast := s.now,
      part := (if x.grid then 0 else ts, w) :: x.r.part } }
    let x := s.ctx p c
    if x.blockLen ≤ x.r.part.length then s.closeBlock p c false else s

/-- One input value to a context, with what it gives. -/
def State.feedCtx (p c : Nat) (v : Int) (mark : Nat) (tau : Int) (ts : Tick) (dic : Bool) (s : State) : State :=
  let f := Ctx.take (s.pipe p) ((s.tile p).seq (s.ctx p c).seqN).interval v mark tau ts dic
  let r := f (s.ctx p c)
  let s := forAll (State.pipeAct p c) r.2.1 (s.modCtx p c fun x => (f x).1)
  forAll (fun h s => s.reply h 0x54 (Reply.ok 0)) r.2.2 s

/-- A filled input (06 R222). -/
def State.gapCtx (p c : Nat) (tau : Int) (ts : Tick) (dic : Bool) (s : State) : State :=
  let s := s.modCtx p c fun x => { x with gaps := satInc 0xFFFF x.gaps }
  s.feedCtx p c (s.ctx p c).r.last 16 tau ts dic

/-- `k` grid indices from `i` on that neither a result nor a notice reached (06 R222). -/
def State.gapRun (p c per : Nat) : Nat → Nat → State → State
  | 0, _, s => s
  | k + 1, i, s =>
    let tau := (s.ctx p c).r.tau0 + (i : Int) * per
    State.gapRun p c per k (i + 1) (s.gapCtx p c tau tau.toNat false)

/-- A result or gap notice of its grid slot (06 R221, R222). -/
def State.gridInput (p c : Nat) (i : PipeIn) (s : State) : State :=
  let x := s.ctx p c
  let per := ((s.tile p).seq x.seqN).interval
  let mark := if i.gap then 16 else (if i.rsw then 8 else 0) ||| (if i.ovr then 1 else 0)
  match x.r.trig0 with
  | none =>
    if i.gap then s
    else
      let s := s.modCtx p c fun x => { x with r := { x.r with trig0 := some i.trig, tau0 := i.ts, nextIdx := 1, retake := false } }
      s.feedCtx p c i.value mark i.ts i.ts false
  | some t0 =>
    let n := (i.trig - t0) / per
    if i.trig < t0 ∨ n < x.r.nextIdx then s
    else
      let s := s.gapRun p c per (n - x.r.nextIdx) x.r.nextIdx
      let s := s.modCtx p c fun x => { x with r := { x.r with
        nextIdx := n + 1,
        tau0 := if x.r.retake ∧ !i.gap then (i.ts : Int) - n * per else x.r.tau0, retake := x.r.retake && i.gap } }
      let tau := (s.ctx p c).r.tau0 + (n : Int) * per
      if i.gap then s.gapCtx p c tau tau.toNat false else s.feedCtx p c i.value mark tau i.ts false

/-- The lowest slot of a sequence that converts channel `c`. -/
def Seq.slotOf (q : Seq) (c : Nat) : Option Nat := q.used.findIdx? fun w => Slot.input w = c

/-- A source switch takes effect (06 R225): the last input before it carries CHSW for every support that spans it. -/
def State.switchCtx (p c ch : Nat) (h : Hdr) (s : State) : State :=
  let s := s.modCtx p c fun x => { x with r := { x.r with
    ch := ch, slot := ((((s.tile p).seq x.seqN).slotOf ch).getD x.r.slot), pendSrc := none, retake := x.grid,
    supp := match x.r.supp with | m :: ms => (m ||| 4) :: ms | [] => [] } }
  s.reply h 0x52 (Reply.ok 0)

/-- A result or gap notice reaches one context (06 R218 to R225, R244). -/
def State.ctxInput (p c : Nat) (i : PipeIn) (s : State) : State :=
  let x := s.ctx p c
  if !x.run || x.ending.isSome || i.acc ≤ x.r.startAt then s
  else if x.grid then
    let ours (k : Nat) := match i.seqSlot with | some (n, j) => n = x.seqN && j = k | none => false
    let ofSeq := match i.seqSlot with | some (n, _) => n = x.seqN | none => false
    let s := match x.r.pendSrc with
      | some (ch, h) => if ofSeq && h.at_ < i.trig then s.switchCtx p c ch h else s
      | none => s
    let x := s.ctx p c
    if ours x.r.slot && i.ch = x.r.ch then s.gridInput p c i
    else if i.ch = x.r.ch && !i.gap then s.modCtx p c fun x => { x with ignored := satInc 0x3FF x.ignored }
    else s
  else
    let s := match x.r.pendSrc with
      | some (ch, h) => if i.ch = ch && !i.gap && h.at_ < i.acc then s.switchCtx p c ch h else s
      | none => s
    let x := s.ctx p c
    if i.ch ≠ x.r.ch then s
    else if i.gap then (if x.r.n = 0 then s else s.gapCtx p c i.trig i.trig i.dic)
    else s.feedCtx p c i.value ((if i.rsw then 8 else 0) ||| (if i.ovr then 1 else 0)) i.ts i.ts i.dic

/-- The first result or gap notice of a tile's link traffic, and the traffic without it. -/
def popRes : List LinkItem → Option (PipeIn × List LinkItem)
  | [] => none
  | .res r :: xs => some (r, xs)
  | .ev e :: xs => match popRes xs with
    | some (r, ys) => some (r, .ev e :: ys)
    | none => none

/-- The first event of a tile's link traffic, and the traffic without it. -/
def popEv : List LinkItem → Option (Event × List LinkItem)
  | [] => none
  | .ev e :: xs => some (e, xs)
  | .res r :: xs => match popEv xs with
    | some (e, ys) => some (e, .res r :: ys)
    | none => none

/-! ## Start and end -/

/-- The allowed source modes of a context (06 R224). -/
def Mode.streams (m : Mode) : Bool := m.isMeas || m = .dic

/-- The settings of a context do not fit its source (06 R243, R220, R224, R233, R238). -/
def Tile.ctxBad (T : Tile) (P : Pipe) (x : Ctx) : Bool :=
  let b := P.banks.getD x.bank {}
  let q := T.seq x.seqN
  let ch := T.chan x.srcCh
  let bankStage := x.hbN ≠ 0 || x.firEn || x.resEn
  let (tf, tg) := T.tapRate x
  let pr := q.interval * x.decim
  !ch.mode.streams ||
    (ch.mode = .dic && (x.grid || x.rankN ≠ 0 || bankStage || x.detOn)) ||
    (x.grid && (q.src ≠ 1 || q.len ≤ x.slotN || Slot.input (q.slots.getD x.slotN 0) ≠ x.srcCh)) ||
    (!x.grid && (x.hbN ≠ 0 || 1 < x.firD || x.resEn)) ||
    (bankStage && (!b.valid || x.hbs.any (fun j => b.m j = 0) || (x.resEn && b.t = 0))) ||
    (x.resEn && (4 * x.resPeriod < pr || 16 * pr < x.resPeriod)) ||
    (x.detOn && x.window * tg < tf * 100000)

/-- A running context that ends (06 R245, R246): what waits for it completes with ABORTED, and what it produced goes
into a final block. With reason RING, or under STREAM_STOP while its ring is disabled, that block is discarded
(07 R295). -/
def State.stopCtx (p c reason : Nat) (h : Option Hdr) (s : State) : State :=
  let x := s.ctx p c
  if !x.run then s
  else
    let s := match x.r.fade with | some f => s.reply f.h 0x54 { st := 6 } | none => s
    let s := match x.r.pendSrc with | some (_, g) => s.reply g 0x52 { st := 6 } | none => s
    let s := s.modCtx p c fun x => { x with
      bankNow := (match x.r.fade with | some f => f.dst | none => x.bankNow), stopH := x.stopH ++ h.toList,
      ending := some (if reason = 4 then 4 else x.ending.getD reason), r := { x.r with fade := none, pendSrc := none, det := {} } }
    if reason = 4 ∨ (h.isSome ∧ !s.ringTakes p c) then (s.modCtx p c fun x => { x with r := { x.r with wait := none, part := [] } }).endCtx p c
    else if !x.r.part.isEmpty then s.closeBlock p c true
    else match x.r.wait with
      | some _ =>
        (s.modCtx p c fun x => { x with r := { x.r with wait := x.r.wait.map fun b => { b with final := true } } }).pumpCtx p c
      | none => s.endCtx p c

/-- Every running context of a pipeline that satisfies `f` ends. -/
def State.stopWhere (p reason : Nat) (f : Ctx → Bool) (s : State) : State :=
  forAll (fun c s => let x := s.ctx p c; if x.run && x.ending.isNone && f x then s.stopCtx p c reason none else s) (List.range 32) s

/-- A context starts (06 R243, R244; the checks are made). -/
def State.startCtx (p c : Nat) (port : PortId) (ring : Nat) (s : State) : State :=
  let T := s.tile p
  let x := s.ctx p c
  let b := (s.pipe p).banks.getD x.bank {}
  let half := x.halfDelay b
  s.modCtx p c fun x => { x with
    run := true, bankNow := x.bank, ignored := 0, gaps := 0, lset := x.settle b, delayHalf := half,
    delay := if x.grid then (roundHalfEven (half * (T.seq x.seqN).interval) 2).toNat else 0xFFFFFFFF,
    demand := T.demand x b, mem := x.memWords b, rate := T.streamRate x, ending := none, stopH := [],
    r := { port := port, ring := ring, ch := x.srcCh, slot := x.slotN, dic := (T.chan x.srcCh).mode = .dic, startAt := s.now } }

end Sys2Proof.Machine
end

