-- ==== Sys2Proof/Machine/Convert.lean ====
section
/-!
DEFINITION. Conversion results: range windows and ranging, wire-break checks, normalisation to the code weight,
linearisation and trim, and the accession of a result (04 R126 to R148, R169 to R176; 05 R199 to R204, R214 to R217).
-/
namespace Sys2Proof.Machine

/-! ## Range windows and prediction -/

/-- The gain codes of a channel's set from narrowest to widest (05 Table 5-6). -/
def Chan.gainList (ch : Chan) : List Nat :=
  match ch.gains with
  | some (lo, hi) => ((List.range (hi - lo + 1)).map (lo + ·)).reverse
  | none => []

/-- The widest code of the set. -/
def Chan.widest (ch : Chan) : Nat := match ch.gains with | some (lo, _) => lo | none => 0

/-- The narrowest code whose scale fits a front-end value (05 R201, select). -/
def Chan.selectGain (ch : Chan) (v : Int) : Nat :=
  (ch.gainList.find? fun g => 125 * v.natAbs ≤ 95 * fullScale g).getD ch.widest

/-- |x| ≤ 0.95 × FS (05 R200). -/
def belowTop (g : Nat) (x : Int) : Bool := 100 * x.natAbs ≤ 95 * fullScale g

/-- |x| ≥ 0.03 × FS (05 R200). -/
def aboveFloor (g : Nat) (x : Int) : Bool := 3 * fullScale g ≤ 100 * x.natAbs

/-- A value lies in the window of an attempt of an AUTO slot (05 R200). -/
def Chan.inWindow (ch : Chan) (g attempt : Nat) (x : Int) (clamp : Bool) : Bool :=
  !clamp && belowTop g x && (2 ≤ attempt || (match ch.gains with | some (_, hi) => g = hi | none => true) || aboveFloor g x)

/-- The gain of the next attempt (05 R201). -/
def Chan.nextGain (ch : Chan) (g attempt : Nat) (x : Int) (clamp : Bool) : Nat :=
  if attempt = 0 then
    if !aboveFloor g x && !clamp then ch.selectGain x
    else (ch.gainList.find? fun k => 4 * fullScale g ≤ fullScale k).getD ch.widest
  else ch.widest

/-- The ranging history of an input on a converter; the V(c + 1) side of a 3-wire input has number 64 + c. -/
def ConvUnit.histOf (v : ConvUnit) (conv input : Nat) : Option Hist := v.hist.find? fun h => h.conv = conv && h.input = input

/-- The history as it stands for a sampling instant: void when that lies more than 1 s after the last result (05 R199). -/
def ConvUnit.histAt (v : ConvUnit) (conv input : Nat) (ts : Tick) : Option Hist :=
  match v.histOf conv input with
  | some h => match h.last with
    | (_, t1) :: _ => if t1 + sec < ts then none else some h
    | [] => none
  | none => none

/-- The predicted front-end value at a sampling instant (05 R201, predict), rounded half to even to 1 nV. -/
def ConvUnit.predict (v : ConvUnit) (conv input : Nat) (ts : Tick) : Option Int :=
  match v.histAt conv input ts with
  | none => none
  | some h => match h.last with
    | [] => none
    | [(x1, _)] => some x1
    | (x1, t1) :: (x0, t0) :: _ =>
      if t1 ≤ t0 then some x1 else some (x1 + roundHalfEven ((x1 - x0) * ((ts : Int) - t1)) (t1 - t0))

/-- The history of an input voided (05 R199). -/
def ConvUnit.voidHist (input : Nat) (v : ConvUnit) : ConvUnit :=
  { v with hist := v.hist.filter fun h => h.input ≠ input && h.input ≠ 64 + input }

/-- An accessioned front-end value enters the history. -/
def ConvUnit.learn (conv input gain : Nat) (x : Int) (ts : Tick) (v : ConvUnit) : ConvUnit :=
  let old := match v.histAt conv input ts with | some h => h.last.take 1 | none => []
  { v with hist := { conv := conv, input := input, last := (x, ts) :: old, gain := gain, gain2 := 0 } ::
      v.hist.filter fun h => !(h.conv = conv && h.input = input) }

/-- Some side of a conversion differs in its gain from the result before it in the history (05 R202). -/
def ConvUnit.switched (conv : Nat) (ts : Tick) (sides : List (Nat × Nat × Int)) (v : ConvUnit) : Bool :=
  sides.any fun x => match v.histAt conv x.1 ts with
    | some h => h.gain ≠ x.2.1
    | none => false

/-- Front-end values enter the history (05 R199). -/
def ConvUnit.learnAll (conv : Nat) (ts : Tick) (sides : List (Nat × Nat × Int)) (v : ConvUnit) : ConvUnit :=
  sides.foldl (fun v x => v.learn conv x.1 x.2.1 x.2.2 ts) v

/-! ## Normalisation -/

/-- Front-end voltage of one code in nV (04 Table 4-3; AII 48 Ω × 5 nA, resistance by its current of Table 4-5). -/
def Chan.nvPerCode (ch : Chan) : Nat :=
  match ch.mode with
  | .aiv => if ch.range = 2 then 200 else if ch.range = 3 then 20 else 2000
  | .aii => 240
  | .airtd | .aires => if ch.range = 0 then 1000 else 200
  | _ => 20

/-- The same of an internal input (05 Table 5-4); temperature sensors are read in 0.001 °C. -/
def internalNv (i : Nat) : Nat :=
  if i = 34 then 500 else if i = 35 || i = 36 then 10000 else if i = 43 then 20 else 2000

/-- A converter value with the gain's offset removed and its gain applied, in 2^0 of a millionth of 1 nV (05 R214). -/
def ConvUnit.calibrated (v : ConvUnit) (conv g : Nat) (x : Int) : Int :=
  let (o, p) := (if conv = 1 then v.cal.coefF else v.cal.coefP).getD g (0, 0)
  (x - o) * (1000000 + p)

/-- The overrange limits of Table 4-5 in codes before linearisation; none for DMD. -/
def Chan.limits (ch : Chan) : Option (Int × Int) :=
  match ch.mode with
  | .aiv => if ch.range = 1 then some (-250000, 5400000) else some (-5400000, 5400000)
  | .aii => some (0, 4800000)
  | .airtd | .aires => if ch.range = 0 then some (0, 420000) else if ch.range = 1 then some (0, 4200000) else some (0, 5200000)
  | .aitc => some (-5400000, 5400000)
  | _ => none

/-- The ends of a thermocouple's linearisation range in 0.001 °C (04 Table 4-8). -/
def tcRange (r : Nat) : Int × Int :=
  [((-210000 : Int), (1200000 : Int)), (-270000, 1372000), (-270000, 1300000), (-270000, 400000), (-270000, 1000000),
    (-50000, 1768000), (250000, 1820000)].getD r (-270000, 1372000)

/-- The cold-junction temperature of an AITC channel in 0.001 °C (04 R136). -/
def Tile.coldJunction (T : Tile) (ch : Chan) : Int :=
  match ch.cjc with
  | 0 => T.cjc
  | 1 => (T.chan ch.cjcCh).m.y
  | _ => 10 * T.cjcFixed

/-- The largest of the numbers from `lo` up to `lo + 2^n − 1` at which `p` holds, of a `p` that holds up to some number. -/
def lastHolding (p : Int → Bool) : Nat → Int → Int
  | 0, lo => lo
  | n + 1, lo => if p (lo + 2 ^ n) then lastHolding p n (lo + 2 ^ n) else lastHolding p n lo

/-- A rising characteristic `f` of the temperature in 0.0005 °C inverted over `lo` to `hi`, in 0.001 °C, rounded half to
even: the value, or the nearer end and true outside the range. -/
def invertRising (f : Int → Int) (e lo hi : Int) : Int × Bool :=
  if e < f (2 * lo) then (lo, true)
  else if f (2 * hi) < e then (hi, true)
  else
    let h := lastHolding (fun h => h ≤ 2 * hi && f h ≤ e) 22 (2 * lo)
    let m := h / 2
    (if h % 2 = 0 then m else if f h = e && m % 2 = 0 then m else m + 1, false)

/-- The Callendar–Van Dusen equation (04 R133): the ratio of the resistance to that at 0 °C, in 2^−4 of 10^−27, at a
temperature in 0.0005 °C, with A = 3.9083e−3, B = −5.775e−7 and, below 0 °C, C = −4.183e−12 (PRESUMED from IEC 60751: log 8). -/
def callendar (h : Int) : Int :=
  16 * 10 ^ 27 + 8 * 39083 * 10 ^ 17 * h - 4 * 5775 * 10 ^ 11 * h * h - if h < 0 then 4183 * (h - 200000) * h * h * h else 0

/-- A code after linearisation, and whether the temperature lies outside the range (04 R133, R135): a resistance in mΩ of a
Pt100 or Pt1000, or the thermocouple's voltage with the cold junction's EMF added. -/
def Tile.linear (T : Tile) (ch : Chan) (x : Int) : Int × Bool :=
  if !ch.lin then (x, false)
  else if ch.mode = .airtd then
    let r0 : Int := if ch.range = 1 then 1000000 else 100000
    invertRising (fun h => r0 * callendar h) (16 * 10 ^ 27 * x) (-200000) 850000
  else
    let e := 20000 * x + Config.tcEmf ch.range (2 * T.coldJunction ch)
    invertRising (Config.tcEmf ch.range) e (tcRange ch.range).1 (tcRange ch.range).2

/-- A value at the nearer limit of its 24-bit code, and whether it did not fit (05 R217). -/
def fit24 (signed : Bool) (v : Int) : Int × Bool :=
  let w := if signed then clampInt (-8388608) 8388607 v else clampInt 0 16777215 v
  (w, w ≠ v)

/-- The result word of Table 5-13. -/
def resultWord (left signed : Bool) (v : Int) : Nat :=
  if left then toField 24 v <<< 8 else if signed then toField 32 v else toField 24 v

/-! ## Wire break (04 Table 4-13) -/

/-- A conversion carries the burnout test of an AITC channel: the BURN_N-th since the last test. -/
def Chan.burnTest (ch : Chan) : Bool := ch.mode = .aitc && ch.wbEn && fld ch.cfg 7 0 ≤ ch.m.burnCnt + 1

/-- The check of a conversion finds the wire broken. `burn` says that the conversion carries a burnout test. -/
def Chan.broken (ch : Chan) (burn : Bool) (s : Sample) : Bool :=
  ch.wbEn &&
    match ch.mode with
    | .airtd | .aires => 4800 < s.chk || 50 < s.chk2
    | .aitc => burn && 5000 < s.chk
    | .aii => ch.range = 1 && s.chk < 500000
    | _ => false

/-! ## Accession of a result -/

/-- The end of a trim capture that waits for a result (04 R172, R173): a command's completion or the button's event. -/
def State.endCapture (t c : Nat) (cap : TrimCap) (st : Nat) (s : State) : State :=
  let ch := s.chan t c
  match cap.h with
  | some h => s.reply h 0x14 (if st = 0 then Reply.ok (payload [(16, 4, toField 32 ch.trimOfs), (20, 4, ch.trimGain),
      (24, 4, s.tnow t)]) else { st := st })
  | none => s.emit t cap.button 0x0B (if st = 0 then payload [(16, 1, if cap.span then 4 else 3)]
      else payload [(16, 1, 6), (17, 1, st)])

/-- A valid result ends a waiting ZERO or SPAN: OFS becomes x, or GAIN becomes 2^22 × REF ÷ (x − OFS) rounded half to
even (04 R172). -/
def State.captureOne (t c : Nat) (x : Int) (cap : TrimCap) (s : State) : State :=
  let ch := s.chan t c
  if cap.span then
    let d := x - ch.trimOfs
    let g := if d = 0 then 0 else if 0 < d then roundHalfEven (4194304 * cap.ref) d.natAbs
      else roundHalfEven (-(4194304 * cap.ref)) d.natAbs
    if d ≠ 0 ∧ 0 ≤ g ∧ gainOk g.toNat then (s.trimChange t c ch.trimOfs g.toNat).endCapture t c cap 0
    else s.endCapture t c cap 1
  else if ch.ofsOk x then (s.trimChange t c x ch.trimGain).endCapture t c cap 0
  else s.endCapture t c cap 1

/-- Every waiting ZERO and SPAN of the channel takes its valid result. -/
def State.captureTrim (t c : Nat) (x : Int) (s : State) : State :=
  forAll (State.captureOne t c x) (s.chan t c).caps (s.modChan t c fun ch => { ch with caps := [] })

/-- A running stream context of the tile's pipeline takes, or will take, results of channel `c`. -/
def State.streamed (t c : Nat) (s : State) : Bool :=
  (s.pipe t).ctxs.any fun x => x.run && x.ending.isNone &&
    (x.r.ch = c || (match x.r.pendSrc with | some (k, _) => k = c | none => false))

/-- The inputs of which one conversion of input `i` gives results: a DMD channel with RATIO brings its partner (05 R204). -/
def Tile.pair (T : Tile) (i : Nat) : List Nat :=
  i :: if i < 32 && (T.chan i).isRatio && T.partOk i then [(T.chan i).part] else []

/-- A provisional result of an input discarded with its FATE (02 R46): an internal input has no vitrine of its own. -/
def State.discardIn (t i fate : Nat) (s : State) : State :=
  if i < 32 then s.discard t i 0 fate else s.modTile t fun T => { T with vitDisc := satInc 0xFFFFFFFF T.vitDisc }

/-- A slot that feeds a stream context sends a gap notice (06 R222). -/
def State.gapNotice (t c : Nat) (seqSlot : Option (Nat × Nat)) (trig : Tick) (s : State) : State :=
  if s.streamed t c && seqSlot.isSome then
    s.linkPush t (.res { ch := c, seqSlot := seqSlot, trig := trig, ts := trig, gap := true, acc := s.tnow t })
  else s

/-- Diagnoses of an accessioned AII conversion (04 Table 4-6): ALARM_LO and ALARM_HI by x in 5 nA codes. -/
def State.classify (t c : Nat) (x : Int) (s : State) : State :=
  let ch := s.chan t c
  if ch.mode = .aii && ch.range = 1 && bit ch.cfg 18 then
    (s.setDiag t c 2 (x ≤ 720000)).setDiag t c 3 (4200000 ≤ x)
  else s

/-- A channel's result is accessioned (02 Table 2-1; 04 R126, R169, R170; 05 R214 to R217): `raw` is the code before
linearisation, `flags` the flags but OVERRANGE, `seqSlot` and `trig` its slot and scan, `tested` that it passed its wire-break
check or that none is due: WIRE_BREAK ends (R147). -/
def State.accResult (t c : Nat) (raw : Int) (ts : Tick) (flags attempt gain : Nat) (seqSlot : Option (Nat × Nat))
    (trig : Tick) (evt tested : Bool) (s : State) : State × Nat × Nat :=
  let T := s.tile t
  let ch := T.chan c
  let past := match ch.limits with | some (lo, hi) => raw < lo || hi < raw | none => false
  let (x, out) := T.linear ch raw
  let (o, g) := ch.trimAt ts
  let (y, sat) := fit24 ch.signed (roundHalfEven ((x - o) * g) 4194304)
  let flags := flags ||| (if past || sat then 0x400 else 0)
  let w := resultWord T.cv.align ch.signed y
  let s := s.modMeas t c fun m => { m with has := true, x := x, y := y, ts := ts }
  let s := s.accessioned t c 0 (resultWord false ch.signed y) ts attempt gain
  let s := s.setDiag t c 1 (past || sat)
  let s := if tested then s.setDiagX t c 0 false 0 (if ch.mode = .aitc then ch.m.burnAt % 2 ^ 32 else 0) else s
  let s := (s.setDiag t c 4 out).classify t c x
  let s := if evt then
      let (n, k) := seqSlot.getD (0, 0)
      s.emitAt t c ts 2 (payload [(16, 4, w), (20, 2, flags), (22, 1, c), (23, 1, k), (24, 1, n)]) true
    else s
  let s := if s.streamed t c then
      s.linkPush t (.res { ch := c, seqSlot := seqSlot, trig := trig, ts := ts, value := y, rsw := flags.testBit 15,
                           ovr := flags.testBit 10, acc := s.tnow t })
    else s
  let s := s.deriveChan t c
  let s := if (s.tile t).valid c then (s.modTile t (Tile.feedMirrors c y)).captureTrim t c x else s
  (s.refreshAt t none ts, w, flags)

/-- A result of an internal input (05 R181, R217): an event of the tile as a whole. -/
def State.accInternal (t i : Nat) (v : Int) (ts : Tick) (flags : Nat) (seqSlot : Option (Nat × Nat)) (evt : Bool)
    (s : State) : State × Nat × Nat :=
  let (y, sat) := fit24 true v
  let flags := flags ||| (if sat then 0x400 else 0)
  let w := resultWord (s.tile t).cv.align true y
  let s := if evt then
      let (n, k) := seqSlot.getD (0, 0)
      s.emitAt t 32 ts 2 (payload [(16, 4, w), (20, 2, flags), (22, 1, i), (23, 1, k), (24, 1, n)]) true
    else s
  (s, w, flags)

/-- A conversion of channel `c` discarded with its FATE (02 R46): FATE 0b111 voids the history (05 R199), and a check that
found the wire `broken` makes WIRE_BREAK present with one event (04 R147); `ovr` makes OVERRANGE present (05 R201, R204). -/
def State.dropResult (t c fate : Nat) (broken ovr : Bool) (seqSlot : Option (Nat × Nat)) (trig : Tick) (s : State) : State :=
  let ch := s.chan t c
  let s := (s.discard t c 0 fate).gapNotice t c seqSlot trig
  let s := if fate = 7 then s.modCv t (ConvUnit.voidHist c) else s
  let s := if broken then s.setDiagX t c 0 true 0 (if ch.mode = .aitc then ch.m.burnAt % 2 ^ 32 else 0) else s
  let s := if ovr then s.setDiag t c 1 true else s
  s.refresh t

end Sys2Proof.Machine
end

