-- ==== Sys2Proof/Machine/Sequencer.lean ====
section
/-!
DEFINITION. The sequencer of a tile: scans, triggers and policies, speculation, slots and their conversions, injected
conversions, calibration and the reference (05 R184 to R210).
-/
namespace Sys2Proof.Machine

/-! ## Jobs -/

/-- The job on converter `v` (0 P, 1 F). -/
def ConvUnit.job (u : ConvUnit) (v : Nat) : Option Job := if v = 1 then u.jobF else u.jobP

/-- The job of a converter replaced. -/
def State.setJob (t v : Nat) (j : Option Job) (s : State) : State :=
  s.modCv t fun u => if v = 1 then { u with jobF := j } else { u with jobP := j }

/-- The job belongs to sequence `n`. -/
def Job.ofSeq (n : Nat) (j : Job) : Bool := match j.src with | .seq m _ => m = n | .inj _ => false

/-- The job is an injected conversion. -/
def Job.isInj (j : Job) : Bool := match j.src with | .seq _ _ => false | .inj _ => true

/-- Sequence `n` has a job in progress. -/
def ConvUnit.seqBusy (u : ConvUnit) (n : Nat) : Bool :=
  (match u.jobP with | some j => j.ofSeq n | none => false) || (match u.jobF with | some j => j.ofSeq n | none => false)

/-- Injected conversions in progress. -/
def ConvUnit.injRunning (u : ConvUnit) : Nat :=
  (match u.jobP with | some j => b2n j.isInj | none => 0) + (match u.jobF with | some j => b2n j.isInj | none => 0)

/-- A job of sequence `n` marked to be discarded with FATE `f`, as one of the scan triggered at `trig`. -/
def ConvUnit.dropSeq (n f trig : Nat) (u : ConvUnit) : ConvUnit :=
  let m (j : Option Job) := j.map fun j => if j.ofSeq n then { j with drop := some f, trig := trig } else j
  { u with jobP := m u.jobP, jobF := m u.jobF }

/-! ## Arming and disarming (05 R189, R212) -/

/-- A disarm takes effect: WORST is computed again, grid streams of the sequence end and the waiting commands complete
(05 R189, R212; 06 R246). -/
def State.finishDisarm (t n : Nat) (s : State) : State :=
  let hs := ((s.tile t).seq n).disarmH
  let s := s.modSeq t n fun q => { q with arm := false, active := false, scan := none, held := none, disarmH := [] }
  let s := (s.modTile t Tile.setWorst).stopWhere t 1 fun x => x.grid && x.seqN = n
  forAll (fun h s => s.reply h 0x31 (Reply.ok 0)) hs s

/-- The sequence whose disarm waits has come to rest. -/
def State.restSeq (t n : Nat) (s : State) : State :=
  let T := s.tile t
  let q := T.seq n
  if q.active && !q.arm && q.scan.isNone && !T.cv.seqBusy n then s.finishDisarm t n else s

/-- The gap notices of the slots of a scan from slot `from_` on, which are not converted (06 R222). -/
def State.gapSlots (t n from_ trig : Nat) (s : State) : State :=
  let T := s.tile t
  let q := T.seq n
  forAll (fun k s => forAll (fun i s => if i < 32 then s.gapNotice t i (some (n, k)) trig else s)
    (T.pair (Slot.input (q.slots.getD k 0))) s) ((List.range q.len).drop from_) s

/-- An unconfirmed speculative scan ends (05 R198): its results are discarded with FATE 0b011, the running conversion at
its end. -/
def State.cancelSpec (t n : Nat) (s : State) : State :=
  match ((s.tile t).seq n).scan with
  | some sc =>
    let s := forAll (fun (r : Result) s =>
        let s := s.discardIn t r.input 3
        if r.input < 32 then s.gapNotice t r.input r.seqSlot sc.trig else s) sc.held s
    let s := s.gapSlots t n (sc.slot + b2n ((s.tile t).cv.seqBusy n)) sc.trig
    ((s.modCv t (ConvUnit.dropSeq n 3 sc.trig)).modSeq t n fun q => { q with scan := none, specWait := 2 }).restSeq t n
  | none => s

/-- ARM = 0 (05 R189): it takes effect when the scan in progress ends; held and carried triggers are dropped. -/
def State.disarmSeq (t n : Nat) (hs : List Hdr) (s : State) : State :=
  let q := (s.tile t).seq n
  if !q.active then forAll (fun h s => s.reply h 0x31 (Reply.ok 0)) hs s
  else
    let s := forAll (fun (x : Tick × Hdr) s => s.reply x.2 0x32 { st := 6 }) q.future s
    let s := s.modSeq t n fun q => { q with arm := false, held := none, future := [], disarmH := q.disarmH ++ hs }
    let s := match q.scan with
      | some sc => if sc.spec.isSome then s.cancelSpec t n else s
      | none => s
    s.restSeq t n

/-- A sequence is disarmed at once: its scan is abandoned without SCAN_END, the slot that runs is discarded with FATE 0b110 at
its end, and carried triggers end with ABORTED (01 R17; 08 R320). -/
def State.disarmNow (t n : Nat) (s : State) : State :=
  let q := (s.tile t).seq n
  let s := forAll (fun (x : Tick × Hdr) s => s.reply x.2 0x32 { st := 6 }) q.future s
  let s := s.modSeq t n fun q => { q with future := [] }
  let s := match q.scan with
    | some sc =>
      if sc.spec.isSome then s.cancelSpec t n
      else (s.gapSlots t n (sc.slot + b2n ((s.tile t).cv.seqBusy n)) sc.trig).modCv t (ConvUnit.dropSeq n 6 sc.trig)
    | none => s
  s.finishDisarm t n

/-- ARM = 1 on a disarmed sequence with configuration `cfg` (05 R189): admitted, or refused with its ADM code. -/
def State.armSeq (t n : Nat) (cfg : Word) (s : State) : State × Nat :=
  let T := s.tile t
  let q := { T.seq n with arm := true, active := true, cfg := cfg }
  let adm := T.seqAdmit n q
  if adm = 0 then
    ((s.modSeq t n fun _ => { q with
        adm := 0, overrun := 0, scans := 0, scan := none, held := none, lastTrig := none, future := [], hist := [],
        specWait := 0, since := false, noticeAt := none, armAt := s.tnow t, disarmH := [] }).modTile t Tile.setWorst, 0)
  else (s.modSeq t n fun q => { q with adm := adm }, adm)

/-! ## Scans -/

/-- A scan's deadline has passed (05 R196). -/
def State.scanPast (t n : Nat) (s : State) : Bool :=
  let q := (s.tile t).seq n
  match q.scan with
  | some sc => q.deadline ≠ 0 && sc.spec.isNone && sc.trig + q.deadline < s.tnow t
  | none => false

/-- The scan misses its deadline: later results carry DL, and the scan deadline fault (02 Table 2-9). -/
def State.missScan (t n : Nat) (s : State) : State :=
  let q := (s.tile t).seq n
  match q.scan with
  | some sc =>
    if s.scanPast t n && !sc.late then
      (s.modSeq t n fun q => { q with scan := q.scan.map fun x => { x with late := true } }).raise (35 + t) 9 (8 * t + n) 0
        (sat 0xFFFFFFFF (s.tnow t - (sc.trig + q.deadline)))
    else s
  | none => s

/-- The scan of a job has missed its deadline by now (05 R196). -/
def State.missJob (t : Nat) (j : Job) (s : State) : State :=
  match j.src with
  | .seq n _ => s.missScan t n
  | .inj _ => s

/-- A scan starts with its trigger tick (05 R189, R197): no trigger has arrived since that one, except that after a held
trigger (`keep`) others may have been dropped. -/
def State.startScan (t n trig : Nat) (keep : Bool) (s : State) : State :=
  s.modSeq t n fun q => { q with
    scan := some { trig := trig }, scans := (q.scans + 1) % 2 ^ 32, hist := (trig :: q.hist).take 2,
    specWait := q.specWait - 1, since := keep && q.since, held := none }

/-- An overrun counted, with at most one notice a second (05 R195). -/
def State.overrun (t n : Nat) (s : State) : State :=
  let q := (s.tile t).seq n
  let s := s.modSeq t n fun q => { q with overrun := satInc 0xFFFF q.overrun, since := true }
  let say := match q.noticeAt with | some x => decide (x + sec ≤ s.now) | none => true
  if say then (s.notice t 32 (8 * t + n) 7).modSeq t n fun q => { q with noticeAt := some s.now } else s

/-- What a trigger does to a scan in progress or a held trigger (05 Table 5-11): 1 held, 2 dropped, 3 restarted. The
flag says that a slot runs. -/
def State.policy (t n trig : Nat) (s : State) : State × Nat :=
  let q := (s.tile t).seq n
  match q.scan with
  | some _ =>
    if q.policy = 0 then
      if q.held.isNone then (s.modSeq t n fun q => { q with held := some trig, since := false }, 1)
      else (s.overrun t n, 2)
    else if q.policy = 1 then (s.overrun t n, 2)
    else ((s.overrun t n).modSeq t n fun q => { q with scan := q.scan.map fun x => { x with restart := some trig } }, 3)
  | none => (s.overrun t n, 2)

/-- A trigger on an idle sequence: a scan starts, or the trigger is held for TRIG_MIN (05 R194). -/
def State.triggerIdle (t n trig : Nat) (s : State) : State × Nat :=
  let q := (s.tile t).seq n
  if q.held.isSome then (s.overrun t n, 2)
  else
    let wait := match q.lastTrig with | some x => q.src ≠ 1 && s.tnow t < x + q.period | none => false
    if wait then (s.modSeq t n fun q => { q with held := some trig, since := false }, 1)
    else ((s.startScan t n trig false).modSeq t n fun q => { q with lastTrig := some (s.tnow t) }, 0)

/-- The results that a confirmed speculative scan holds are accessioned with SPEC (05 R198), RSW judged now (R202). -/
def State.accHeld (t n trig : Nat) (late : Bool) (rs : List Result) (s : State) : State :=
  forAll (fun (r : Result) s =>
    let fl := r.flags ||| 0x1000 ||| (if late then 0x2000 else 0)
    let fl := setBit fl 15 ((s.tile t).cv.switched (r.flags / 64 % 4) r.ts r.sides)
    let s := s.modCv t (ConvUnit.learnAll (r.flags / 64 % 4) r.ts r.sides)
    if r.input < 32 then (s.accResult t r.input r.x r.ts fl (r.flags / 256 % 4) (r.flags % 16) r.seqSlot trig r.evt r.tested).1
    else (s.accInternal t r.input r.x r.ts fl r.seqSlot r.evt).1) rs
    (s.modSeq t n fun q => { q with scan := q.scan.map fun x => { x with acc := x.acc + rs.length, held := [] } })

/-- The end of a scan (05 R193 CHAIN, R196): its event, its margin or miss. A trigger held meanwhile waits for nothing
more (Table 5-11). -/
def State.endScanOne (t n : Nat) (s : State) : State :=
  let s := s.missScan t n
  let q := (s.tile t).seq n
  match q.scan with
  | none => s
  | some sc =>
    let now := s.tnow t
    let s := if q.deadline ≠ 0 ∧ !sc.late then s.margin (35 + t) 0 (sc.trig + q.deadline - now) else s
    let s := if q.scanEvt then
        s.emit t 32 8 (payload [(16, 4, sat 0xFFFFFFFF (now - sc.trig)), (20, 4, q.scans), (24, 1, n + 128 * b2n sc.late),
          (25, 1, sc.acc), (26, 1, sc.disc)])
      else s
    let s := if sc.late then s.lateness (35 + t) 9 (8 * t + n) (now - (sc.trig + q.deadline)) else s
    s.modSeq t n fun q => { q with scan := none, endAt := some now, lastTrig := if q.held.isSome then none else q.lastTrig }

/-- A trigger arrives at sequence `n` with its trigger tick (05 R193 to R198): 0 started, 1 held, 2 dropped, 3
restarted; none when it is ignored, as one is up to the tick of the arm (R189). A scan whose last slot is done when it is confirmed is left for its end. -/
def State.trigger (t n trig : Nat) (s : State) : State × Option Nat :=
  let q := (s.tile t).seq n
  if !q.active || !q.arm || s.tnow t ≤ q.armAt then (s, none)
  else
    match q.scan with
    | some sc =>
      match sc.spec with
      | some p =>
        if p ≤ trig + q.specTol ∧ trig ≤ p + q.specTol ∧ s.tnow t ≤ p + q.specTol + 1000 then
          let s := s.modSeq t n fun q => { q with
            scan := q.scan.map (fun x => { x with trig := trig, spec := none }),
            scans := (q.scans + 1) % 2 ^ 32, hist := (trig :: q.hist).take 2, since := false, lastTrig := some (s.tnow t) }
          (s.accHeld t n trig (s.scanPast t n) sc.held, some 0)
        else
          let (s, k) := (s.cancelSpec t n).triggerIdle t n trig
          (s, some k)
      | none => let (s, k) := s.policy t n trig; (s, some k)
    | none => let (s, k) := s.triggerIdle t n trig; (s, some k)

/-- A scan whose slots are all done ends, and its end triggers the chained sequences, one of which may be done in turn;
eight turns suffice for eight sequences without a cycle. -/
def State.settleScan (t : Nat) : Nat → Nat → State → State
  | 0, _, s => s
  | k + 1, n, s =>
    let q := (s.tile t).seq n
    match q.scan with
    | some sc =>
      let busy := (s.tile t).cv.seqBusy n
      if sc.spec.isNone && !busy && (q.len ≤ sc.slot || sc.restart.isSome) then
        let s := if sc.restart.isSome then s.gapSlots t n sc.slot sc.trig else s
        let s := s.endScanOne t n
        let s := match sc.restart with
          | some tr => if q.arm then (s.startScan t n tr false).modSeq t n fun q => { q with lastTrig := some (s.tnow t) } else s
          | none => s
        let s := s.restSeq t n
        forAll (fun m s =>
          let r := (s.tile t).seq m
          if r.active && r.src = 4 && r.param % 8 = n && m ≠ n then
            State.settleScan t k m (s.trigger t m (s.tnow t)).1
          else s) (List.range 8) s
      else s
    | none => s.restSeq t n

/-- A trigger, with the end of a scan that it confirms or restarts. -/
def State.fire (t n trig : Nat) (s : State) : State × Option Nat :=
  let (s, k) := s.trigger t n trig
  (s.settleScan t 9 n, k)

/-- Every sequence of the tile with trigger source `src` whose parameter satisfies `f` is triggered. -/
def State.fireWhere (t src : Nat) (f : Nat → Bool) (trig : Nat) (s : State) : State :=
  forAll (fun n s =>
    let q := (s.tile t).seq n
    if q.active && q.src = src && f q.param then (s.fire t n trig).1 else s) (List.range 8) s

/-- PARAM's edge bits take a change to `up` (05 Table 5-10). -/
def edgeParam (param : Nat) (up : Bool) : Bool := if up then param.testBit 6 else param.testBit 7

/-! ## Slots and conversions -/

/-- The gain of attempt 0 of a job (05 R181, R201). -/
def Tile.firstGain (T : Tile) (v side input : Nat) (w : Word) (ts : Tick) : Nat :=
  let ch := T.chan input
  if 32 ≤ input then internalGain input w
  else if !Slot.auto w then Slot.gain w
  else match T.cv.predict v (side * 64 + input) ts with
    | some x => ch.selectGain x
    | none => ch.widest

/-- The first sampling instant of a slot that starts at `start` (05 R191, 04 R134). -/
def Tile.sampleTick (T : Tile) (input : Nat) (w : Word) (start : Tick) : Tick :=
  let ch := T.chan input
  if input < 32 && ch.mode.isRes then start + 60 * us
  else if input < 32 && ch.mode = .dmd then
    let x := T.chan ch.excCh
    let at_ := start + Slot.settle w
    if x.mode = .exs then
      let k := fld x.cfg 31 30 + 1
      ceilDiv (ceilDiv (at_ * k) 40000 * 40000) k
    else if x.mode = .exp then
      let p := fld x.cfg 15 8 * (100 * us)
      ceilDiv at_ p * p
    else at_
  else start + Slot.settle w

/-- A conversion starts on converter `v`. -/
def State.startJob (t v : Nat) (src : JobSrc) (input : Nat) (w : Word) (spec : Bool) (s : State) : State :=
  let T := s.tile t
  let start := s.tnow t
  let at_ := T.sampleTick input w start
  s.setJob t v (some { src := src, input := input, slot := w, start := start, sampleAt := at_, spec := spec,
                       gain := T.firstGain v 0 input w at_, gain2 := T.firstGain v 1 input w at_ })

/-- What a conversion attempt comes to: a code at its gains, a discard (with OVERRANGE or not), or another attempt. -/
inductive ConvOut where
  | acc (raw : Int)
  | drop (fate : Nat) (broken ovr : Bool)
  | again (j : Job)
  deriving DecidableEq, Repr

/-- The judgement of an attempt of an internal input (05 R181, R186, R200). -/
def Tile.judgeInternal (T : Tile) (v : Nat) (j : Job) (s : Sample) : ConvOut :=
  if T.cv.refFault then .drop 2 false false
  else if tempInput j.input then (if -60000 ≤ s.x && s.x ≤ 160000 then .acc s.x else .drop 2 false false)
  else if belowTop j.gain s.x && !j.clamp then
    .acc (roundHalfEven (T.cv.calibrated v j.gain s.x) (1000000 * internalNv j.input))
  else .drop 2 false false

/-- The code of a channel's front-end values before linearisation (04 R132, 05 R214); `y` is V(c + 1) of a 3-wire
channel. -/
def Tile.channelCode (T : Tile) (v : Nat) (ch : Chan) (g g2 : Nat) (x y : Int) : Int :=
  let a := T.cv.calibrated v g x
  let n := if ch.mode.isRes && ch.wire = 1 then 2 * T.cv.calibrated v g2 y - a else a
  roundHalfEven n (1000000 * ch.nvPerCode)

/-- The judgement of an attempt of a channel (04 R130, R136, R147; 05 R186, R200 to R204). The two sides of a 3-wire
channel range separately; other channels have one. -/
def Tile.judge (T : Tile) (v : Nat) (j : Job) (burn : Bool) (s : Sample) : ConvOut :=
  let ch := T.chan j.input
  if ch.mode = .aii && (s.lim || j.fold || ch.m.fold) then .drop 2 false false
  else if ch.broken burn s then .drop 7 true false
  else if T.cv.refFault || T.refLost j.input then .drop 2 false false
  else
    let two := ch.mode.isRes && ch.wire = 1
    if !Slot.auto j.slot then
      if !j.clamp && belowTop j.gain s.x && (!two || belowTop j.gain2 s.x2) then
        .acc (T.channelCode v ch j.gain j.gain2 s.x s.x2)
      else .drop 2 false true
    else
      let d1 := if j.done1.isSome then j.done1 else if ch.inWindow j.gain j.attempt s.x j.clamp then some s.x else none
      let d2 := if !two || j.done2.isSome then j.done2
        else if ch.inWindow j.gain2 j.attempt2 s.x2 j.clamp then some s.x2 else none
      match d1, (d2.isSome || !two) with
      | some x, true => .acc (T.channelCode v ch j.gain j.gain2 x (d2.getD 0))
      | _, _ =>
        if (d1.isNone && 2 ≤ j.attempt) || (two && d2.isNone && 2 ≤ j.attempt2) then .drop 2 false true
        else .again { j with
          done1 := d1, done2 := d2, waiting := true, clamp := false,
          gain := if d1.isNone then ch.nextGain j.gain j.attempt s.x j.clamp else j.gain,
          attempt := if d1.isNone then j.attempt + 1 else j.attempt,
          gain2 := if two && d2.isNone then ch.nextGain j.gain2 j.attempt2 s.x2 j.clamp else j.gain2,
          attempt2 := if two && d2.isNone then j.attempt2 + 1 else j.attempt2 }

/-- The result flags of an accepted job but RSW, DL, SPEC, INJ and OVERRANGE (05 Table 5-14, R202, R203). -/
def Tile.jobFlags (T : Tile) (v : Nat) (j : Job) : Nat :=
  let ch := T.chan j.input
  let chan := j.input < 32
  let two := chan && ch.mode.isRes && ch.wire = 1
  let at_ := if two then max j.attempt j.attempt2 else j.attempt
  let ts := if tempInput j.input then 20 * us else tSet j.gain
  let short := at_ = 0 && Slot.settle j.slot < ts && !(chan && (ch.mode.isRes || ch.mode = .dmd))
  b2n short <<< 14 + at_ <<< 8 + v <<< 6 + j.gain

/-- The end of an accepted injected conversion (05 R206, 07 Table 7-9), freeing its place before a calibration. -/
def State.endInj (t : Nat) (e : Inj) (r : Reply) (s : State) : State :=
  (s.modCv t fun u => { u with cal := { u.cal with before := u.cal.before - 1 } }).reply e.h 0x33 r

/-- Conversions leave the queue unstarted; an exclusive calibration waits no longer for those accepted before it (05 R208). -/
def ConvUnit.unqueue (f : Inj → Bool) (u : ConvUnit) : ConvUnit :=
  let first := (u.injQ.take (u.cal.before - u.injRunning)).countP f
  { u with injQ := u.injQ.filter fun e => !f e, cal := { u.cal with before := u.cal.before - first } }

/-- The discard of a job with its FATE; `broken` makes WIRE_BREAK present, `ovr` OVERRANGE. -/
def State.dropJob (t : Nat) (j : Job) (fate : Nat) (broken ovr : Bool) (trig : Tick) (s : State) : State :=
  let ss := match j.src with | .seq n k => some (n, k) | .inj _ => none
  let s := if j.input < 32 then s.dropResult t j.input fate broken ovr ss trig else s.discardIn t j.input fate
  match j.src with
  | .inj e => s.endInj t e { st := 8, rs := 10, pl := payload [(22, 1, fate)] }
  | .seq _ _ => s

/-- The scan that a job belongs to, while it is still the job's. -/
def Tile.jobScan (T : Tile) (j : Job) : Option Scan :=
  match j.src with
  | .seq n _ => if j.drop.isSome then none else (T.seq n).scan
  | .inj _ => none

/-- One slot of a scan is done: what was accessioned and discarded is counted and the next slot becomes due. -/
def State.slotDone (t : Nat) (j : Job) (acc disc : Nat) (s : State) : State :=
  match j.src with
  | .seq n _ =>
    let s := if j.drop.isSome then s else s.modSeq t n fun q => { q with
      scan := q.scan.map fun x => { x with acc := x.acc + acc, disc := x.disc + disc, slot := x.slot + 1 } }
    s.settleScan t 9 n
  | .inj _ => s

/-- The pin clamp acts on a pin of input `i` (04 R160). -/
def Tile.clampOn (T : Tile) (i : Nat) : Bool :=
  i < 32 && (List.range ((T.chan i).claims + 1)).any fun k => (T.chan (i + k)).clampP

/-- A job's value is accessioned; a result of an unconfirmed speculative scan is held (05 R198), and one of a slot cut
short under RESTART is discarded with FATE 0b110 (05 Table 5-11). -/
def State.finishJob (t v : Nat) (j : Job) (raw : Int) (ts : Tick) (sides : List (Nat × Nat × Int)) (s : State) : State :=
  let T := s.tile t
  let ch := T.chan j.input
  let tested := !(j.input < 32 && ch.mode = .aitc && ch.wbEn) || ch.m.burnCnt = 0
  let fl := T.jobFlags v j
  let rsw := b2n (T.cv.switched v ts sides) <<< 15
  let learn := State.modCv t (ConvUnit.learnAll v ts sides)
  match j.src with
  | .inj e =>
    let (s, w, f) := if j.input < 32 then
        (learn s).accResult t j.input raw ts (fl ||| rsw ||| 0x800) (fl / 256 % 4) j.gain none 0 false tested
      else (learn s).accInternal t j.input raw ts (fl ||| rsw ||| 0x800) none false
    s.endInj t e (Reply.ok (payload [(16, 4, w), (20, 2, f), (24, 4, ts)]))
  | .seq n k =>
    match T.jobScan j with
    | none => s
    | some sc =>
      if sc.restart.isSome then (s.dropJob t j 6 false false sc.trig).slotDone t j 0 1
      else if sc.spec.isSome then
        let r : Result := { input := j.input, x := raw, ts := ts, flags := fl, seqSlot := some (n, k), evt := Slot.evt j.slot,
                             sides := sides, tested := tested }
        (s.modSeq t n fun q => { q with scan := q.scan.map fun x => { x with held := x.held ++ [r] } }).slotDone t j 0 0
      else
        let s := s.missScan t n
        let fl := fl ||| rsw ||| (if j.spec then 0x1000 else 0) ||| (if s.scanPast t n then 0x2000 else 0)
        let s := if j.input < 32 then
            ((learn s).accResult t j.input raw ts fl (fl / 256 % 4) j.gain (some (n, k)) sc.trig (Slot.evt j.slot) tested).1
          else ((learn s).accInternal t j.input raw ts fl (some (n, k)) (Slot.evt j.slot)).1
        s.slotDone t j 1 0

/-- A converter is freed and its job's sequence, if it was cut off, comes to rest. -/
def State.freeJob (t v : Nat) (s : State) : State :=
  match (s.tile t).cv.job v with
  | some j =>
    let s := (s.setJob t v none).modCv t fun u => if v = 1 then { u with freeF := s.tnow t } else { u with freeP := s.tnow t }
    match j.src with
    | .seq n _ => if j.drop.isSome then s.restSeq t n else s
    | .inj _ => s
  | none => s

/-- The trigger tick of a job's scan, of one that has ended as it was then. -/
def State.jobTrig (t : Nat) (j : Job) (s : State) : Tick :=
  match (s.tile t).jobScan j with | some sc => sc.trig | none => j.trig

/-- The FATE with which a job is discarded whatever it brings: its own (05 R198, R206), or 0b110 of a slot cut short under
RESTART (Table 5-11). -/
def Tile.forced (T : Tile) (j : Job) : Option Nat :=
  j.drop <|> (match T.jobScan j with | some sc => if sc.restart.isSome then some 6 else none | none => none)

/-- The burnout test of an AITC conversion, at its first attempt: counted, and the tick of the last that passed (04 R148). -/
def State.burnout (t : Nat) (j : Job) (burn : Bool) (x : Sample) (s : State) : State :=
  let ch := s.chan t j.input
  if j.input < 32 && ch.mode = .aitc && ch.wbEn && j.attempt = 0 then
    s.modMeas t j.input fun m => if burn then { m with
      burnCnt := 0, burnAt := if ch.broken true x then m.burnAt else s.tnow t } else { m with burnCnt := m.burnCnt + 1 }
  else s

/-- A conversion attempt ends (05 R201): accessioned, converted again, or discarded. A wire found broken discards it with
FATE 0b111 before any other reason (04 R147), but for a limited AII input and for a channel that has left its mode. -/
def State.convEnd (t v : Nat) (x : Sample) (s : State) : State :=
  let T := s.tile t
  match T.cv.job v with
  | none => s
  | some j =>
    let ch := T.chan j.input
    if j.waiting || (j.input < 32 && ch.mode = .dmd && !j.left) then s
    else
      let burn := j.input < 32 && j.attempt = 0 && ch.burnTest
      let s := s.burnout t j burn x
      let trig := s.jobTrig t j
      let forced := T.forced j
      let j := { j with clamp := j.clamp || T.clampOn j.input }
      let free := s.freeJob t v
      match j.drop, (if j.input < 32 then T.judge v j burn x else T.judgeInternal v j x) with
      | some f, out =>
        let broken := match out with | .drop _ b _ => b && !j.left | _ => false
        free.dropJob t j (if broken then 7 else f) broken false trig
      | none, .again k => (s.discardIn t j.input 2).setJob t v (some k)
      | none, .drop f broken ovr =>
        (free.dropJob t j (if broken then 7 else forced.getD f) broken (ovr && forced.isNone) trig).slotDone t j 0 1
      | none, .acc raw =>
        let two := j.input < 32 && ch.mode.isRes && ch.wire = 1
        let sides := (j.input, j.gain, j.done1.getD x.x) :: if two then [(64 + j.input, j.gain2, j.done2.getD x.x2)] else []
        free.finishJob t v j raw j.sampleAt sides

/-! ### Demodulation (04 R143 to R147) -/

/-- Σ `x`·sine of its sample's angle + PHASE, 32 samples a cycle, from sample `k` on; PHASE in quarter degrees. -/
def sineSum (phase : Nat) : Nat → List Int → Int
  | _, [] => 0
  | k, x :: xs => x * sine (45 * k + phase) + sineSum phase (k + 1) xs

/-- Σ of the differences of pairs: after the rising edge less after the falling edge. -/
def edgeSum : List Int → Int
  | x :: y :: xs => x - y + edgeSum xs
  | _ => 0

/-- The amplitude A and its quadrature component Q of a DMD channel with source `src`, as numerators over one denominator, in
2^−22 (04 R144): of a sine against √2 × AMPL with the reference delayed by PHASE, of pulses against 2 × AMPL without
quadrature. Each sample is calibrated as a conversion is (05 R214). -/
def ConvUnit.amplitude (u : ConvUnit) (ch src : Chan) (gain : Nat) (v : List Int) : Int × Int × Nat :=
  let xs := v.map (u.calibrated 1 gain)
  if src.mode = .exs then
    let ampl := fld src.cfg 29 24
    let k (p : Nat) : Int := sineSum (4 * fld ch.cfg 20 12 + p) 0 xs * 707106781186547524
    (k 0, k 360, 4096 * ch.ncyc * ampl * 10 ^ 32)
  else
    (edgeSum xs * 2 ^ 22, 0, 2 * ch.ncyc * fld src.cfg 30 24 * 10 ^ 14)

/-- The check of Table 4-13 finds a DMD channel's wire broken: √(A² + Q²) below 0.02. -/
def Chan.dmdBroken (ch : Chan) (a q : Int) (den : Nat) : Bool :=
  ch.wbEn && 2500 * (a * a + q * q) < (4194304 * den : Int) ^ 2

/-- The FATE of a demodulation of channel `c` (04 R143 to R147, R160; 05 R186, R204): 0 accepted. -/
def Tile.dmdFate (T : Tile) (j : Job) (c : Nat) (forced : Option Nat) (broken bad : Bool) : Nat :=
  if broken then 7
  else match forced with
    | some f => f
    | none => if j.exc then 7 else if T.cv.refFault || T.refLost c || bad then 2 else 0

/-- One DMD channel's code judged and accessioned or discarded: whether it was accessioned, its result word (of a discard,
the FATE) and its flags. `past` says that a sample overran its scale or met the pin clamp (05 R204); a result of an
unconfirmed speculative scan is held (R198). -/
def State.dmdOne (t : Nat) (j : Job) (c : Nat) (raw : Int) (forced : Option Nat) (broken past : Bool) (trig : Tick) (s : State) :
    State × Bool × Nat × Nat :=
  let T := s.tile t
  let ss := match j.src with | .seq n k => some (n, k) | .inj _ => none
  let fate := T.dmdFate j c forced broken past
  let sides : List (Nat × Nat × Int) := [(c, j.gain, 0)]
  let fl := 1 <<< 6 + j.gain
  let spec := match T.jobScan j with | some sc => sc.spec.isSome | none => false
  if fate ≠ 0 then (s.dropResult t c fate broken (past && fate = 2) ss trig, false, fate, 0)
  else
    match spec, j.src with
    | true, .seq n k =>
      let r : Result := { input := c, x := raw, ts := j.sampleAt, flags := fl, seqSlot := some (n, k),
                           evt := Slot.evt j.slot, sides := sides }
      (s.modSeq t n fun q => { q with scan := q.scan.map fun x => { x with held := x.held ++ [r] } }, true, 0, 0)
    | _, _ =>
      let fl := fl + b2n (T.cv.switched 1 j.sampleAt sides) <<< 15 +
        (match j.src with | .inj _ => 0x800 | .seq _ _ => if j.spec then 0x1000 else 0) +
        (match j.src with | .seq n _ => b2n (s.scanPast t n) <<< 13 | .inj _ => 0)
      let (s, w, f) := s.accResult t c raw j.sampleAt fl 0 j.gain ss trig (Slot.evt j.slot && ss.isSome) true
      (s.modCv t (ConvUnit.learnAll 1 j.sampleAt sides), true, w, f)

/-- The ratio (A − B) ÷ (A + B) in 2^−22, rounded half to even (04 R144; no value is stated for A + B = 0). -/
def dmdRatio (a b : Int) : Int :=
  let d := a + b
  if d = 0 then Config.ratioZero a
  else if 0 < d then roundHalfEven ((a - b) * 4194304) d.natAbs else roundHalfEven ((b - a) * 4194304) d.natAbs

/-- A DMD job ends at the end of its last cycle or pulse (04 R144): with RATIO its partner's result comes with it. -/
def State.dmdEnd (t : Nat) (d : Demod) (s : State) : State :=
  let T := s.tile t
  match T.cv.jobF with
  | none => s
  | some j =>
    let ch := T.chan j.input
    if 32 ≤ j.input || ch.mode ≠ .dmd || j.left then s
    else
      let src := T.chan ch.excCh
      let both := ch.isRatio && T.partOk j.input
      let (a, q, den) := T.cv.amplitude ch src j.gain d.v
      let (b, r, _) := T.cv.amplitude (T.chan ch.part) src j.gain d.b
      let past (v : List Int) (clamp : Bool) (c : Nat) := v.any (fun x => !belowTop j.gain x) || clamp || T.clampOn c
      let overB := past d.b j.clampB ch.part
      let raw := if both then dmdRatio a b else roundHalfEven a den
      let trig := s.jobTrig t j
      let forced := T.forced j
      let s := s.missJob t j
      let (s, ok, w, f) := (s.freeJob t 1).dmdOne t j j.input raw forced (ch.dmdBroken a q den)
        (past d.v j.clamp j.input) trig
      let (s, ok2) := if both then
          let (s, ok2, _, _) := s.dmdOne t j ch.part (roundHalfEven b den) forced ((T.chan ch.part).dmdBroken b r den) overB trig
          (s, b2n ok2)
        else (s, 0)
      match j.src with
      | .inj e => s.endInj t e (if ok then Reply.ok (payload [(16, 4, w), (20, 2, f), (24, 4, j.sampleAt)])
          else { st := 8, rs := 10, pl := payload [(22, 1, w)] })
      | .seq _ _ =>
        let held := match T.jobScan j with | some sc => sc.spec.isSome | none => false
        s.slotDone t j (if held then 0 else b2n ok + ok2) (1 + b2n both - b2n ok - ok2)

/-! ## Injected conversions (05 R205, R206) -/

/-- Every accepted injected conversion of a tile is discarded and ends with a status: ABORTED when the tile goes out of service
(05 R206). -/
def State.abortInj (t st : Nat) (s : State) : State :=
  let u := (s.tile t).cv
  let run := (u.jobP.toList ++ u.jobF.toList).filterMap fun j => match j.src with | .inj e => some e | .seq _ _ => none
  let keep (j : Option Job) := match j with | some x => if x.isInj then none else some x | none => none
  let s := s.modCv t fun u => { u with injQ := [], jobP := keep u.jobP, jobF := keep u.jobF,
                                       cal := { u.cal with before := 0 } }
  forAll (fun (e : Inj) s => s.reply e.h 0x33 { st := st }) (run ++ u.injQ)
    (forAll (fun (e : Inj) s => forAll (fun i s => s.discardIn t i 6) ((s.tile t).pair e.input) s) (run ++ u.injQ) s)

/-! ## Calibration and the reference (05 R184 to R186, R207 to R210) -/

/-- The factory calibration: no deviation at any gain. -/
def factory : List (Int × Int) := List.replicate 12 (0, 0)

/-- A background calibration starts, or is joined to the one that runs (05 R207). -/
def State.calBackground (t : Nat) (hs : List Hdr) (s : State) : State :=
  s.modCv t fun u =>
    if u.cal.busy then { u with cal := { u.cal with hdrs := u.cal.hdrs ++ hs } }
    else { u with cal := { u.cal with busy := true, excl := false, convs := 3, stepsP := 0, stepsF := 0, dueP := s.tnow t,
                                      dueF := s.tnow t, before := 0, hdrs := hs, bad := false } }

/-- A new set of coefficients is rejected (05 R210): an offset beyond 0.5 % of full scale, or a gain beyond 0.5 %. -/
def coefBad (coef : List (Int × Int)) : Bool :=
  coef.zipIdx.any fun x => fullScale x.2 < 200 * x.1.1.natAbs || 5000 < x.1.2.natAbs

/-- The calibration of converter `v` completes: its coefficients are applied, or rejected (05 R209, R210). -/
def State.calApply (t v : Nat) (coef : List (Int × Int)) (bad : Bool) (s : State) : State :=
  let T := s.tile t
  let temp := roundHalfEven T.tdie 10
  if bad || coefBad coef then
    (s.modCv t fun u => { u with cal := { u.cal with fail := true, bad := true } }).raise (35 + t) 7 0 v 0
  else
    let s := s.modCv t fun u => { u with cal :=
      let c := if v = 1 then { u.cal with coefF := coef } else { u.cal with coefP := coef }
      let d := setBit c.done v true
      { c with temp := temp, done := d, valid := c.valid || d = 3 } }
    s.emit t 32 0x0C (payload [(16, 1, v), (17, 1, b2n T.cv.cal.excl), (18, 2, toField 16 temp)])

/-- Every named converter has made its 576 steps: the calibration ends and its commands complete (05 R207 to R210). -/
def State.calFinish (t : Nat) (s : State) : State :=
  let c := (s.tile t).cv.cal
  if (!c.convs.testBit 0 || 576 ≤ c.stepsP) && (!c.convs.testBit 1 || 576 ≤ c.stepsF) then
    let s := s.modCv t fun u => { u with cal := { u.cal with
      busy := false, excl := false, hdrs := [], lastAt := if c.bad then u.cal.lastAt else some s.now } }
    forAll (fun h s => s.reply h 0x34 (if c.bad then { st := 8 } else Reply.ok (payload [(16, 2, toField 16 c.temp)])))
      c.hdrs s
  else s

/-- The length of a calibration step of a converter in ticks: 84.5 µs on P, 22.5 µs on F (05 Self-calibration). -/
def calStepT (v : Nat) : Nat := if v = 1 then 2250 else 8450

/-- A step of the calibration under way is due on converter `v`: an exclusive calibration waits for the injected conversions
accepted before it (05 R207, R208). -/
def Tile.stepDue (T : Tile) (v : Nat) (now : Tick) : Bool :=
  let c := T.cv.cal
  c.busy && c.convs.testBit v && (if v = 1 then c.stepsF else c.stepsP) < 576 && (!c.excl || c.before = 0) &&
    (if v = 1 then c.dueF else c.dueP) ≤ now

/-- The tick at which a due step began: as soon as it was due with its converter free (05 R192). -/
def Tile.stepAt (T : Tile) (v : Nat) : Tick :=
  if v = 1 then max T.cv.cal.dueF T.cv.freeF else max T.cv.cal.dueP T.cv.freeP

/-- A calibration step is in progress on a converter: nothing interrupts it (05 R192). -/
def Tile.stepRuns (T : Tile) (v : Nat) (now : Tick) : Bool := T.stepDue v now && (T.cv.job v).isNone && T.stepAt v < now

/-- One calibration step on converter `v` ends (05 R192, R207, R208): the next one of a background calibration is due 2 ms
after its start, of an exclusive one at once. -/
def State.calStepOn (t v : Nat) (coef : List (Int × Int)) (bad : Bool) (s : State) : State :=
  let T := s.tile t
  let now := s.tnow t
  let c := T.cv.cal
  let n := (if v = 1 then c.stepsF else c.stepsP) + 1
  if T.stepDue v now && (T.cv.job v).isNone && T.stepAt v + calStepT v ≤ now then
    let due := if c.excl then now else now - calStepT v + 2 * ms
    let s := s.modCv t fun u =>
      if v = 1 then { u with freeF := now, cal := { u.cal with stepsF := n, dueF := due } }
      else { u with freeP := now, cal := { u.cal with stepsP := n, dueP := due } }
    if n = 576 then (s.calApply t v coef bad).calFinish t else s
  else s

/-- REF_READY rises: factory coefficients are in use, and a background calibration starts with CAL_AUTO (05 R207,
R209). -/
def State.refRise (t : Nat) (s : State) : State :=
  let s := s.modCv t fun u => { u with
    refReady := true, cal := { u.cal with valid := false, done := 0, coefP := factory, coefF := factory } }
  if (s.tile t).cv.calAuto then s.calBackground t [] else s

/-- One comparison of the main reference with K's own, `dev` in 10 ppm (05 R186). -/
def State.refCompareAt (t : Nat) (dev : Int) (s : State) : State :=
  let u := (s.tile t).cv
  if !u.refEn then s
  else if !u.refFault then
    let bad := if 100 < dev.natAbs then u.badCnt + 1 else 0
    let s := s.modCv t fun u => { u with refDev := dev, badCnt := bad, goodCnt := 0 }
    if 3 ≤ bad then
      ((s.modCv t fun u => { u with refFault := true, refReady := false }).raise (35 + t) 6 0 (toField 16 dev) 0).refresh t
    else s
  else
    let good := if dev.natAbs ≤ 50 then u.goodCnt + 1 else 0
    let s := s.modCv t fun u => { u with refDev := dev, goodCnt := good, badCnt := 0 }
    if 10 ≤ good then
      (((s.modCv t fun u => { u with refFault := false }).endPresent (35 + t) 6).refRise t).refresh t
    else s

end Sys2Proof.Machine
end

