-- ==== Sys2Proof/Machine/Inputs.lean ====
section
/-!
DEFINITION. Digital inputs: the Sieve, edges, chatter, validity, counters, and trim buttons (03 R84 to R96, R469, 04
R173, 12 R418).
-/
namespace Sys2Proof.Machine

/-- Digital input state of a channel replaced. -/
def State.modDi (t c : Nat) (f : DiState → DiState) (s : State) : State := s.modChan t c fun x => { x with di := f x.di }
/-- Counter state of a channel replaced. -/
def State.modDic (t c : Nat) (f : DicState → DicState) (s : State) : State := s.modChan t c fun x => { x with dic := f x.dic }

/-! ## Trim buttons -/

/-- Consecutive TRIM channels directly below channel `c`. -/
def Tile.trimRun (T : Tile) : Nat → Nat
  | 0 => 0
  | c + 1 => if (T.chan c).mode = .trim then T.trimRun c + 1 else 0

/-- The lower channel of the TRIM pair that `c` belongs to, if its partner is TRIM as well (04 Table 4-1). -/
def Tile.trimLower (T : Tile) (c : Nat) : Option Nat :=
  let lo := if T.trimRun c % 2 = 0 then c else c - 1
  if (T.chan lo).mode = .trim && (T.chan (lo + 1)).mode = .trim then some lo else none

/-- A button's accessioned level: press or release (04 R173). A press while the other button is held cancels the single
actions until both are released. -/
def State.button (t c : Nat) (lvl : Bool) (s : State) : State :=
  match (s.tile t).trimLower c with
  | none => s
  | some lo =>
    let now := s.tnow t
    let zero := c = lo
    let s := if lvl then s else s.setDiag t c 0 false
    let s := s.modChan t lo fun ch =>
      let b := ch.btn
      let b := if zero then { b with zeroAt := if lvl then some now else none, zeroStuck := false }
        else { b with spanAt := if lvl then some now else none, spanStuck := false }
      let down := b.zeroAt.isSome || b.spanAt.isSome
      { ch with btn := { b with done := b.done && down, both := down && (b.both || (b.zeroAt.isSome && b.spanAt.isSome)) } }
    s.emit t c 0x0B (payload [(16, 1, if !lvl then 2 else if zero then 0 else 1)])

/-! ## Edges -/

/-- Edges of a DIC channel as they are accessioned (03 Table 3-5). A high pulse that straddles the end of a gate counts in
neither gate (log 25). -/
def DicState.edge (cnt : Nat) (up : Bool) (riseAt now : Tick) (d : DicState) : DicState :=
  let d := if (cnt = 0 ∧ up) ∨ (cnt = 1 ∧ !up) ∨ cnt = 2 then { d with count := (d.count + 1) % 2 ^ 32 } else d
  if up then { d with rises := d.rises + 1, firstRise := if d.rises = 0 then now else d.firstRise, lastRise := now }
  else if d.rises = 0 then d
  else { d with highs := d.highs + 1, highSum := d.highSum + (now - riseAt) }

/-- The accessioned level of a channel changes (03 R88, R89): its edge event where `ev`, the count of a DIC channel
where `cnt`, the end of STUCK, the reflex unit, and the sequences triggered by it. -/
def State.accLevel (t c : Nat) (lvl ev cnt : Bool) (s : State) : State :=
  let ch := s.chan t c
  let now := s.tnow t
  let s := s.modDi t c fun d => { d with level := lvl, riseAt := if lvl then now else d.riseAt }
  let s := if ch.mode = .dic && cnt then s.modDic t c (DicState.edge ch.cnt lvl ch.di.riseAt now) else s
  let s := if ev && ch.mode ≠ .trim then s.emit t c 1 (payload [(16, 1, b2n lvl)]) else s
  let s := if ch.mode = .di && !lvl then s.setDiag t c 1 false else s
  let s := if ch.mode = .trim then s.button t c lvl else s
  let s := s.refreshAt t (some (false, c, lvl)) now
  if ch.mode = .trim then s
  else s.fireWhere t 3 (fun p => p % 32 = c && edgeParam p lvl) now

/-- The level that the Sieve has confirmed, as the channel sees it. -/
def Chan.sieveLevel (ch : Chan) : Bool := ch.di.sieve != ch.invert

/-- A DI or DIC channel becomes valid or invalid, with one event carrying a level (03 R94). -/
def State.setValid (t c : Nat) (want lvl : Bool) (s : State) : State :=
  (s.modChan t c fun ch => { (ch.mark 2 (!want)) with valid := want }).emit t c 5 (payload [(16, 1, b2n want + 2 * b2n lvl)])

/-- An accessioned transition of a DI channel with chatter detection on (03 R90, R91): it is counted, and the one that passes
CHAT_N declares chatter; under CHAT_HOLD the channel is then invalid. -/
def State.chatLevel (t c : Nat) (lvl : Bool) (s : State) : State :=
  let T := s.tile t
  let ch := T.chan c
  let s := s.modDi t c fun d => if d.chatRun then { d with chatCount := d.chatCount + 1 }
    else { d with chatRun := true, chatStart := s.tnow t, chatCount := 1 }
  if ch.di.chatter then (if ch.chatHold then s else s.accLevel t c lvl false true)
  else
    let s := s.accLevel t c lvl true true
    if T.chatN < (s.chan t c).di.chatCount then
      let s := s.modChan t c fun ch => { (ch.mark 0 true) with di := { ch.di with chatter := true, chatQuiet := 0 } }
      if ch.chatHold then (s.setValid t c false lvl).refresh t else s
    else s

/-- Validity of a DI or DIC channel judged again (03 R86, R91, R94): a change sends one VALIDITY event, and at a return to
validity a Sieve level that differs from the frozen one is accessioned. -/
def State.judgeValid (t c : Nat) (s : State) : State :=
  let T := s.tile t
  let ch := T.chan c
  let want := !(ch.ratio && T.lp.st.weak) && !(ch.di.chatter && ch.chatHold)
  if !(ch.mode = .di || ch.mode = .dic) || !ch.di.first || want = ch.valid then s
  else
    let lvl := if want then ch.sieveLevel else ch.di.level
    let s := s.setValid t c want lvl
    if want ∧ lvl ≠ ch.di.level then (if ch.mode = .di ∧ ch.chatEn then s.chatLevel t c lvl else s.accLevel t c lvl true true)
    else s.refresh t

/-- The first level after entry is accessioned without an edge (12 R418). -/
def State.firstLevel (t c : Nat) (s : State) : State :=
  let T := s.tile t
  let ch := T.chan c
  let ok := !(ch.ratio && T.lp.st.weak)
  let lvl := ch.sieveLevel
  let s := s.modChan t c fun ch => { (ch.mark 2 (!ok && ch.mode ≠ .trim)) with
    valid := ok, di := { ch.di with first := true, level := lvl, riseAt := s.tnow t } }
  let s := if ch.mode = .trim then (if lvl then s.button t c true else s)
    else s.emit t c 5 (payload [(16, 1, b2n ok + 2 * b2n lvl)])
  s.refresh t

/-- A DI channel leaves CHATTER (03 R92): its event, and its validity where CHAT_HOLD froze the level. -/
def State.leaveChatter (t c : Nat) (s : State) : State :=
  let ch := s.chan t c
  let s := s.modChan t c fun ch => { (ch.mark 0 false) with di := { ch.di with chatter := false, chatRun := false, chatQuiet := 0 } }
  (s.emit t c 6 (payload [(16, 1, 1), (20, 4, ch.di.chatCount), (24, 1, b2n ch.di.level)])).judgeValid t c

/-- The Sieve confirms the comparator's level (03 R87, R88). -/
def State.sieveAcc (t c : Nat) (s : State) : State :=
  let ch := s.chan t c
  let now := s.tnow t
  if ch.mode.isLvl && ch.di.pend && ch.di.crossAt + max ch.sieveT 1 ≤ now then
    let s := s.modDi t c fun d => { d with pend := false, crossed := false, sieve := d.comp }
    let lvl := ch.di.comp != ch.invert
    let s := s.accessioned t c 0 (b2n lvl) now 0 0
    if !ch.di.first then s.firstLevel t c
    else if ch.mode ≠ .trim && (ch.ratio && (s.tile t).lp.st.weak) then s
    else if ch.mode = .di && ch.chatEn then s.chatLevel t c lvl
    else if ch.mode ≠ .trim && !ch.valid then s
    else s.accLevel t c lvl true true
  else s

/-- The comparator's output crosses (03 R87, R95): a crossing that reverts is discarded, also before the channel's first level,
which then waits anew; edges of the counted kind that
come too fast set OVERRUN. -/
def State.crossing (t c : Nat) (lvl : Bool) (s : State) : State :=
  let ch := s.chan t c
  let now := s.tnow t
  if !ch.mode.isLvl || lvl = ch.di.comp then s
  else
    let up := lvl != ch.invert
    let counted := ch.mode = .dic && (ch.cnt = 2 || (if ch.cnt = 1 then !up else up))
    let fast := counted && (match ch.dic.lastEdge with | some x => decide (now < x + 8 * us) | none => false)
    let s := if ch.di.pend && ch.di.crossed then s.discard t c 0 6 else s
    let s := s.modDi t c fun d => { d with comp := lvl, pend := !(d.pend && d.first), crossed := true, crossAt := now }
    let s := if counted then s.modDic t c fun d => { d with lastEdge := some now } else s
    if fast then
      let s := s.modDic t c fun d => { d with overAt := now }
      if ch.diagP.testBit 3 then s else (s.setDiag t c 3 true).notice t c (32 * t + c) 3
    else s

/-! ## Counters -/

/-- The result of a DIC gate and whether it is valid in itself (03 Table 3-5), rounded half to even. -/
def DicState.result (cnt : Nat) (d : DicState) : Nat × Bool :=
  let span := d.lastRise - d.firstRise
  if cnt ≤ 2 then (d.count, true)
  else if d.rises < 2 then (0, false)
  else if cnt = 3 then ((roundHalfEven ((d.rises - 1) * 100000000000 : Nat) (max span 1)).toNat % 2 ^ 32, true)
  else if cnt = 4 then ((roundHalfEven span (d.rises - 1)).toNat % 2 ^ 32, true)
  else ((roundHalfEven d.highSum (max d.highs 1)).toNat % 2 ^ 32, true)

/-- The end of a DIC gate (03 R95, R96): one result, for the stream that takes the channel or as a COUNT event. -/
def State.gateEnd (t c : Nat) (s : State) : State :=
  let ch := s.chan t c
  let now := s.tnow t
  if ch.mode = .dic && ch.dic.gateStart + ch.stuckT * ms ≤ now then
    let (v, ok) := ch.dic.result ch.cnt
    let valid := ok && ch.valid
    let quiet := ch.diagP.testBit 3 && ch.dic.overAt < ch.dic.gateStart
    let s := if quiet then s.setDiag t c 3 false else s
    let ovr := (s.chan t c).diagP.testBit 3
    let s := s.modDic t c fun d => { d with gateStart := now, rises := 0, highs := 0, highSum := 0 }
    let s := s.modMeas t c fun m => { m with has := true, x := v, y := v, ts := now }
    let s := s.accessioned t c 0 v now 0 0
    let s := if s.streamed t c then s.linkPush t (.res { ch := c, ts := now, value := v, dic := true, acc := now })
      else s.emit t c 3 (payload [(16, 4, v), (20, 1, b2n valid + 2 * b2n ovr)])
    let s := if valid then s.modTile t (Tile.feedMirrors c v) else s
    s.refresh t
  else s

/-- The end of a chatter window (03 R91, R92). -/
def State.chatWindow (t c : Nat) (s : State) : State :=
  let T := s.tile t
  let ch := T.chan c
  let d := ch.di
  if ch.mode = .di && d.chatRun && d.chatStart + T.chatW * ms ≤ s.tnow t then
    let quiet := if d.chatCount ≤ T.chatN / 2 then d.chatQuiet + 1 else 0
    let s := if d.chatter then s.emit t c 6 (payload [(20, 4, d.chatCount), (24, 1, b2n d.level)]) else s
    let s := s.modDi t c fun d => { d with
      chatRate := sat 0xFFFF d.chatCount, chatQuiet := quiet, chatStart := d.chatStart + T.chatW * ms }
    let s := if d.chatter ∧ 2 ≤ quiet then s.leaveChatter t c else s
    s.modDi t c fun d => { d with chatCount := 0 }
  else s

/-- STUCK_T has passed since the level last rose (03 R93). -/
def State.stuckCheck (t c : Nat) (s : State) : State :=
  let ch := s.chan t c
  if ch.mode = .di && ch.di.first && ch.di.level && ch.stuckT ≠ 0 && !ch.diagP.testBit 1 &&
      ch.di.riseAt + ch.stuckT * sec ≤ s.tnow t then
    (s.setDiag t c 1 true).notice t c (32 * t + c) 2
  else s

/-! ## Button actions -/

/-- A trim operation on TARGET by button (04 R172 to R174): RESET at once, ZERO and SPAN from the next valid result; a
refusal is reported with the status that the command would give. -/
def State.buttonAct (t lo op : Nat) (s : State) : State :=
  let b := s.chan t lo
  let g := fld b.cfg 31 27
  let T := s.chan t g
  if (bit b.cfg 25 && s.locked) || !T.mode.isMeas then
    s.emit t lo 0x0B (payload [(16, 1, 6), (17, 1, if bit b.cfg 25 && s.locked then 10 else 1)])
  else if op = 5 then (s.trimChange t g 0 0x400000).emit t lo 0x0B (payload [(16, 1, 5)])
  else s.modChan t g fun ch => { ch with caps := ch.caps ++
    [{ h := none, span := op = 4, ref := sext 24 (fld b.cfg 23 0), till := s.tnow t + sec, button := lo }] }

/-- A hold of the pair reaches 3.0 s (04 Table 4-18). -/
def State.buttonHold (t lo : Nat) (s : State) : State :=
  let b := (s.chan t lo).btn
  let now := s.tnow t
  let due (x : Tick) := x + 3 * sec ≤ now
  let op := match (if b.zeroStuck then none else b.zeroAt), (if b.spanStuck then none else b.spanAt) with
    | some x, some y => if due (max x y) then some 5 else none
    | some x, none => if due x ∧ b.spanAt.isNone ∧ !b.both then some 3 else none
    | none, some y => if due y ∧ b.zeroAt.isNone ∧ !b.both then some 4 else none
    | none, none => none
  match op with
  | some k =>
    if b.done || (s.tile t).trimLower lo ≠ some lo then s
    else (s.modChan t lo fun ch => { ch with btn := { ch.btn with done := true } }).buttonAct t lo k
  | none => s

/-- A button held for more than 60 s sets STUCK (04 R173). -/
def State.buttonStuck (t c : Nat) (s : State) : State :=
  match (s.tile t).trimLower c with
  | none => s
  | some lo =>
    let b := (s.chan t lo).btn
    let at_ := if c = lo then b.zeroAt else b.spanAt
    let was := if c = lo then b.zeroStuck else b.spanStuck
    match at_ with
    | some x =>
      if !was && x + 60 * sec < s.tnow t then
        let s := s.modChan t lo fun ch => { ch with btn :=
          if c = lo then { ch.btn with zeroStuck := true } else { ch.btn with spanStuck := true } }
        ((s.setDiag t c 0 true).emit t c 0x0B (payload [(16, 1, 7)])).notice t c (32 * t + c) 6
      else s
    | none => s

end Sys2Proof.Machine
end

