-- ==== Sys2Proof/Machine/Channels.lean ====
section
/-!
DEFINITION. A write to CH_MODE, CH_CFG or CH_DIAG: admission as one write, the end of the old mode and the start of the
new one (03 R81 to R83, R97, R99, R119, R469, R470; 04 R122 to R125, R137, R154; 05 R199, R206; 13 R430, R431).
-/
namespace Sys2Proof.Machine

/-- The channel as a write would leave it: MODE, PAR, CH_CFG and CH_DIAG cut to the bits of the mode's layout (R97,
R122); what the mode keeps for itself starts anew with a new mode. -/
def Chan.asWritten (ch : Chan) (m : Mode) (par : Nat) (cfg diag : Word) : Chan :=
  { ch with mode := m, par := par, cfg := cfg &&& cfgMask m, diag := diagStore m diag }

/-- A staged single action discarded with FATE 0b110 and completed with ABORTED (13 R430, 07 OUT_CANCEL). -/
def State.abortAction (t c : Nat) (a : Action) (s : State) : State :=
  (s.discard t c 1 6).reply a.h a.opcode { st := 6 }

/-- Every single action staged on the channel is discarded (13 R430). -/
def State.abortStaged (t c : Nat) (s : State) : State :=
  let as := (s.chan t c).staged
  forAll (State.abortAction t c) as (s.modChan t c fun ch => { ch with staged := [] })

/-- Injected conversions of the channel are discarded with FATE 0b110: a queued one completes at once, a running one at
its end (05 R206). `left` says that the channel leaves its mode; a RATIO partner's result is then discarded at once. -/
def State.dropInj (t c : Nat) (left : Bool) (s : State) : State :=
  let u := (s.tile t).cv
  let gone := u.injQ.filter fun e => e.input = c
  let m (j : Option Job) := j.map fun j => if j.isInj && j.input = c then { j with drop := some 6, left := left } else j
  let s := s.modCv t fun u => { (u.unqueue fun e => e.input = c) with jobP := m u.jobP, jobF := m u.jobF }
  let pair := (s.tile t).pair c
  let runs := match u.jobF with | some j => j.isInj && j.input = c | none => false
  let s := if left && runs then forAll (fun i s => s.discardIn t i 6) (pair.drop 1) s else s
  forAll (fun (e : Inj) s => (forAll (fun i s => s.discardIn t i 6) pair s).reply e.h 0x33
    { st := 8, rs := 10, pl := payload [(22, 1, 6)] }) gone s

/-- Diagnoses that the mode reports by DIAG events (03 R110, R470). -/
def Mode.diagBits (m : Mode) : List Nat := if m = .di || m = .dic then [1, 3] else List.range 8

/-- The diagnoses of the old mode end (03 R470). -/
def State.endDiags (t c : Nat) (s : State) : State :=
  let ch := s.chan t c
  let s := forAll (fun b s => s.setDiag t c b false) ch.mode.diagBits s
  let s := if ch.mode = .di && ch.di.chatter then
      s.emit t c 6 (payload [(16, 1, 1), (20, 4, ch.di.chatCount), (24, 1, b2n ch.di.level)]) else s
  s.modChan t c fun ch => { ch with diagP := 0, diagL := 0 }

/-- With no analogue output admitted, the rail fault ends at once (04 R154). -/
def State.railIdle (t : Nat) (s : State) : State :=
  let T := s.tile t
  if T.railFault && !T.chans.any (fun c => c.mode.isAo) then
    (s.modTile t fun T => { T with railFault := false, railLow := 0, railHigh := 0, crNow := 0 }).endPresent (35 + t) 5
  else s

/-- The channel enters its new mode: input and output state start anew; the comparator keeps what it senses (log 15), and a
level that the Sieve was still judging is discarded (02 R46). An output stage without L+, or in the re-energising interval,
stays off electrically (03 R115, R116). A trim beyond the new mode's limit is replaced by the nearer limit (04 R169). -/
def State.enterMode (t c : Nat) (n : Chan) (s : State) : State :=
  let now := s.tnow t
  let T := s.tile t
  let d := (T.chan c).di
  let s := if (T.chan c).mode.isLvl && d.pend && d.crossed then s.discard t c 0 6 else s
  let s := s.modChan t c fun ch => { ch with
    mode := n.mode, par := n.par, cfg := n.cfg, diag := n.diag, valid := false, partner := 0, readback := 0,
    di := { comp := ch.mode.isLvl && ch.di.comp, pend := n.mode.isLvl, crossAt := now },
    dic := { gateStart := now }, o := { elecOff := n.mode.isOut && (T.lp.st.gone || T.reen) }, m := {}, btn := {} }
  let ch := s.chan t c
  match ch.ofsMax with
  | some m => if ch.ofsOk ch.trimOfs then s else s.trimChange t c (clampInt (-(m : Int)) m ch.trimOfs) ch.trimGain
  | none => s

/-- An admitted CH_CFG write that leaves a DI or DIC channel in its mode (03 R92, R93, R469). -/
def State.inputCfg (t c : Nat) (old : Chan) (s : State) : State :=
  let ch := s.chan t c
  let s := if ch.mode = .di && old.chatEn && !ch.chatEn then
      (if ch.di.chatter then
        let s := s.modChan t c fun ch => { (ch.mark 0 false) with di := { ch.di with chatter := false, chatRun := false, chatQuiet := 0 } }
        s.emit t c 6 (payload [(16, 1, 1), (20, 4, ch.di.chatCount), (24, 1, b2n ch.di.level)])
       else s.modDi t c fun d => { d with chatRun := false })
    else s
  let s := if old.invert ≠ ch.invert ∧ ch.di.first then
      (if ch.mode = .di ∧ old.valid then s.accLevel t c (!ch.di.level) true false
       else
         let s := s.modDi t c fun d => { d with level := !d.level, riseAt := if d.level then d.riseAt else s.tnow t }
         if ch.mode = .di ∧ ch.di.level then s.setDiag t c 1 false else s)
    else s
  let s := s.judgeValid t c
  if ch.mode = .di then (if ch.stuckT = 0 then s.setDiag t c 1 false else s.stuckCheck t c) else s

/-- A write to CH_MODE, CH_CFG or CH_DIAG of channel `c` that would leave `n` (03 R82), and its ADM code. `modeReg` and
`cfgReg` say which registers it reaches. -/
def State.chWrite (t c : Nat) (n : Chan) (modeReg cfgReg : Bool) (s : State) : State × Nat :=
  let T := s.tile t
  let old := T.chan c
  let T' := T.modChan c fun _ => n
  let g := 32 * t + c
  let txn := (cfgReg && s.inTxn g) ||
    (modeReg && (match T.leader c with | some l => s.inTxn (32 * t + l) | none => false))
  let adm := T.admCode T' c modeReg cfgReg txn
  if adm ≠ 0 then
    (s.modTile t fun T => { (T.modChan c fun ch => { ch with adm := adm }) with
      heatRef := if adm = 1 then sat 0xFFFF T'.heat else T.heatRef,
      excRef := if adm = 2 ∧ 10000 < T'.exc ∧ T.exc ≤ T'.exc then sat 0xFFFF T'.exc else T.excRef }, adm)
  else
    let changed := old.mode ≠ n.mode
    let s := (s.modChan t c fun ch => { ch with adm := 0 }).commandsFirst t c
    let s := if cfgReg then (s.abortStaged t c).dropInj t c changed else s
    let s := if cfgReg then s.modCv t (ConvUnit.voidHist c) else s
    let s := if old.mode.isDriven && (changed || n.groupN < old.groupN) then s.offAction t c 4 else s
    let s := if changed then
        (((s.endDiags t c).enterMode t c n).stopWhere t 2 fun x => x.r.ch = c).railIdle t
      else
        let s := s.modChan t c fun ch => { ch with par := n.par, cfg := n.cfg, diag := n.diag }
        if n.mode = .di || n.mode = .dic then s.inputCfg t c old else s
    (s.refresh t, 0)

/-- A write to CH_MODE, as a register (03 R81, R122). -/
def State.modeWrite (t c : Nat) (w : Word) (s : State) : State × Nat :=
  let ch := s.chan t c
  match Mode.ofCode (fld w 4 0), fld w 9 8 with
  | some m, par =>
    if par = 3 then (s.modChan t c fun ch => { ch with adm := 3 }, 3)
    else
      let n := if m = ch.mode then { ch with par := par } else ch.asWritten m par (cfgReset m) (diagReset m)
      s.chWrite t c n true true
  | none, _ => (s.modChan t c fun ch => { ch with adm := 3 }, 3)

/-- A write to CH_CFG. -/
def State.cfgWrite (t c : Nat) (w : Word) (s : State) : State × Nat :=
  let ch := s.chan t c
  s.chWrite t c (ch.asWritten ch.mode ch.par w ch.diag) false true

/-- A write to CH_DIAG. -/
def State.diagWrite (t c : Nat) (w : Word) (s : State) : State × Nat :=
  let ch := s.chan t c
  s.chWrite t c (ch.asWritten ch.mode ch.par ch.cfg w) false false

/-- A write to CH_STAT clears CLAMP_L and DIAG_L bits (03 Table 3-11). -/
def State.statWrite (t c : Nat) (w : Word) (s : State) : State :=
  s.modChan t c fun ch => { ch with
    clampL := ch.clampL && !bit w 23, diagL := (ch.diagL &&& (255 - fld w 15 8)) }

end Sys2Proof.Machine
end

