-- ==== Sys2Proof/Machine/Outputs.lean ====
section
/-!
DEFINITION. Outputs: the arrival and commit of output actions, protective actions and diagnoses of the high-side
switches, the pin clamp and surges, the field supply L+, analogue outputs with their rail, excitation, mirrors and tile
temperatures (02 R67 to R70; 03 R98 to R118; 04 R130, R136, R145, R149 to R168; 13 R430, R436, R437).
-/
namespace Sys2Proof.Machine

/-! ## Single output actions -/

/-- The order in which actions of one channel are accessioned (02 R68). -/
def actionLt (a b : Action) : Bool := a.commit < b.commit || (a.commit = b.commit && a.order < b.order)

/-- An action inserted into a channel's staged actions, which stand in the order of R68. -/
def stageAction (a : Action) : List Action → List Action
  | [] => [a]
  | x :: xs => if actionLt a x then a :: x :: xs else x :: stageAction a xs

/-- A commanded action accessioned, with what follows from it at its tile. -/
def State.commitDueOne (t c : Nat) (d : Due) (s : State) : State := (s.accDue t c d).refresh t

/-- A single action accessioned, with its completion (02 R67, 07 OUT_SET). -/
def State.commitAction (t c : Nat) (a : Action) (s : State) : State := s.commitDueOne t c (.act a)

/-- An action that a pre-check refuses: FATE 0b100, FAULTED with the reason and the channel (03 R101, Table 7-11). -/
def State.refuseAction (t c reason : Nat) (a : Action) (s : State) : State :=
  (s.discard t c 1 4).reply a.h a.opcode { st := 8, rs := reason, ix := 32 * t + c }

/-- A single action reaches its tile (02 R67): too late it is discarded with a deadline fault; otherwise it is
pre-checked, and accessioned at once or staged. -/
def State.arriveAction (a : Action) (s : State) : State :=
  let t := a.g / 32
  let c := a.g % 32
  let T := s.tile t
  let now := s.tnow t
  if a.commit ≠ 0 ∧ a.commit < now then
    ((s.discard t c 1 6).raiseCh (35 + t) 10 c a.g 0 (sat 0xFFFFFFFF (now - a.commit))).reply a.h a.opcode { st := 5 }
  else
    match T.preCheck c a.kind a.value with
    | 0 =>
      let s := if a.commit = 0 then s else s.margin (35 + t) 3 (a.commit - now)
      if a.commit = 0 then s.commitAction t c a
      else s.modChan t c fun ch => { ch with staged := stageAction a ch.staged }
    | r => s.refuseAction t c r a

/-- The commanded actions of a channel that are due and satisfy `f` are accessioned in their order (02 R68). -/
def State.commitDue (t c : Nat) (f : Due → Bool) (s : State) : State :=
  forAll (State.commitDueOne t c) ((s.dues t c).filter f) s

/-! ## Protective actions -/

/-- The switch of `c` is on and can carry current. -/
def Tile.runs (T : Tile) (c : Nat) (now : Tick) : Bool :=
  let ch := T.chan (T.lead c)
  !ch.o.cut now && T.auth c ≠ 2 && (T.stage c now ≠ 0 || (ch.mode = .mir && ch.m.mirGen && (T.auth c = 4 || T.auth c = 1)))

/-- Level 3, or a mirror's generation, is ON. -/
def Chan.on (ch : Chan) : Bool :=
  match ch.o.lvl3 with
  | some v => v ≠ 0
  | none => ch.mode = .mir && ch.o.post.isNone

/-- A protective action on channel `l` (03 R102 to R104): in safe state the stage is off until it ends (R112), otherwise
level 2 holds it. -/
def State.protect (t l : Nat) (f : OutState → OutState) (s : State) : State :=
  if (s.tile t).safe l then s.modOut t l fun o => { o with trip := true, okAt := none }
  else s.modOut t l fun o => f { o with prot := true, retryAt := none, okAt := none }

/-- Current limit for 200 µs (03 R102). -/
def State.shortGnd (t c : Nat) (s : State) : State :=
  let T := s.tile t
  let l := T.lead c
  let ch := T.chan l
  let now := s.tnow t
  if !(ch.mode = .dout || ch.mode = .mir) || !T.runs l now then s
  else
    let s := s.setDiag t c 0 true
    (s.protect t l fun o =>
      if ch.retryEn && o.retries < 3 then { o with retryAt := some (now + 100 * ms) } else { o with latch := true }).refresh t

/-- A mirror's output period begins anew: after a protective hold, and in its slot after a loss of L+ (03 R116; log 28). -/
def State.mirAnew (t c : Nat) (s : State) : State :=
  let now := s.tnow t
  s.modMeas t c fun m => { m with mirPer := now }

/-- The end of a level 2 hold: the pin takes the level 3 state, or waits for its slot (02 R70, 03 R116). `retry` says that
it counts as a retry. -/
def State.endProt (t l : Nat) (retry : Bool) (s : State) : State :=
  let T := s.tile t
  let ch := T.chan l
  let now := s.tnow t
  let dead := T.lp.st.gone || T.reen
  let s := s.modOut t l fun o => { o with
    prot := o.hot || o.retryAt.isSome, retries := if retry && ch.on && !T.safe l then satInc 255 o.retries else o.retries,
    okAt := if ch.on && retry then some (now + 200 * us) else o.okAt, elecOff := o.elecOff || (dead && ch.on) }
  if ch.mode = .mir then s.mirAnew t l else s

/-- 100 ms after an overload the switch is on again (03 R102). -/
def State.overloadRetry (t c : Nat) (s : State) : State :=
  let l := (s.tile t).lead c
  let o := (s.chan t l).o
  match o.retryAt with
  | some x =>
    if x ≤ s.tnow t && o.prot && !o.latch then
      ((s.modOut t l fun o => { o with retryAt := none }).endProt t l true).refresh t
    else s
  | none => s

/-- The bit of THERMAL in a mode (Tables 3-10, 4-21). -/
def Mode.thermalBit (m : Mode) : Option Nat :=
  match m with
  | .dout | .dop | .mir => some 1
  | .aoi | .aov | .exp | .exs => some 4
  | _ => none

/-- Thermal shutdown (03 R103, 04 Table 4-16). -/
def State.thermal (t c : Nat) (s : State) : State :=
  let T := s.tile t
  let l := T.lead c
  let ch := T.chan l
  match (T.chan c).mode.thermalBit with
  | none => s
  | some b =>
    let s := s.setDiag t c b true
    if ch.mode.isOut then
      let s := s.modOut t l fun o => { o with hot := true }
      let s := if ch.mode.isAo then (if T.safe l then s else s.modOut t l fun o => { o with prot := true })
        else s.protect t l fun o => if ch.retryEn && o.retries < 3 then o else { o with latch := true }
      s.refresh t
    else s.refresh t

/-- The junction falls below the re-enable level (03 R103): the channel switches on again as a retry, unless it is latched
or another member of its group is still hot. -/
def State.thermalEnd (t c : Nat) (s : State) : State :=
  let T := s.tile t
  let l := T.lead c
  match (T.chan c).mode.thermalBit with
  | none => s
  | some b =>
    let s := s.setDiag t c b false
    let T' := s.tile t
    let ch := T'.chan l
    if ch.o.hot && !(T'.group l).any (fun k => (T'.chan k).diagP.testBit b) then
      let s := s.modOut t l fun o => { o with hot := false }
      let s := if !ch.o.prot || ch.o.latch || (ch.mode = .aov && ch.diagP.testBit 2) then s
        else s.endProt t l (ch.mode = .dout || ch.mode = .mir)
      s.refresh t
    else s.refresh t

/-- Load current above the declaration for 100 ms (03 R104): latched off without retries. -/
def State.overDecl (t c : Nat) (s : State) : State :=
  let T := s.tile t
  let l := T.lead c
  let ch := T.chan l
  if !(ch.mode = .dout || ch.mode = .mir) || !T.runs l (s.tnow t) then s
  else ((s.setDiag t c 7 true).protect t l fun o => { o with latch := true }).refresh t

/-- A switch that has run on for 200 µs without limit: SHORT_GND stops being present (03 R102). -/
def State.shortOver (t : Nat) (s : State) : State :=
  forAll (fun c s =>
    let T := s.tile t
    let now := s.tnow t
    match (T.chan c).o.okAt with
    | some x =>
      if !T.runs c now then s.modOut t c fun o => { o with okAt := some (now + 200 * us) }
      else if x ≤ now then
        forAll (fun k s => s.setDiag t k 0 false) (T.group c) (s.modOut t c fun o => { o with okAt := none })
      else s
    | none => s) chanNos s

/-! ## Output diagnostics (03 R106 to R109) -/

/-- On-state open load (03 Table 3-10): judged while the switch is on and L+ is NORMAL. -/
def State.openOn (t c : Nat) (low : Bool) (s : State) : State :=
  let T := s.tile t
  let l := T.chan (T.lead c)
  if l.mode ≠ .dout ∨ T.lp.st ≠ .normal then s
  else s.setDiag t c 2 (low && bit l.diag 29 && T.runs c (s.tnow t))

/-- Other channels that are on with test pulses. -/
def Tile.pulsers (T : Tile) (c : Nat) (now : Tick) : List Nat :=
  chanNos.filter fun x => x ≠ T.lead c && (T.chan x).mode = .dout && (T.chan x).tpEn && T.runs x now

/-- A SUSPECT finding is resolved once every other on channel with test pulses has been pulsed: SHORT_LP within 1.5 V of
L+, else EXT_DRIVEN (03 R108). -/
def State.resolve (t c : Nat) (s : State) : State :=
  let T := s.tile t
  let o := (T.chan c).o
  if o.suspect.isSome && (T.pulsers c (s.tnow t)).all (o.pulsed.contains ·) then
    let near := (o.suspectMv - 10 * T.lp.volt).natAbs ≤ 1500
    let s := s.modOut t c fun o => { o with suspect := none, pulsed := [] }
    (s.setDiag t c 4 near).setDiag t c 6 (!near)
  else s

/-- A pin is found above 6.0 V: `how` 0 while off, 1 during its own pulse (03 R108). -/
def State.suspectPin (t c how : Nat) (mv : Int) (s : State) : State :=
  let ch := s.chan t c
  if ch.diagP.testBit 4 || ch.diagP.testBit 5 || ch.diagP.testBit 6 then s
  else if ch.o.suspect.isSome then (s.modOut t c fun o => { o with suspect := some how, suspectMv := mv }).resolve t c
  else (s.modOut t c fun o => { o with suspect := some how, suspectMv := mv, pulsed := [] }).resolve t c

/-- CROSS_FED on both channels of a tie (03 R109). -/
def State.tie (t a b : Nat) (s : State) : State :=
  let one (x y : Nat) (s : State) : State :=
    ((s.modChan t x fun ch => { ch with partner := y, o := { ch.o with suspect := none, pulsed := [] } })).setDiagX t x 5 true y 0
  one b a (one a b s)

/-- A tie found gone: CROSS_FED stops being present on both channels (03 R109). -/
def State.untie (t a : Nat) (s : State) : State :=
  let b := (s.chan t a).partner
  let one (x y : Nat) (s : State) : State :=
    (s.setDiagX t x 5 false y 0).modChan t x fun ch => { ch with partner := 0, o := { ch.o with pulsed := [] } }
  let s := one a b s
  if (s.chan t b).partner = a && (s.chan t b).diagP.testBit 5 then one b a s else s

/-- The off-state check: K reads an off pin (03 R106, R108, R109). -/
def State.offCheck (t c : Nat) (mv : Int) (s : State) : State :=
  let T := s.tile t
  let ch := T.chan c
  let l := T.chan (T.lead c)
  let now := s.tnow t
  let en := if l.mode = .dout then bit l.diag 30 else true
  let gone (s : State) : State :=
    if ch.diagP.testBit 5 && ch.o.pulsed.contains ch.partner && T.runs ch.partner now then s.untie t c else s
  if !(ch.mode = .dout || ch.mode = .dop) then s
  else if !en then (s.modOut t c fun o => { o with offHits := 0 }).setDiag t c 3 false
  else if T.stage c now ≠ 0 && !l.o.elecOff then (s.modOut t c fun o => { o with offHits := 0 }).setDiag t c 3 false
  else
    let quiet (s : State) : State :=
      ((s.modOut t c fun o => { o with suspect := if o.suspect = some 0 then none else o.suspect }).setDiag t c 4 false).setDiag t c 6 false
    let s := if mv < 2000 then
        gone (quiet ((s.modOut t c fun o => { o with offHits := 0 }).setDiag t c 3 false))
      else if mv ≤ 6000 then
        let s := gone (quiet (s.modOut t c fun o => { o with offHits := o.offHits + 1 }))
        if 1 ≤ ch.o.offHits then s.setDiag t c 3 true else s
      else ((s.modOut t c fun o => { o with offHits := 0 }).setDiag t c 3 false).suspectPin t c 0 mv
    s.refresh t

/-- What the pulse of group `l` shows of one of its own members (03 R107, R108). -/
def State.ownPin (t l k : Nat) (mv : Int) (s : State) : State :=
  let T := s.tile t
  let ch := T.chan k
  let now := s.tnow t
  if ch.o.suspect = some 1 then
    match (T.pulsers l now).find? (fun b => !ch.o.pulsed.contains b) with
    | some b =>
      let s := s.modOut t b fun o => { o with darkTill := now + T.tpWidth * us }
      if mv < 6000 then s.tie t k b
      else (s.modOut t k fun o => { o with pulsed := b :: o.pulsed }).resolve t k
    | none => s.resolve t k
  else if 6000 ≤ mv then s.suspectPin t k 1 mv
  else
    let s := (s.setDiag t k 4 false).setDiag t k 6 false
    if ch.diagP.testBit 5 && T.runs ch.partner now then s.untie t k else s

/-- What the pulse of group `l` shows of another channel of the tile (03 R108, R109). -/
def State.otherPin (t l k : Nat) (mv : Int) (s : State) : State :=
  let ch := s.chan t k
  if ch.o.suspect = some 0 then
    if mv < 6000 then s.tie t k l else (s.modOut t k fun o => { o with pulsed := l :: o.pulsed }).resolve t k
  else if ch.diagP.testBit 5 && ch.partner = l then s.modOut t k fun o => { o with pulsed := [l] }
  else s

/-- A dark pulse of channel `c` and its group from the row's tick on (03 R107; suspended by R114, Table 9-9 and 13
R437): `ua` is the switch current at the end of the pulse, `pins` the voltages of the tile's pins then. -/
def State.darkPulse (t c ua : Nat) (pins : List (Nat × Int)) (s : State) : State :=
  let T := s.tile t
  let ch := T.chan c
  let now := s.tnow t
  let joint := (T.group c).any fun k => (T.chan k).o.suspect = some 1
  if ch.mode ≠ .dout || !ch.tpEn || !T.runs c now || T.lp.st ≠ .normal || T.safe c || now < ch.o.noDarkTill ||
      (now < ch.o.darkNext && !joint) then s
  else
    let s := s.modOut t c fun o => { o with
      darkTill := now + T.tpWidth * us, darkNext := if joint then o.darkNext else now + T.tpPeriod * (100 * ms) }
    if 4000 ≤ ua then s.raiseCh (35 + t) 3 c (32 * t + c) 0 0
    else
      (forAll (fun (p : Nat × Int) s =>
        let m := (s.chan t p.1).mode
        if !(m = .dout || m = .dop) then s
        else if (T.group c).contains p.1 then s.ownPin t c p.1 p.2 else s.otherPin t c p.1 p.2) pins s).refresh t

/-! ## The pin clamp and surges (03 R111, 04 R160, R161) -/

/-- A pin beyond its absolute maximum ratings (15 Table 15-1). -/
def pinBeyond (mv : Int) (ma : Nat) : Bool := mv < -60000 || 60000 < mv || 5000 < ma

/-- Pin `c` is one of those that a conversion of input `i` reads. -/
def Tile.reads (T : Tile) (i c : Nat) : Bool := i < 32 && i ≤ c && c ≤ i + (T.chan i).claims

/-- A conversion in its window overlaps the clamp's action on pin `c`: on its own pins, or on its RATIO partner's. -/
def Tile.clampJob (T : Tile) (c : Nat) (now : Tick) (j : Option Job) : Option Job :=
  j.map fun j =>
    if !j.waiting && j.sampleAt ≤ now then
      { j with clamp := j.clamp || T.reads j.input c,
               clampB := j.clampB || (j.input < 32 && (T.chan j.input).isRatio && T.reads (T.chan j.input).part c) }
    else j

/-- The pin clamp starts or stops acting (03 R111). -/
def State.pinClamp (t c : Nat) (acting : Bool) (s : State) : State :=
  let T := s.tile t
  let ch := T.chan c
  let now := s.tnow t
  let s := s.modChan t c fun ch => { ch with clampP := acting, clampL := ch.clampL || acting }
  let s := if acting then s
    else s.modCv t fun u => { u with jobP := T.clampJob c now u.jobP, jobF := T.clampJob c now u.jobF }
  if acting && !ch.clampP && !ch.clampL then s.notice t c (32 * t + c) 4 else s

/-- Modes whose DIAG bit 5 is SURGE (04 Table 4-21). -/
def Mode.hasSurge (m : Mode) : Bool := m.isMeas || m.isAo || m = .exp || m = .exs || m = .mir || m = .trim

/-- An instant of surge (04 R161). -/
def State.surge (t c : Nat) (mv : Int) (ma : Nat) (s : State) : State :=
  let ch := s.chan t c
  if 40000 < mv ∨ mv < -38000 ∨ 500 < ma then
    let s := if ch.m.surgeAt.isSome then s
      else (if ch.mode.hasSurge then s.setDiag t c 5 true else s).notice t c (32 * t + c) 5
    s.modMeas t c fun m => { m with surgeAt := some (s.tnow t) }
  else s

/-- SURGE stops being present 10 ms after the last such instant (04 R161). -/
def State.surgeOver (t c : Nat) (s : State) : State :=
  match (s.chan t c).m.surgeAt with
  | some x =>
    if x + 10 * ms ≤ s.tnow t then
      let s := s.modMeas t c fun m => { m with surgeAt := none }
      if (s.chan t c).mode.hasSurge then s.setDiag t c 5 false else s
    else s
  | none => s

/-! ## Field supply L+ (03 R113 to R118) -/

/-- L+ beyond its absolute maximum ratings, in 10 mV (15 Table 15-1). -/
def lplusBeyond (cv : Int) : Bool := cv < -6000 || 6000 < cv

/-- The counts of successive samples beyond the entry thresholds, and beyond the exit threshold of the state in force. -/
def LPlus.count (v : Int) (p : LPlus) : LPlus :=
  let out := match p.st with
    | .normal => false
    | .high => v < 3060
    | .low => 1860 < v
    | .missing => 1300 < v
    | .reversed => -50 < v
  { p with
    volt := v, nHigh := if 3100 < v then p.nHigh + 1 else 0, nLow := if v < 1800 then p.nLow + 1 else 0,
    nMiss := if v < 1200 then p.nMiss + 1 else 0, nRev := if v < -100 then p.nRev + 1 else 0,
    nExit := if out then p.nExit + 1 else 0 }

/-- The state after a sample (03 Table 3-12): the lowest state of the table that is entered, or the state that the one in
force is left into after 20 samples. -/
def LPlus.next (p : LPlus) : LState :=
  let rank : LState → Nat := fun x => match x with | .normal => 0 | .high => 1 | .low => 2 | .missing => 3 | .reversed => 4
  let ent : LState := if 2 ≤ p.nRev then .reversed else if 2 ≤ p.nMiss then .missing else if 2 ≤ p.nLow then .low
    else if 2 ≤ p.nHigh then .high else .normal
  if rank p.st < rank ent then ent
  else if p.st ≠ .normal ∧ 20 ≤ p.nExit then
    match p.st with
    | .reversed => .missing
    | .missing => .low
    | _ => if 2 ≤ p.nHigh then .high else .normal
  else p.st

/-- Entry to a state, with its SEEN bit. -/
def LPlus.enter (n : LState) (p : LPlus) : LPlus :=
  let p := { p with st := n, nExit := 0 }
  match n with
  | .high => { p with highSeen := true }
  | .low => { p with lowSeen := true }
  | .missing => { p with missSeen := true }
  | .reversed => { p with revSeen := true }
  | .normal => p

/-- LOW or HIGH: the condition of LPLUS_LOW (09 Table 9-5). -/
def LState.off (x : LState) : Bool := x = .low || x = .high

/-- A staged ON action of a channel with DROP_ON_LOSS ends when L+ is lost (13 Table 13-3). -/
def State.dropStaged (t c : Nat) (s : State) : State :=
  let ch := s.chan t c
  if ch.dropOnLoss then
    let gone := ch.staged.filter fun a => a.value ≠ 0
    forAll (fun a s => s.refuseAction t c 2 a) gone
      (s.modChan t c fun ch => { ch with staged := ch.staged.filter fun a => a.value = 0 })
  else s

/-- Every output stage is switched off (03 R115): level 3 is kept, and DROP_ON_LOSS channels get an off action. -/
def State.loseField (t : Nat) (s : State) : State :=
  let s := s.modTile t fun T => { T with reen := false }
  forAll (fun c s =>
    let ch := s.chan t c
    if ch.mode.isOut then
      let s := (s.commandsFirst t c).modOut t c fun o => { o with elecOff := true }
      let s := s.dropStaged t c
      if ch.dropOnLoss then s.offAction t c 3 else s
    else s) chanNos s

/-- A channel waits for its place in the re-energising order (03 R116). -/
def Tile.waits (T : Tile) (c : Nat) : Bool :=
  let ch := T.chan c
  ch.mode.isOut && ch.o.elecOff && ch.on && T.auth c ≠ 1 && T.auth c ≠ 2

/-- A stage may be switched on again. -/
def State.energise (t c : Nat) (s : State) : State :=
  let now := s.tnow t
  let s := s.modOut t c fun o => { o with
    elecOff := false, okAt := if (s.chan t c).diagP.testBit 0 && o.okAt.isSome then some (now + 200 * us) else o.okAt }
  if (s.chan t c).mode = .mir then s.mirAnew t c else s

/-- MISSING is left: channels that do not wait are released, the others wait for their slots (03 R116). -/
def State.regainField (t : Nat) (s : State) : State :=
  let s := s.modTile t fun T => { T with reen := true }
  forAll (fun c s =>
    let T := s.tile t
    if (T.chan c).mode.isOut && (T.chan c).o.elecOff && !T.waits c && T.auth c ≠ 2 then s.energise t c else s) chanNos s

/-- The waiting channels that fill one slot of four places, in ascending order (03 R116). -/
def Tile.fillSlot (T : Tile) : Nat → List Nat → List Nat
  | _, [] => []
  | room, c :: cs => let n := (T.chan c).groupN; if n ≤ room then c :: T.fillSlot (room - n) cs else []

/-- One slot of the re-energising interval (03 R116). -/
def State.reenSlot (t : Nat) (s : State) : State :=
  let T := s.tile t
  if !T.reen then s
  else
    let w := chanNos.filter T.waits
    if w.isEmpty then
      forAll (fun c s => if ((s.tile t).chan c).o.elecOff then s.energise t c else s) chanNos
        (s.modTile t fun T => { T with reen := false })
    else (forAll (fun c s => s.energise t c) (T.fillSlot 4 w) s).refresh t

/-- One sample of L+, in 10 mV (03 R113). -/
def State.lplus (t : Nat) (cv : Int) (s : State) : State :=
  let p := (s.tile t).lp.count cv
  let n := p.next
  let old := p.st
  let s := (s.modTile t fun T => { T with lp := p }).shortOver t
  if n = old then s
  else
    let s := s.modTile t fun T => { T with lp := T.lp.enter n }
    let s := s.emit t 32 9 (payload [(16, 1, n.code), (18, 2, toField 16 cv)])
    let s := if old.off && !n.off then s.endPresent (35 + t) 1 else s
    let s := if old.gone && !n.gone then s.endPresent (35 + t) 2 else s
    let s := if n.off then s.raise (35 + t) 1 0 n.code 0 else if n.gone then s.raise (35 + t) 2 0 n.code 0 else s
    let s := if n.gone then s.loseField t else if old.gone && !n.gone then s.regainField t else s
    (forAll (fun c s => s.judgeValid t c) chanNos s).refresh t

/-! ## Analogue outputs (04 R149 to R159) -/

/-- A readback in its channel's code weight, 5 nA or 2 µV, rounded half to even (04 R156, 05 R214). -/
def Readback.code (aoi : Bool) (r : Readback) : Nat :=
  (if aoi then roundHalfEven r.na 5 else roundHalfEven r.uv 2).toNat

/-- The conditions of Table 4-16, bits 0, 1, 2 and 6, and whether READBACK's comparison fails. COMPLIANCE and READBACK
compare with the driven value, after trim (R169). -/
def Tile.aoCond (T : Tile) (c : Nat) (now : Tick) (r : Readback) : List Bool × Bool :=
  let ch := T.chan c
  let v := T.drive c now
  let k := T.driveCodes c now
  if ch.mode = .aoi then
    let rd : Int := Readback.code true r
    let rmin := fld ch.cfg 6 0
    ([1000 ≤ v && r.na < 100000 && r.saturated, r.saturated && 100000 ≤ r.na && ((r.na + 120000 : Nat) : Int) < 5 * k, false,
      4000000 ≤ r.na && ((r.uv * 1000 : Nat) : Int) < (9 * (rmin : Int) - 10) * r.na], 48000 < (rd - k).natAbs)
  else
    let rd : Int := Readback.code false r
    ([false, false, r.limiting, 110000 * fld ch.cfg 14 7 + 500000 < r.na], 52500 < (rd - k).natAbs)

/-- The lengths of a condition: held and absent, in readbacks. -/
def MeasState.hold (b : Nat) (on : Bool) (m : MeasState) : MeasState :=
  { m with condOn := updAt (fun n => if on then n + 1 else 0) b m.condOn,
           condOff := updAt (fun n => if on then 0 else n + 1) b m.condOff }

/-- One diagnosis follows its condition after `n` readbacks of it, and ends after two without it (04 R157). -/
def State.aoDiag (t c b n : Nat) (on : Bool) (s : State) : State :=
  let s := s.modMeas t c (MeasState.hold b on)
  let m := (s.chan t c).m
  if on ∧ n ≤ m.condOn.getD b 0 then s.setDiag t c b true
  else if !on ∧ 2 ≤ m.condOff.getD b 0 then s.setDiag t c b false
  else s

/-- A latch of Table 4-16: the stage is off until the next accessioned action. -/
def State.aoLatch (t c : Nat) (s : State) : State := s.modOut t c fun o => { o with prot := true, latch := true }

/-- One K readback of an AOI or AOV channel, every 1 ms (04 R156, R157). -/
def State.aoReadback (t c : Nat) (r : Readback) (s : State) : State :=
  let T := s.tile t
  let ch := T.chan c
  let now := s.tnow t
  if !ch.mode.isAo then s
  else
    let code := Readback.code (ch.mode = .aoi) r
    let (cs, diff) := T.aoCond c now r
    let tc := 2 * fld ch.diag 28 24
    let s := s.modChan t c fun ch => { ch with
      readback := sat 0xFFFFFF code,
      m := { ch.m with has := true, x := code, y := code, ts := now, na := r.na, uv := r.uv } }
    let s := s.accessioned t c 0 code now 0 0
    let s := ((s.aoDiag t c 0 tc (cs.getD 0 false)).aoDiag t c 1 tc (cs.getD 1 false)).aoDiag t c 2 tc (cs.getD 2 false)
    let lim := (s.chan t c).diagP.testBit 2 && cs.getD 2 false
    let s := if ch.mode = .aov then s.modOut t c fun o => { o with prot := lim || o.hot || o.latch } else s
    let bad := diff && !(cs.getD 0 false || cs.getD 1 false || cs.getD 2 false || ch.diagP.testBit 4)
    let was := (s.chan t c).diagP
    let s := s.aoDiag t c 3 10 bad
    let s := if (s.chan t c).diagP.testBit 3 && !was.testBit 3 then
        (s.aoLatch t c).raiseCh (35 + t) 4 c (32 * t + c) 0 0 else s
    let s := s.aoDiag t c 6 100 (cs.getD 3 false)
    let s := if (s.chan t c).diagP.testBit 6 && !was.testBit 6 then s.aoLatch t c else s
    s.refreshAt t none now

/-- The largest value that a transaction staged at tile `t` holds for channel `c` (02 Table 2-8: it is pre-armed). -/
def State.txnArm (t c : Nat) (s : State) : Nat :=
  (s.txns.flatMap fun x =>
    if x.arrived.contains t && !x.ended.contains t && x.decided ≠ some false then
      (x.members.filter fun m => m.g = 32 * t + c).map (·.value)
    else []).foldl max 0

/-- The present need of the rail's outputs in mV, with the pre-arm of staged actions and transactions at R_LMAX (04
R153). -/
def State.railNeed (t : Nat) (now : Tick) (s : State) : Nat :=
  let T := s.tile t
  (chanNos.map fun c =>
    let ch := T.chan c
    let v := T.drive c now
    let lmax := 10 * fld ch.cfg 13 7
    let st := ch.staged.foldl (fun m a => max m a.value) (s.txnArm t c)
    if ch.mode = .aoi then
      max (if ch.m.na = 0 then v * lmax / 1000 else v * ch.m.uv / ch.m.na) (st * lmax / 1000)
    else if ch.mode = .aov then max v st
    else 0).foldl max 0

/-- The rail's target in 0.1 V (04 R153). -/
def State.railTarget (t : Nat) (now : Tick) (s : State) : Nat :=
  min (s.tile t).crSet (max 60 (ceilDiv (s.railNeed t now + 2000) 100))

/-- The compliance rail sample, every 1 ms, in 0.1 V (04 R154). -/
def State.crail (t dv : Nat) (s : State) : State :=
  let T := s.tile t
  if T.crSet = 0 then (s.modTile t fun T => { T with crNow := 0, railLow := 0, railHigh := 0 }).railIdle t
  else
    let g := s.railTarget t (s.tnow t)
    let ok := T.lp.st = .normal || T.lp.st = .low
    let low := if ok && 10 * dv < 9 * g then T.railLow + 1 else 0
    let high := if 95 * g ≤ 100 * dv then T.railHigh + 1 else 0
    let s := s.modTile t fun T => { T with crNow := sat 0xFFF dv, railLow := low, railHigh := high }
    if !T.railFault && 5 ≤ low then
      ((s.modTile t fun T => { T with railFault := true, railSeen := true }).raise (35 + t) 5 0 0 0).refresh t
    else if T.railFault && 5 ≤ high then
      ((s.modTile t fun T => { T with railFault := false }).endPresent (35 + t) 5).refresh t
    else s

/-! ## Current loops, excitation and mirrors -/

/-- An AII input folds back after 1 ms in limit (04 R130). -/
def State.foldback (t c : Nat) (s : State) : State :=
  if (s.chan t c).mode = .aii && !(s.chan t c).m.fold then
    ((s.modMeas t c fun m => { m with fold := true }).setDiag t c 7 true).refresh t
  else s

/-- A conversion in its window on channel `c` has overlapped foldback. -/
def Job.folded (c : Nat) (now : Tick) (j : Job) : Job :=
  if j.input = c && !j.waiting && j.sampleAt ≤ now then { j with fold := true } else j

/-- A folded-back AII input retries at full limit for 1 ms and finds `ua` (04 R130). -/
def State.foldRetry (t c ua : Nat) (s : State) : State :=
  if (s.chan t c).mode = .aii && (s.chan t c).m.fold && ua < 24000 then
    let now := s.tnow t
    let s := s.modCv t fun u => { u with jobP := u.jobP.map (Job.folded c now), jobF := u.jobF.map (Job.folded c now) }
    ((s.modMeas t c fun m => { m with fold := false }).setDiag t c 7 false).refresh t
  else s

/-- The DMD job that integrates the cycle of excitation channel `c` that ends now takes it as failed. -/
def Tile.spoil (T : Tile) (c : Nat) (now : Tick) (j : Option Job) : Option Job :=
  j.map fun j =>
    if j.input < 32 && (T.chan j.input).mode = .dmd && (T.chan j.input).excCh = c && !j.waiting && j.sampleAt < now then
      { j with exc := true }
    else j

/-- The end of a cycle or pulse of an EXP or EXS channel: how far its limit acted in it, and its drive current in nA (04
R145). The hold lasts until a cycle passes without limiting. -/
def State.excCycle (t c : Nat) (lim : Limiting) (na : Nat) (s : State) : State :=
  let T := s.tile t
  let ch := T.chan c
  if ch.mode = .exp || ch.mode = .exs then
    let hold := lim = .whole || (lim = .part && ch.o.prot)
    let low := lim ≠ .whole && na < 20000
    let s := s.modChan t c fun ch => { ch with
      readback := sat 0xFFFFFF (roundHalfEven na 5).toNat, o := { ch.o with prot := hold } }
    let s := (s.setDiag t c 2 hold).setDiag t c 0 low
    if lim = .whole || low then s.modCv t fun u => { u with jobF := T.spoil c (s.tnow t) u.jobF } else s
  else s

/-- A mirror's output period starts and takes the newest mapped value, with the settings then in force, or OUT_LO where
ON_INVALID asks for it (04 R164 to R168): no period is cut short, and a setting written during one waits for the next. -/
def State.mirStart (t c : Nat) (s : State) : State :=
  let T := s.tile t
  let ch := T.chan c
  let now := s.tnow t
  let pr := T.mirs.getD ch.mirProf {}
  let run (v : Nat) (m : MeasState) : MeasState :=
    let (p, hi) := mirPeriod ch pr v
    { m with mirPer := now, mirPd := p, mirHi := hi, mirWait := false }
  let wave := ch.m.mirGen || ch.onInvalid = 2 || (ch.onInvalid = 3 && ch.m.mirHad)
  if ch.mode ≠ .mir || (wave && now < ch.m.mirPer + ch.m.mirPd) then s
  else match ch.m.mirNext with
    | some v => s.modMeas t c fun m => { run v m with mirNow := v, mirNext := none, mirGen := true, mirHad := true }
    | none =>
      if ch.m.mirGen || (ch.onInvalid = 3 && ch.m.mirHad) then s.modMeas t c (run ch.m.mirNow)
      else if ch.onInvalid = 2 then s.modMeas t c (run (mirOut ch pr.outLo))
      else s

/-! ## Tile temperatures (04 R136, 05 R207) -/

/-- The tile's sensors, in 0.001 °C: the cold junction is the mean of its two sensors; a die temperature CAL_DT away from
the last calibration starts another. -/
def State.tileTemp (t : Nat) (a b d : Int) (s : State) : State :=
  let u := (s.tile t).cv
  let s := s.modTile t fun T => { T with cjc := roundHalfEven (a + b) 2, tdie := d }
  let away := (roundHalfEven d 10 - u.cal.temp).natAbs
  if u.calAuto && u.refReady && u.cal.lastAt.isSome && !u.cal.busy && u.calDt * 10 ≤ away then s.calBackground t [] else s

end Sys2Proof.Machine
end

