-- ==== Sys2Proof/Machine/Txn.lean ====
section
/-!
DEFINITION. Atomic output transactions (02 R71 to R76, Table 2-8; 07 R270; 13 R431, R436, R437).
-/
namespace Sys2Proof.Machine

/-- The transaction that port `p` staged with a TAG. -/
def State.txn (p : PortId) (tag : Nat) (s : State) : Option Txn := s.txns.find? fun x => x.h.port = p && x.h.tag = tag

/-- That transaction replaced. -/
def State.modTxn (p : PortId) (tag : Nat) (f : Txn → Txn) (s : State) : State :=
  { s with txns := s.txns.map fun x => if x.h.port = p ∧ x.h.tag = tag then f x else x }

/-- The decision instant D = C − 20 µs (02 R72). -/
def Txn.d (x : Txn) : Tick := x.c - 2000

/-- The members on tile `t`. -/
def Txn.on (x : Txn) (t : Nat) : List Member := x.members.filter fun m => m.g / 32 = t

/-- The member tiles, in ascending order. -/
def Txn.tiles (x : Txn) : List Nat := tileNos.filter fun t => !(x.on t).isEmpty

/-- A member of the list that R270 refuses, by its number: a channel named twice, no such channel or action, a DOP
channel, or a value that R151 and Table 7-7 refuse. -/
def State.badMember (ms : List Member) (s : State) : Option Nat :=
  ((List.range ms.length).zip ms).findSome? fun x =>
    let m := x.2
    let ch := s.chan (m.g / 32) (m.g % 32)
    if 512 ≤ m.g || 2 ≤ m.action || (ms.take x.1).any (fun y => y.g = m.g) || ch.mode = .dop ||
        (m.action = 1 && 3 ≤ m.value) || (m.action = 0 && (ch.mode = .dout || ch.mode.isAo) && ch.outMax < m.value) then
      some x.1
    else none

/-- The members' channels in global order, which the port must own (02 R71, 07 R268). -/
def memberOwn (ms : List Member) : List (Nat × Nat) :=
  ((List.range 512).filter fun g => ms.any fun m => m.g = g).map fun g => (0, g)

/-- A transaction submitted at its fetch tick (02 R71, 07 R270): refused with a reply, or staged. R71 gives no status for a
C of 0, which must not be: the model's choice is BAD_PARAM at C's byte; and the lateness of a C that is too early, for
which R78 names no instant, is how far C lies before the fetch tick + 10,000 (log 32). -/
def State.submitTxn (h : Hdr) (c : Tick) (ms : List Member) (s : State) : State × Option Reply :=
  if h.arg = 0 ∨ 512 < h.arg ∨ ms.length ≠ h.arg then (s, some { st := 1, rs := 8, ix := 2 })
  else if c = 0 then (s, some { st := 1, rs := 8, ix := 16 })
  else if (s.txn h.port h.tag).isSome then (s, some { st := 1, rs := 9, ix := 0 })
  else match s.badMember ms with
    | some i => (s, some { st := 1, rs := 9, ix := i })
    | none =>
      if c < s.now + 10000 then
        (s.raise 54 5 0 (h.tag % 65536) (sat 0xFFFFFFFF (s.now + 10000 - c)), some { st := 5 })
      else if s.now + 10 * sec < c then (s, some { st := 1, rs := 8, ix := 16 })
      else if 32 ≤ s.txns.length then (s, some { st := 9 })
      else
        ({ (s.margin 54 2 (c - (s.now + 10000))) with
            order := s.order + 1, txns := s.txns ++ [{ h := h, c := c, members := ms, order := s.order }] }, none)

/-- The first channel of a list of members in global order. -/
def firstG (ms : List Member) : Nat := ((List.range 512).find? fun g => ms.any fun m => m.g = g).getD 0

/-- The answer of a member tile: reason 0 READY, else the first refusing channel with its reason (02 R72, 08 R320). -/
def Tile.txnAnswer (T : Tile) (t : Nat) (ms : List Member) : Nat × Nat × Nat :=
  if !T.online then (t, firstG ms, 1)
  else match chanNos.findSome? fun c => (ms.filter fun m => m.g % 32 = c).findSome? fun m =>
      match T.preCheck c m.action m.value with | 0 => none | r => some (m.g, r) with
    | some (g, r) => (t, g, r)
    | none => (t, 0, 0)

/-- Member actions arrive at a tile and are pre-checked (02 R72). -/
def State.txnArrive (p : PortId) (tag t : Nat) (s : State) : State :=
  match s.txn p tag with
  | some x =>
    let T := s.tile t
    if !x.tiles.contains t || x.arrived.contains t || T.lost then s
    else s.modTxn p tag fun x => { x with
      arrived := x.arrived ++ [t],
      answers := if x.got.any (fun a => a.1 = t) then x.answers else x.answers ++ [T.txnAnswer t (x.on t)] }
  | none => s

/-- COMMIT needs READY from every member tile (02 R72). -/
def Txn.allReady (x : Txn) : Bool := x.tiles.all fun t => x.got.any fun a => a.1 = t && a.2.2 = 0

/-- READY or REFUSE reaches the hub (02 R72); after D it comes too late. The last READY leaves the margin to D (R80). -/
def State.txnGot (p : PortId) (tag t : Nat) (s : State) : State :=
  match s.txn p tag with
  | some x =>
    match x.answers.find? (fun a => a.1 = t) with
    | some a =>
      if x.decided.isSome || (s.tile t).lost then s
      else
        let s := s.modTxn p tag fun x => { x with answers := x.answers.filter (fun b => b.1 ≠ t), got := x.got ++ [a] }
        match s.txn p tag with
        | some y => if y.allReady && s.now < y.d then s.margin 54 2 (y.d - s.now) else s
        | none => s
    | none => s
  | none => s

/-- The refusing channel, first in global order, with its reason (02 R73). -/
def Txn.refusal (x : Txn) : Option (Nat × Nat) :=
  (x.got.filter fun a => a.2.2 ≠ 0).foldl (fun m a => match m with
    | some (g, r) => if a.2.1 < g then some a.2 else some (g, r)
    | none => some a.2) none

/-- From D until 1 ms after C no dark pulse runs on a member (13 R437). -/
def State.holdPulses (c : Tick) (mem : List Member) (s : State) : State :=
  forAll (fun (m : Member) s =>
    s.modOut (m.g / 32) (m.g % 32) fun o => { o with noDarkTill := max o.noDarkTill (c + ms), darkTill := min o.darkTill s.now }) mem s

/-- The decision at D (02 R72, R73, R76). -/
def State.txnDecide (p : PortId) (tag : Nat) (s : State) : State :=
  match s.txn p tag with
  | some x =>
    if x.decided.isSome || s.now < x.d then s
    else
      let ok := x.allReady && !x.cancelled
      let s := s.modTxn p tag fun x => { x with decided := some ok }
      let s := s.holdPulses x.c x.members
      if !ok && !x.cancelled && x.refusal.isNone then
        s.raise 54 4 0 (tag % 65536) (sat 0xFFFFFFFF (s.now - x.d))
      else s
  | none => s

/-- The decision arrives at a member tile (02 R72). -/
def State.txnTold (p : PortId) (tag t : Nat) (s : State) : State :=
  match s.txn p tag with
  | some x =>
    if x.decided.isSome && x.arrived.contains t && !x.held.contains t && !x.ended.contains t && !(s.tile t).lost then
      s.modTxn p tag fun x => { x with held := x.held ++ [t] }
    else s
  | none => s

/-- One member accessioned at C, after the commanded actions of its channel that come before it in the order of R68 (02
R68, R74). -/
def State.txnMember (x : Txn) (m : Member) (s : State) : State :=
  s.commitDue (m.g / 32) (m.g % 32) fun d => !dueLt (x.c, x.order) d.key

/-- A member tile that holds no decision at C: its members go to safe state (02 R74, 09 Table 9-8 scope 0). -/
def State.txnOrphan (x : Txn) (t : Nat) (s : State) : State :=
  let s := s.raise (35 + t) 8 0 (x.h.tag % 65536) 0
  let c := s.causeOf (35 + t) 8
  let s := s.enterScope t fun f => { f with orphans := f.orphans ++ [(x.h.port, x.h.tag, c)] }
  let s := forAll (fun (m : Member) s =>
    (s.discard t (m.g % 32) 3 5).modOut t (m.g % 32) fun o => { o with orphan := true }) (x.on t) s
  s.scopeEvent t 3 0 c

/-- C at a member tile (02 R72, R74). -/
def State.txnCommit (p : PortId) (tag t : Nat) (s : State) : State :=
  match s.txn p tag with
  | some x =>
    if !x.arrived.contains t || x.ended.contains t || x.lost.contains t || s.tnow t < x.c then s
    else
      let s := if x.held.contains t && x.decided = some true then forAll (State.txnMember x) (x.on t) s else s
      let s := s.modTxn p tag fun y => { y with
        ended := y.ended ++ [t], orphans := if x.held.contains t then y.orphans else y.orphans ++ [t] }
      if !x.held.contains t then s.txnOrphan x t
      else if x.decided = some true then s
      else forAll (fun (m : Member) s => s.discard t (m.g % 32) 3 5) (x.on t) s
  | none => s

/-- What the transaction completes with (02 R73, R74, R76; 12 R414). -/
def Txn.reply (x : Txn) : Reply :=
  if x.decided = some true then
    match x.tiles.find? fun t => x.orphans.contains t || x.lost.contains t with
    | some t => { st := 8, rs := 6, ix := t }
    | none => Reply.ok 0
  else if x.cancelled then { st := 6 }
  else match x.refusal with
    | some (g, r) => { st := 8, rs := r, ix := g }
    | none => { st := 5, rs := 7, ix := (x.tiles.find? fun t => !x.got.any fun a => a.1 = t).getD 0 }

/-- Every member tile has reported, or cannot (02 R73, R74; 12 R414). -/
def Txn.ovr (x : Txn) (s : State) : Bool :=
  x.decided.isSome && x.c ≤ s.now &&
    x.tiles.all fun t => x.reported.contains t || x.lost.contains t || !x.arrived.contains t ||
      (x.decided = some false && (s.tile t).lost)

/-- A member tile's report reaches the hub; the completion follows when all have reported (02 R73). -/
def State.txnReport (p : PortId) (tag t : Nat) (s : State) : State :=
  let s := match s.txn p tag with
    | some x =>
      if x.ended.contains t && !x.reported.contains t && !(s.tile t).lost then
        s.modTxn p tag fun x => { x with reported := x.reported ++ [t] }
      else s
    | none => s
  match s.txn p tag with
  | some x =>
    if x.ovr s then
      { s with txns := s.txns.filter fun y => !(y.h.port = p ∧ y.h.tag = tag) }.reply x.h 0xA8 x.reply
    else s
  | none => s

/-- TXN_CANCEL (02 R76). -/
def State.cancelTxn (p : PortId) (tag : Nat) (s : State) : State × Reply :=
  match s.txn p tag with
  | some x =>
    if x.decided.isSome || x.d ≤ s.now then (s, { st := 5 })
    else (s.modTxn p tag fun x => { x with cancelled := true }, Reply.ok 0)
  | none => (s, { st := 1, rs := 8, ix := 16 })

/-- A tile goes offline: an undecided transaction with members on it receives REFUSE with REASON MODE (08 R320). -/
def State.txnOffline (t : Nat) (s : State) : State :=
  { s with txns := s.txns.map fun x =>
      match (x.on t).head? with
      | some _ => if x.decided.isSome then x else { x with
          answers := x.answers.filter (fun a => a.1 ≠ t), got := x.got.filter (fun a => a.1 ≠ t) ++ [(t, firstG (x.on t), 1)] }
      | none => x }

/-- A member tile loses its barrier transfer: it reports no more (12 R414). -/
def State.txnLost (t : Nat) (s : State) : State :=
  { s with txns := s.txns.map fun x =>
      if x.tiles.contains t ∧ !x.ended.contains t then { x with lost := x.lost ++ [t], answers := x.answers.filter fun a => a.1 ≠ t }
      else x }

/-- OUT_CANCEL: every single action of this port on the channel that is not accessioned ends with ABORTED; their number
(07 Table 7-7, 13 Table 13-3). -/
def State.cancelActions (p : PortId) (g : Nat) (s : State) : State × Nat :=
  let t := g / 32
  let c := g % 32
  let mine (a : Action) : Bool := a.g = g && a.h.port = p
  let gone := (s.chan t c).staged.filter mine ++ s.transit.filter mine
  let s := { s with transit := s.transit.filter fun a => !mine a }
  let s := s.modChan t c fun ch => { ch with staged := ch.staged.filter fun a => !mine a }
  (forAll (State.abortAction t c) gone s, gone.length)

end Sys2Proof.Machine
end

