-- ==== Sys2Proof/Machine/Life.lean ====
section
/-!
DEFINITION. Links and lanes, a tile's way out of service and back, engines, rotation and repair, the power that each
block manages, and SRAM repair (01 R14 to R40; 08 R296 to R298, R309 to R325; 09 R318, R334; 12 R413 to R415).
-/
namespace Sys2Proof.Machine

/-! ## Lanes (01 R16, R17; 08 R316) -/

/-- Healthy lanes in a field of three. -/
def lanesIn (n : Nat) : Nat := b2n (n.testBit 0) + b2n (n.testBit 1) + b2n (n.testBit 2)

/-- The lanes that carry traffic when healthy lanes are counted out anew: the two lowest. -/
def lanesUsed (ok : Nat) : Nat := if ok = 7 then 3 else ok

/-- A sequence that one lane cannot carry is disarmed, and ACTIVE is cleared within the re-admission, before its scan could
end (01 R17; log 34). -/
def State.linkDisarm (t n : Nat) (s : State) : State :=
  ((s.disarmNow t n).modSeq t n fun q => { q with adm := 2 }).notice t 32 (8 * t + n) 0

/-- Running streams of a pipeline against 160 Mbit/s in ascending context number: from the first that does not fit on
they end with CAPACITY (01 R17). Each counts with its delivery rate of 06 R249 (log 34). -/
def State.linkStreams (t : Nat) : List Nat → Nat → Bool → State → State
  | [], _, _, s => s
  | c :: cs, sum, ovr, s =>
    let x := s.ctx t c
    if !x.run || x.ending.isSome then s.linkStreams t cs sum ovr
    else if ovr || 160 < sum + x.rate then (s.stopCtx t c 3 none).linkStreams t cs sum true
    else s.linkStreams t cs (sum + x.rate) false

/-- Re-admission of a tile's traffic on one lane (01 R17). -/
def State.linkReadmit (t : Nat) (s : State) : State :=
  let T := s.tile t
  let armed := T.armedSeqs
  let fit := ((List.range armed.length).find? fun k => !T.linkFits true (armed.take (k + 1))).getD armed.length
  let s := forAll (fun (x : Nat × Seq) s => s.linkDisarm t x.1) (armed.drop fit) s
  s.linkStreams t (List.range 32) 0 false

/-- The hub loses sight of a tile: it shows the last copy of what the tile keeps (09 R329, 01 R39), the link result buffer
fills (R38), and the tile's copy of the timebase runs on alone from what it is now (02 R51). -/
def State.loseSight (t : Nat) (s : State) : State :=
  if (s.tile t).lost then s
  else
    let o : Int := (s.tnow t : Int) - s.now
    (s.modBlk (35 + t) fun b => { b with shown := some b.srcs, shownSafe := b.safe }).modLink t fun L =>
      { L with shownEv := L.dropEv, shownRes := L.dropRes, buffered := true, ofs := o, ofsAt := s.now }

/-- The hub reaches a tile again, with its link as `f` leaves it: its status is current (09 R329), its copy of the timebase is
corrected from what it is now (02 R51), and it hears the safe-state net (R343). -/
def State.findSight (t : Nat) (f : Link → Link) (s : State) : State :=
  let o : Int := (s.tnow t : Int) - s.now
  let s := (s.modBlk (35 + t) fun b => { b with shown := none }).modLink t fun L =>
    { f L with ofs := o, ofsAt := s.now, buffered := L.buffered && !L.sendQ.isEmpty }
  if s.dev.netOn && !(s.tile t).saf.net then s.enterScope t fun f => { f with net := true } else s

/-- The lanes of mask `m` fail together (01 R16, R17; 08 R316): the spare takes over where one is left, and fewer than two
healthy lanes degrade or lose the link. -/
def State.laneFail (t m : Nat) (s : State) : State :=
  let L := (s.tile t).link
  let dead := L.laneOk &&& m
  if !(s.tile t).powered || dead = 0 then s
  else
    let ok := L.laneOk - dead
    let lost := L.laneUse &&& dead
    let kept := L.laneUse - lost
    let spare := if lost = 0 then none else [0, 1, 2].find? fun k => ok.testBit k && !kept.testBit k
    let n := lanesIn ok
    let s := if n = 0 then s.loseSight t else s
    let s := s.modLink t fun L => { L with
      laneOk := ok, lostWith := if ok = 0 then dead else L.lostWith, bad := L.bad.filter (fun x => ok.testBit x.1),
      laneUse := match spare with | some k => setBit kept k true | none => kept,
      sparings := if spare.isSome then satInc 15 L.sparings else L.sparings }
    let s := if n = 2 || spare.isSome then s.raise (35 + t) 13 (if dead.testBit 0 then 0 else if dead.testBit 1 then 1 else 2) 0 0 else s
    if n = 2 then s
    else
      let s := s.raise (35 + t) 14 0 n 0
      if n = 1 then s.linkReadmit t else s

/-- A link frame arrives corrupted (08 R316): 16 of a lane within 1 ms, or more than 4 within 10 s, fail the lane. -/
def State.badFrame (t lane : Nat) (s : State) : State :=
  let T := s.tile t
  if T.lost || !T.link.laneOk.testBit lane then s
  else
    let s := s.modLink t fun L => { L with
      retrans := satInc 0xFFFF L.retrans, bad := (lane, s.now) :: L.bad.filter fun x => s.now < x.2 + 10 * sec }
    let mine := (s.tile t).link.bad.filter fun x => x.1 = lane
    if 16 ≤ (mine.filter fun x => s.now < x.2 + ms).length || 4 < mine.length then s.laneFail t (2 ^ lane) else s

/-- A lost link returns on those of the lanes whose failure lost it that carry frames again (01 R38, 02 R51): a lane that had
failed before stays out of service until re-admission (08 R316; log 34). On one lane the traffic is re-admitted (R17). -/
def State.linkReturn (t lanes : Nat) (s : State) : State :=
  let T := s.tile t
  let k := T.link.lostWith &&& lanes
  if T.powered && T.link.laneOk = 0 && k ≠ 0 then
    let s := s.findSight t fun L => { L with laneOk := k, laneUse := lanesUsed k, bad := [] }
    (if lanesIn k = 1 then s.linkReadmit t else s.endPresent (35 + t) 14).refresh t
  else s

/-- One entry left a tile's link traffic; an empty buffer ends an episode of discards (01 R38). -/
def Link.took (rest : List LinkItem) (L : Link) : Link :=
  { L with sendQ := rest, dropping := L.dropping && !rest.isEmpty, buffered := L.buffered && !rest.isEmpty }

/-! ## Out of service and back (08 R320, R321; 12 R414, R415) -/

/-- The sequences of a tile are disarmed at once: scans are abandoned without SCAN_END, conversions in progress are
discarded with FATE 0b110, and carried triggers and calibrations end with ABORTED (08 R320). -/
def State.abandonSeqs (t : Nat) (s : State) : State :=
  let u := (s.tile t).cv
  let jobs := (u.jobP.toList ++ u.jobF.toList).filter fun j => !j.isInj
  let s := forAll (fun (j : Job) s => forAll (fun i s => s.discardIn t i 6) ((s.tile t).pair j.input) s) jobs s
  let keep (j : Option Job) : Option Job := match j with | some x => if x.isInj then some x else none | none => none
  let s := s.modCv t fun u => { u with
    jobP := keep u.jobP, jobF := keep u.jobF,
    cal := { u.cal with busy := false, excl := false, hdrs := [] } }
  let s := forAll (fun h s => s.reply h 0x34 { st := 6 }) u.cal.hdrs s
  forAll (fun n s => if ((s.tile t).seq n).active then s.disarmNow t n else s) (List.range 8) s

/-- The lines that a tile drives become stale, holding their state with no change under way, or are updated anew (08 R306). -/
def State.staleLines (t : Nat) (on : Bool) (s : State) : State :=
  { s with lines := s.lines.map fun L => if L.driven ∧ L.tile = t then { L with stale := on, toHub := [] } else L }

/-- A tile leaves service (08 R320): staged actions are aborted, undecided transactions refused, its sequences disarmed at
once, injected conversions and its streams ended, and its lines stale. -/
def State.tileDown (t : Nat) (s : State) : State :=
  let s := forAll (fun c s => s.abortStaged t c) chanNos s
  let s := ((s.txnOffline t).abandonSeqs t).abortInj t 6
  let s := (s.stopWhere t 1 Ctx.grid).stopWhere t 2 fun x => !x.grid
  (s.staleLines t true).refresh t

/-- Tile logic is reset: what channels, converters and rules remember starts anew, and output stages keep the values of
their safe state (08 Table 8-14 Y). -/
def Tile.logicReset (now : Tick) (T : Tile) : Tile :=
  { T with
    chans := T.chans.map fun ch => { ch with
      valid := false, diagP := 0, clampP := false, partner := 0, readback := 0,
      di := { comp := ch.di.comp, pend := ch.mode.isLvl, crossAt := now }, dic := { gateStart := now },
      m := if ch.mode = .mir then ch.m else {}, staged := [], btn := {},
      o := { hold := ch.o.hold, holdGen := ch.o.holdGen, trip := ch.o.trip, orphan := ch.o.orphan, post := ch.o.post } },
    cv := { T.cv with refReady := false, badCnt := 0, goodCnt := 0, jobP := none, jobF := none, hist := [], injQ := [],
                      injLast := none, cal := { T.cv.cal with busy := false, excl := false, hdrs := [], before := 0, valid := false } },
    rules := T.rules.map fun r => { r with armed := false, truth := false } }

/-- Re-admission begins (08 Table 8-14 Y): by command, or without one after BLK or a resumed barrier transfer. -/
def State.startReadmit (t : Nat) (h : Option Hdr) (s : State) : State :=
  let s := (s.modTile t (Tile.logicReset (s.tnow t))).modLink t fun L => { L with life := .readmitting, lifeH := L.lifeH ++ h.toList }
  s.refresh t

/-- Scope 2 of a tile begins by `c`, or goes on with what raised it (09 R341). -/
def State.enterBlock (t : Nat) (off : Bool) (c : Cause) (s : State) : State :=
  let f := (s.tile t).saf
  let s := s.enterScope t fun f => { f with off := f.off || off, blk := f.blk || !off, cause := if f.off || f.blk then f.cause else c }
  if f.off || f.blk then s else s.scopeEvent t 3 2 c

/-- A tile is taken out of service with its scope 2 (08 R320, 09 R341). The flag `off` says that TILE_OFFLINE does it. -/
def State.takeDown (t : Nat) (off : Bool) (c : Cause) (s : State) : State := (s.enterBlock t off c).tileDown t

/-- TILE_OFFLINE from its start X (08 R320). -/
def State.goOffline (t : Nat) (h : Hdr) (s : State) : State :=
  (s.modLink t fun L => { L with life := .offlining, lifeH := L.lifeH ++ [h] }).takeDown t true { k := 35 + t, nosrc := true }

/-- The tile is offline, and TILE_OFFLINE completes (08 R320). -/
def State.nowOffline (t : Nat) (s : State) : State :=
  let L := (s.tile t).link
  if L.life = .offlining then
    let s := s.modLink t fun L => { L with life := .offline, lifeH := [] }
    forAll (fun h s => s.reply h 0x78 (Reply.ok 0)) L.lifeH s
  else s

/-- The exit of scope 2, with the event of what raised it (09 R341). -/
def State.leaveBlock (t : Nat) (s : State) : State :=
  let f := (s.tile t).saf
  if f.off || f.blk then
    let s := s.leaveScope t fun f => { f with off := false, blk := false, cause := {} }
    s.scopeEvent t 4 2 f.cause
  else s

/-- Re-admission ends (08 R321, Table 8-14): online with the lanes found healthy, or failed and offline. -/
def State.endReadmit (t : Nat) (ok : Bool) (lanes : Nat) (s : State) : State :=
  let L := (s.tile t).link
  if L.life ≠ .readmitting then s
  else
    let lanes := lanes % 8
    if ok && lanes ≠ 0 && (s.tile t).powered then
      let s := (s.modBlk (35 + t) fun b => { b with safe := false }).findSight t fun L => { L with
        life := .online, lifeH := [], laneOk := lanes, laneUse := lanesUsed lanes, bad := [] }
      let n := lanesIn lanes
      let s := if n = 1 then s.raise (35 + t) 14 0 1 0 else s.endPresent (35 + t) 14
      let s := if n = 2 then s.raise (35 + t) 13 (([0, 1, 2].find? fun k => !lanes.testBit k).getD 0) 0 0 else s
      let s := if (s.tile t).cv.refEn then s.refRise t else s
      let s := ((s.staleLines t false).leaveBlock t).refresh t
      forAll (fun h s => s.reply h 0x79 (Reply.ok 0)) L.lifeH s
    else
      let s := s.modLink t fun L => { L with life := .offline, lifeH := [] }
      forAll (fun h s => s.reply h 0x79 { st := 8 }) L.lifeH s

/-- VISO at a barrier driver falls below 4.30 V (12 R414): the tile's logic stops, its outputs are off, its link is lost,
and what is staged at it is lost with it. -/
def State.barrierLoss (t : Nat) (s : State) : State :=
  if !(s.tile t).powered then s
  else
    let s := s.loseSight t
    let as := (s.tile t).chans.flatMap Chan.staged
    let s := s.modTile t fun T => { T with chans := T.chans.map fun ch => { ch with staged := [] } }
    let s := forAll (fun (a : Action) s => s.reply a.h a.opcode { st := 8, rs := 2, ix := a.g }) as s
    let s := ((s.txnLost t).abandonSeqs t).abortInj t 6
    let s := (s.stopWhere t 1 Ctx.grid).stopWhere t 2 fun x => !x.grid
    (s.staleLines t true).modTile t fun T => { (T.logicReset s.now) with
      powered := false, link := { T.link with sendQ := [], dropping := false } }

/-- Transfer resumes (12 R415): the tile is reset, held in scope 2 and re-admitted without a command. No source raises this scope,
and its events say so as those of TILE_OFFLINE do (log 39). -/
def State.barrierResume (t : Nat) (s : State) : State :=
  if (s.tile t).powered then s
  else
    let s := (s.modTile t fun T => { T with powered := true }).enterBlock t false { k := 35 + t, nosrc := true }
    let s := s.modTile t fun T => { T with
      chans := T.chans.map fun ch => { ch with o := { ch.o with lvl3 := none, post := none, hold := 0 } } }
    s.startReadmit t none

/-! ## Engines, rotation and repair (01 R20 to R22; 08 R298, R309 to R315) -/

/-- Engine numbers. -/
def engNos : List Nat := List.range 18

/-- Low 16 bits of the version of the image in bank `b` (01 Table 1-6). -/
def State.imageVer (b : Nat) (s : State) : Nat :=
  (if b = 0 then s.per.recA else s.per.recB).version % 65536

/-- The engine is in the Depot and not retired (01 R22). -/
def Engine.usable (e : Engine) : Bool := match e.st with | .idle | .loading | .receiving => true | .bound | .retired => false

/-- The engine is chosen for no rotation or repair. -/
def State.freeEng (n : Nat) (s : State) : Bool :=
  (s.engine n).usable && !(s.rot.busy && s.rot.inEng = n) && !s.rot.repairs.any fun r => r.2.2.1 = n

/-- The free Depot engine that a rotation or repair onto image `b` takes (08 R310): the lowest that holds it, else the
lowest. -/
def State.pickEng (b : Option Nat) (s : State) : Option Nat :=
  let free := engNos.filter fun n => s.freeEng n
  match free.find? fun n => (s.engine n).st = .idle && (s.engine n).image = b with
  | some n => some n
  | none => free.head?

/-- Engine `n` begins to load image `b` for tile `t` (31: none). -/
def State.loadEng (n t : Nat) (b : Option Nat) (s : State) : State :=
  s.modEngine n fun e => { e with st := .loading, tile := t, image := none, ver := 0, want := b }

/-- A load is complete: the engine holds the image it wanted. -/
def State.loaded (n : Nat) (st : EngSt) (t : Nat) (s : State) : State :=
  s.modEngine n fun e => { e with
    st := st, tile := t, image := if e.want.isSome then e.want else e.image, want := none,
    ver := match e.want with | some b => s.imageVer b | none => e.ver }

/-- A rotation of tile `t` onto image `b` starts (08 Table 8-8 R). -/
def State.startRot (t b : Nat) (h : Option Hdr) (s : State) : State :=
  match s.pickEng (some b) with
  | none => s
  | some n =>
    let holds := (s.engine n).st = .idle && (s.engine n).image = some b
    let s := { s with rot := { s.rot with
        busy := true, tile := t, inEng := n, outEng := (s.tile t).engine, h := h, bank := b,
        phase := if holds then .precopy else .load } }
    let s := s.modTile t fun T => { T with rotating := true }
    if holds then s.modEngine n fun e => { e with st := .receiving, tile := t }
    else if (s.engine n).st = .loading && (s.engine n).want = some b then s.modEngine n fun e => { e with tile := t }
    else s.loadEng n t (some b)

/-- A rotation ends without handover (08 R311): the outgoing engine goes on, and the incoming one returns to the Depot
unless it was retired. `outcome` and `st` are those of Table 8-11 and Table 8-10. -/
def State.endRot (outcome st : Nat) (keep : Bool) (s : State) : State :=
  let r := s.rot
  if !r.busy then s
  else
    let gap := if r.phase = .gap then sat 0xFFFF (s.now - r.gapAt) else 0
    let s := s.modEngine r.inEng fun e => if e.st = .retired then e else
      { e with st := .idle, tile := 31, want := none, image := if keep then e.image else none, ver := if keep then e.ver else 0 }
    let s := s.modTile r.tile fun T => { T with rotating := false, bound := T.bound || (r.phase = .gap && (s.engine r.outEng).st ≠ .retired) }
    let s := { s with rot := { s.rot with busy := false, h := none, lastOutcome := outcome, lastTile := r.tile, lastGap := gap } }
    forAll (fun h s => s.reply h 0x88 { st := st }) r.h.toList s

/-- The incoming engine has its image (08 Table 8-8), or its check failed (Table 8-10). -/
def State.rotLoaded (ok : Bool) (s : State) : State :=
  let r := s.rot
  if !r.busy || r.phase ≠ .load then s
  else if ok then { (s.loaded r.inEng .receiving r.tile) with rot := { r with phase := .precopy } }
  else (s.endRot 2 8 false).raise 54 7 0 (Config.storeArea 0) 0

/-- The pre-copy ends; a snapshot header that the incoming image cannot read ends the rotation (08 Table 8-10). -/
def State.rotCopied (ok : Bool) (s : State) : State :=
  if !s.rot.busy || s.rot.phase ≠ .precopy then s
  else if ok then { s with rot := { s.rot with phase := .ready, copyAt := s.now } }
  else s.endRot 2 8 true

/-- A command, other than the rotation's own, is executing at the engine of tile `t` (08 R310). -/
def State.executes (t : Nat) (s : State) : Bool :=
  s.running.any fun x => x.tile = some t && !(s.rot.h.any fun h => isCmd h x.port x.ring x.cnt)

/-- The hub holds back further commands for tile `t`: from the 10 ms mark after the pre-copy until G (08 R310). -/
def State.holdsBack (t : Nat) (s : State) : Bool :=
  s.rot.busy && s.rot.tile = t && s.rot.phase = .ready && s.rot.copyAt + 10 * ms ≤ s.now

/-- Point G may be now (08 R310): a scan of the tile's lowest-numbered armed sequence ends; with none within 10 ms of the
pre-copy, or no armed sequence, no command for the tile executes. -/
def State.atG (s : State) : Bool :=
  let t := s.rot.tile
  match (s.tile t).armedSeqs.head? with
  | some x => if s.now < s.rot.copyAt + 10 * ms then x.2.endAt = some (s.tnow t) else !s.executes t
  | none => !s.executes t

/-- Point G: the outgoing engine stops and the gap starts (08 Table 8-8). -/
def State.rotGap (s : State) : State :=
  if s.rot.busy && s.rot.phase = .ready && s.atG then
    { (s.modTile s.rot.tile fun T => { T with bound := false }) with rot := { s.rot with phase := .gap, gapAt := s.now } }
  else s

/-- H: the binding swaps within one tick (01 R21, 08 Table 8-8). -/
def State.rotDone (s : State) : State :=
  let r := s.rot
  if r.busy && r.phase = .gap && s.now ≤ r.gapAt + 20000 then
    let gap := s.now - r.gapAt
    let s := s.modTile r.tile fun T => { T with bound := true, rotating := false, engine := r.inEng }
    let s := s.modEngine r.inEng fun e => { e with st := .bound, tile := r.tile }
    let s := s.modEngine r.outEng fun e => if e.st = .retired then e else { e with st := .idle, tile := 31 }
    let s := { s with rot := { s.rot with busy := false, h := none, lastOutcome := 1, lastTile := r.tile, lastGap := gap } }
    forAll (fun h s => s.reply h 0x88 (Reply.ok (payload [(16, 1, r.outEng), (17, 1, r.inEng), (18, 2, gap)]))) r.h.toList s
  else s

/-- What an engine's own working state holds of a channel, from 0 again (08 R312, Table 8-9; log 35): how long each condition
of an analogue output has held, and successive off-state readings. -/
def Chan.forget (ch : Chan) : Chan :=
  { ch with m := { ch.m with condOn := List.replicate 8 0, condOff := List.replicate 8 0 }, o := { ch.o with offHits := 0 } }

/-- The commands that a failed engine was executing for its tile end with FAULTED, and what they had staged at the tile is
discarded (08 R312): trim captures, disarms, carried triggers, calibrations, injected conversions, staged single actions, and a
tile's way out of service or back. -/
def State.failCommands (t : Nat) (s : State) : State :=
  let T := s.tile t
  let caps := T.chans.flatMap fun ch => ch.caps.filterMap TrimCap.h
  let acts := T.chans.flatMap Chan.staged
  let s := s.modTile t fun T => { T with
    chans := T.chans.map fun ch => { ch.forget with caps := ch.caps.filter fun k => k.h.isNone, staged := [] },
    seqs := T.seqs.map fun q => { q with disarmH := [], future := [] },
    cv := { T.cv with cal := { T.cv.cal with hdrs := [] } }, railLow := 0, railHigh := 0 }
  let s := forAll (fun h s => s.reply h 0x14 { st := 8 }) caps s
  let s := forAll (fun (q : Seq) s => forAll (fun h s => s.reply h 0x31 { st := 8 }) q.disarmH s) T.seqs s
  let s := forAll (fun (q : Seq) s => forAll (fun (x : Tick × Hdr) s => s.reply x.2 0x32 { st := 8 }) q.future s) T.seqs s
  let s := forAll (fun h s => s.reply h 0x34 { st := 8 }) T.cv.cal.hdrs s
  let s := forAll (fun (a : Action) s => (s.discard t (a.g % 32) 1 6).reply a.h a.opcode { st := 8 }) acts s
  let op := if T.link.life = .readmitting then 0x79 else 0x78
  let s := s.modLink t fun L => { L with lifeH := [], life := if L.life = .readmitting then .offline else L.life }
  (forAll (fun h s => s.reply h op { st := 8 }) T.link.lifeH s).abortInj t 8

/-- Commands that wait for tile `t` end with NOT_READY (08 R313). -/
def State.dropWaiting (t : Nat) (s : State) : State :=
  let gone := s.fetched.filter fun f => f.tile = some t && f.waiting
  let s := { s with fetched := s.fetched.filter fun f => !(f.tile = some t && f.waiting) }
  forAll (fun (f : Fetched) s =>
    s.reply { at_ := s.now, port := f.port, ring := f.ring, cnt := f.cnt, tag := f.desc.tag, deadline := f.desc.deadline,
              silent := f.desc.flags.testBit 0, fence := false, arg := f.desc.arg } f.desc.opcode { st := 4 }) gone s

/-- Engine `k` takes up the repair of tile `t` that started at `e` (08 R312): at once when it holds an image, else it loads
`img` first. -/
def State.takeRepair (t n k : Nat) (e : Tick) (img : Option Nat) (holds : Bool) (s : State) : State :=
  let s := if holds then s.modEngine k fun e => { e with st := .receiving, tile := t } else s.loadEng k t img
  { s with rot := { s.rot with repairs := s.rot.repairs.filter (fun r => r.1 ≠ t) ++ [(t, n, k, e)] } }

/-- Engine `k` holds image `img` with its load complete. -/
def State.holds (k : Nat) (img : Option Nat) (s : State) : Bool := (s.engine k).st = .idle && (s.engine k).image = img

/-- A repair of tile `t` starts at E (08 R312): engine `n` failed with image `img`. A rotation of the tile that is before its
gap becomes the repair, and one of another tile gives way where the repair needs its engine (Table 8-10); without a usable
engine there is no repair (R313). -/
def State.startRepair (t n : Nat) (img : Option Nat) (s : State) : State :=
  let s := (s.modTile t fun T => { T with bound := false }).failCommands t
  let r := s.rot
  let early := r.busy && r.phase ≠ .gap
  let own := early && r.tile = t
  let needs := match s.pickEng img with
    | some k => !s.holds k img && r.phase ≠ .load && (s.engine r.inEng).image = img
    | none => true
  let s := if own then
      let s := s.modEngine r.inEng fun e => { e with st := .idle, tile := 31, want := none }
      let s := s.modTile t fun T => { T with rotating := false }
      { s with rot := { s.rot with
          busy := false, h := none, repairH := s.rot.repairH ++ r.h.toList.map fun h => (t, h) } }
    else if early && needs then s.endRot 3 6 true else s
  let ready := own && r.phase ≠ .load
  match (if ready then some r.inEng else s.pickEng img) with
  | some k => s.takeRepair t n k s.now img (ready || s.holds k img)
  | none =>
    if s.rot.busy then { s with rot := { s.rot with repairs := s.rot.repairs ++ [(t, n, 31, s.now)] } }
    else ({ s with rot := { s.rot with lastOutcome := 5, lastTile := t, lastGap := 0 } }).dropWaiting t

/-- A rotation that ends in its gap leaves its tile to an outgoing engine that was retired meanwhile: a repair. -/
def State.endGap (outcome st : Nat) (s : State) : State :=
  let r := s.rot
  let s := s.endRot outcome st true
  if r.busy && r.phase = .gap && (s.engine r.outEng).st = .retired then
    s.startRepair r.tile r.outEng (s.engine r.outEng).image
  else s

/-- H is not reached by G + 200 µs: the outgoing engine resumes (08 Table 8-10). -/
def State.rotTimeout (s : State) : State :=
  if s.rot.busy && s.rot.phase = .gap && s.rot.gapAt + 20000 ≤ s.now then s.endGap 2 8 else s

/-- An engine is retired (08 R298): it is bound to no tile until the next device reset, a rotation onto it ends FAULTED
(R311), a repair by it starts again, and a tile bound to it is repaired, after the handover where it is in its gap. -/
def State.retire (n : Nat) (s : State) : State :=
  let e := s.engine n
  if e.st = .retired then s
  else
    let was := s.rot.repairs.filter fun r => r.2.2.1 = n
    let s := s.modEngine n fun e => { e with st := .retired, tile := 31, want := none }
    let s := { s with rot := { s.rot with repairs := s.rot.repairs.filter fun r => r.2.2.1 ≠ n } }
    let s := if s.rot.busy && s.rot.inEng = n then s.endGap 2 8 else s
    let s := forAll (fun (r : Nat × Nat × Nat × Tick) s => s.startRepair r.1 r.2.1 (s.engine r.2.1).image) was s
    if e.st ≠ .bound || (s.rot.busy && s.rot.outEng = n && s.rot.phase = .gap) then s
    else s.startRepair e.tile n e.image

/-- A repair that waited for an engine takes one that a rotation has freed, or has none after all. -/
def State.assignRepairs (s : State) : State :=
  match s.rot.repairs.find? fun r => r.2.2.1 = 31 with
  | none => s
  | some (t, n, _, e) =>
    let img := (s.engine n).image
    match s.pickEng img with
    | some k => s.takeRepair t n k e img (s.holds k img)
    | none =>
      if s.rot.busy then s
      else ({ s with rot := { s.rot with
        repairs := s.rot.repairs.filter (fun r => r.1 ≠ t), lastOutcome := 5, lastTile := t, lastGap := 0 } }).dropWaiting t

/-- H of a repair (08 R312); the command of a rotation that became one completes with it (Table 8-10). -/
def State.repaired (t : Nat) (s : State) : State :=
  match s.rot.repairs.find? fun r => r.1 = t && r.2.2.1 ≠ 31 with
  | none => s
  | some (_, n, k, e) =>
    let s := s.loaded k .bound t
    let s := s.modTile t fun T => { T with bound := true, rotating := false, engine := k }
    let hs := s.rot.repairH.filter fun x => x.1 = t
    let s := { s with rot := { s.rot with
      repairs := s.rot.repairs.filter (fun r => r.1 ≠ t), lastOutcome := 4, lastTile := t, lastGap := sat 0xFFFF ((s.now - e) / 100),
      repairH := s.rot.repairH.filter fun x => x.1 ≠ t } }
    forAll (fun (x : Nat × Hdr) s => s.reply x.2 0x88 (Reply.ok (payload [(16, 1, n), (17, 1, k),
      (18, 2, sat 0xFFFF (s.now - e))]))) hs s

/-- A Depot engine's own load ends (08 R314). -/
def State.depotLoaded (n : Nat) (ok : Bool) (s : State) : State :=
  let e := s.engine n
  if e.st = .loading && s.freeEng n then
    if ok then s.loaded n .idle 31
    else (s.modEngine n fun e => { e with st := .idle, tile := 31, want := none }).raise 54 7 0 (Config.storeArea 0) 0
  else s

/-- The tile has no engine for good: its engine is retired and no repair is under way (08 R313). -/
def State.engineless (t : Nat) (s : State) : Bool :=
  !(s.tile t).bound && !(s.rot.busy && s.rot.tile = t) && !s.rot.repairs.any fun r => r.1 = t

/-- A rotation of tile `t` that has not reached its gap ends with ABORTED (08 Table 8-10, TILE_OFFLINE). -/
def State.abortRot (t : Nat) (s : State) : State :=
  if s.rot.busy && s.rot.tile = t && s.rot.phase ≠ .gap then s.endRot 3 6 true else s

/-! ## Watchdog (09 R346, R347) -/

/-- Scope 1 ends when the watchdog is served again and WATCHDOG is acknowledged (09 Table 9-8). -/
def State.endWatchdog (t : Nat) (s : State) : State :=
  let T := s.tile t
  if T.saf.wd && T.saf.wdBack && !((s.blk (35 + t)).src 0).latched then
    (s.leaveScope t fun f => { f with wd := false, wdBack := false }).scopeEvent t 4 1 T.saf.wdCause
  else s

/-- The bound engine serves the tile's watchdog (08 R298, 09 R346); engines halt in the grave hold (R339). -/
def State.serveWatchdog (t : Nat) (s : State) : State :=
  let T := s.tile t
  if T.bound && !T.lost && !s.dev.grave then
    (s.modSaf t fun f => { f with wdServed := s.now, wdBack := f.wd }).endWatchdog t
  else s

/-- TIMEOUT passes without service (09 R347). -/
def State.expireWatchdog (t : Nat) (s : State) : State :=
  let T := s.tile t
  if T.powered && !T.saf.wd && T.saf.wdServed + T.saf.timeout * ms ≤ s.now then
    let s := s.raise (35 + t) 0 0 0 0
    let c := s.causeOf (35 + t) 0
    (s.enterScope t fun f => { f with wd := true, wdSeen := true, wdBack := false, wdCause := c }).scopeEvent t 3 1 c
  else s

/-! ## Power (08 R322 to R325) -/

/-- The deadline intervals that block `k` has admitted, in ticks: of the delivery of a pipeline's streams; of a tile's scans,
reflexes and staged single actions; of the ring commands fetched for an engine's tile (08 R322). -/
def State.intervals (k : Nat) (s : State) : List Nat :=
  if k ≤ 17 then
    (s.fetched.filter fun f => (match f.tile with | some t => (s.tile t).engine = k && (s.tile t).bound | none => false)).map fun f =>
      f.desc.deadline - f.at_
  else if 19 ≤ k ∧ k ≤ 34 then (s.pipe (k - 19)).ctxs.map fun c => if c.run then c.dl else 0
  else if 35 ≤ k ∧ k ≤ 50 then
    let T := s.tile (k - 35)
    (T.armedSeqs.map fun x => x.2.deadline) ++ (T.rules.map fun r => if r.armed then r.deadline else 0) ++
      T.chans.flatMap fun ch => ch.staged.map fun a => a.h.deadline - a.h.at_
  else []

/-- The floor of a block in ticks: 10 % of the shortest deadline interval it has admitted, and at least 20 µs (08 R322). -/
def State.floor (k : Nat) (s : State) : Nat :=
  match (s.intervals k).filter (0 < ·) with
  | [] => 2000
  | d :: ds => max 2000 (ds.foldl min d / 10)

/-- Full rail in mV: the nominal VCORE of Table 12-1. -/
def fullRail : Nat := 900

/-- A block has its rail off: a retired engine, an offline tile. -/
def State.railOff (k : Nat) (s : State) : Bool :=
  if k < 18 then (s.engine k).st = .retired
  else if 35 ≤ k ∧ k ≤ 50 then (s.tile (k - 35)).link.life = .offline || !(s.tile (k - 35)).powered
  else false

/-- A rail after a 1 ms interval whose smallest margin was `m`, over a floor `f` (08 R322): lowered by 5 mV, held, or
recovered. -/
def railAfter (on : Bool) (f m own : Nat) : Nat :=
  if !on || m < f then fullRail else if 2 * f < m then max 550 (own - 5) else own

/-- An SRAM bank replaced. -/
def State.modSram (b : Nat) (f : Sram → Sram) (s : State) : State := { s with sram := updAt f b s.sram }

/-- The end of a 1 ms interval of block `k` whose smallest margin was `margin` (08 R322). Numbers from 56 on are the SRAM
banks, each with its own supply (01 R25; log 36); blocks 53 to 55 regulate no rail. -/
def State.railAdjust (k margin : Nat) (s : State) : State :=
  let m := ((s.pwr.getD k {}).minMargin.foldl min margin)
  if 56 ≤ k then s.modSram (k - 56) fun b => { b with own := railAfter s.scaleEn 2000 margin b.own }
  else if 53 ≤ k then s
  else s.modPwr k fun w => { w with own := railAfter s.scaleEn (s.floor k) m w.own }

/-- A running margin below the floor returns the block to its full rail (08 R322). -/
def State.railRecover (k : Nat) (s : State) : State :=
  if 56 ≤ k then s.modSram (k - 56) fun b => { b with own := fullRail, ret := false }
  else s.modPwr k fun w => { w with own := fullRail, ret := false }

/-- A port's rings have nothing to fetch or write (08 R323). -/
def State.ringsIdle (p : PortId) (s : State) : Bool :=
  let P := s.port p
  P.owed.isEmpty && P.staging.isEmpty && P.dropCnt = 0 && P.rings.all (fun q => !(q.active && q.ty = 0 && q.cons < q.prod)) &&
    s.pipes.all fun x => x.ctxs.all fun c => !(c.run && c.r.port = p && c.r.wait.isSome)

/-- Block `k` has work: a command at an engine, a rotation, repair or update under the supervisor, a scan or conversion at a
tile; a host port also outside L1 (08 R323). -/
def State.busyBlk (k : Nat) (s : State) : Bool :=
  if k ≤ 17 then
    let at_ (t : Option Nat) : Bool := match t with | some t => (s.tile t).engine = k && (s.tile t).bound | none => false
    s.fetched.any (fun f => at_ f.tile) || s.running.any fun x => at_ x.tile
  else if k = 18 then s.rot.busy || !s.rot.repairs.isEmpty || s.upd.session.isSome || s.upd.act.isSome
  else if 35 ≤ k ∧ k ≤ 50 then
    let T := s.tile (k - 35)
    T.cv.jobP.isSome || T.cv.jobF.isSome || T.cv.cal.busy || T.seqs.any fun q => q.scan.isSome
  else if k = 51 then !s.ha.l1 || !s.ringsIdle .ha
  else if k = 52 then !s.hb.l1 || !s.ringsIdle .hb
  else false

/-- A block that has had no work for 100 µs enters retention (08 R323). Numbers from 56 on are the SRAM banks, and 53 all of
them. -/
def State.retention (k : Nat) (s : State) : State :=
  let idle (x : Tick) : Bool := x + 100 * us ≤ s.now
  let rest (b : Sram) : Sram := if idle b.workAt then { b with ret := true } else b
  if !s.scaleEn then s
  else if 56 ≤ k then s.modSram (k - 56) rest
  else if k = 53 then { s with sram := s.sram.map rest }
  else if k < 53 && !s.busyBlk k && idle (s.pwr.getD k {}).workAt then s.modPwr k fun w => { w with ret := true }
  else s

/-- All reports are renewed at one tick (08 R325); `draws` are the blocks' estimates in 0.1 mW. -/
def State.renewPower (draws : List Nat) (s : State) : State :=
  let none8 := List.replicate 8 0xFFFFFFFF
  let d (k : Nat) := sat 0xFFFFF (draws.getD k 0)
  { s with
    pwrUpdate := (s.pwrUpdate + 1) % 65536,
    pwr := mapFrom (fun k (w : Pwr) => { w with
      st := if 53 ≤ k then 0 else if s.railOff k then 3 else if w.ret then 2 else if w.own < fullRail then 1 else 0,
      rail := if 53 ≤ k then 0 else w.own,
      draw := if k = 55 then sat 0xFFFFF ((List.range 55).foldl (fun n k => n + d k) 0) else d k,
      slack := w.minMargin, minMargin := none8 }) 0 s.pwr }

/-! ## SRAM (08 R318, 09 R334) -/

/-- A row is moved into a spare row; the last one used is reported (08 R318). -/
def State.repairRow (b row : Nat) (s : State) : State :=
  let x := s.sram.getD b {}
  let s := s.modSram b fun x => { x with rows := x.rows.filter (· ≠ row), spares := min 4 (x.spares + 1) }
  if x.spares = 3 then s.raise 53 2 b 0 0 else s

/-- The scrubber reads a row (08 R318): a single-bit error is corrected, and a second pass that finds one repairs it. -/
def State.scrub (b row : Nat) (single : Bool) (s : State) : State :=
  let x := s.sram.getD b {}
  let s := s.modSram b fun x => { x with ret := false, workAt := s.now, corrected := if single then satInc 0xFFFF x.corrected else x.corrected }
  if single then
    let s := s.raise 53 0 b 0 0
    if x.rows.contains row then s.repairRow b row
    else s.modSram b fun x => { x with rows := row :: x.rows }
  else s

/-- An event is lost before its release: each port that would have received it counts it as dropped (09 Table 9-6). -/
def Port.lostEvent (e : Event) (n : Nat) (P : Port) : Port :=
  if P.subSrc.testBit e.tile && P.subKind.testBit e.kind && e.toPorts then
    { P with dropCnt := P.dropCnt + 1, dropLast := n, dropFirst := if P.dropCnt = 0 then n else P.dropFirst }
  else P

/-- A word of the merge buffer (`item` below its length) or of a port's staging is lost. -/
def State.loseMerge (item : Nat) (s : State) : State :=
  let n := s.merge.held.length
  let a := s.ha.staging.length
  let cut (i : Nat) (P : Port) : Port :=
    match P.staging[i]? with
    | some e => ({ P with staging := P.staging.eraseIdx i }).lostEvent e e.mseq
    | none => P
  let s := match s.merge.held[item]? with
    | some e =>
      let k := s.merge.nextSeq
      { s with merge := { s.merge with held := s.merge.held.eraseIdx item, nextSeq := k + 1 },
               ha := s.ha.lostEvent e k, hb := s.hb.lostEvent e k }
    | none => if item < n + a then { s with ha := cut (item - n) s.ha } else { s with hb := cut (item - n - a) s.hb }
  s.pump

/-- A word of context `c` is lost: its delay lines are preloaded from its next input (09 Table 9-6). -/
def State.loseCtx (p c : Nat) (s : State) : State :=
  s.modCtx p c fun x => { x with r := { x.r with n := 0, supp := [], rank := [], hb := [], fir := {}, resX := [], resN := 0 } }

/-- A double-bit error in bank `b` (09 R334, Tables 9-6 and 1-7). `item` says which entry of the owner held the word: a
context or 32 + a coefficient bank of a pipeline, an event of the merge buffer or of a staging, an Archive entry. The banks are
numbered in the row order of Table 1-7 (log 36). -/
def State.doubleBit (b row item : Nat) (s : State) : State :=
  let s := s.modSram b fun x => { x with uncorr := true, ret := false, workAt := s.now }
  let s := (s.raise 53 1 b 0 0).repairRow b row
  if b < 64 then
    let n := item % 4
    let s := s.raise 54 10 b 0 0
    if item / 4 < (s.arch.getD n {}).entries.length then
      { s with arch := updAt (fun A => { A with entries := A.entries.eraseIdx (item / 4), lost := satInc 0xFFFFFFFF A.lost }) n s.arch }
    else s
  else if b < 154 then s.raise ((b - 64) / 5) 0 b 0 0
  else if b < 202 then
    let p := (b - 154) / 3
    if item < 32 then (s.raise (19 + p) 1 item 0 0).loseCtx p item
    else
      let k := item % 4
      let s := s.raise (19 + p) 1 k 0 0
      let s := { s with pipes := updAt (fun P => { P with banks := updAt (fun x => { x with valid := false }) k P.banks }) p s.pipes }
      s.stopWhere p 3 fun x => x.bankNow = k || (match x.r.fade with | some f => f.dst = k | none => false)
  else if b < 234 then s.raise 18 1 b 0 0
  else if b < 250 then (s.raise 54 10 b 0 0).loseMerge item
  else
    let s := s.raise 54 10 b 0 0
    if s.rot.busy && s.rot.phase ≠ .load then s.endGap 2 8 else s

end Sys2Proof.Machine
end

