-- ==== Sys2Proof/Machine/Ports.lean ====
section
/-!
DEFINITION. Host ports: rings and their errors, doorbell and intake, messages, ownership requests, the lock, and how a
ring command is judged before it acts (07 R252 to R291; 12 R419; 14 R445 to R447).
-/
namespace Sys2Proof.Machine

/-! ## Rings (07 R257 to R260) -/

/-- Fault block of a port (09 Table 9-5). -/
def portBlk (p : PortId) : Nat := 51 + p.code

/-- A ring stops by an error (07 R258). -/
def State.ringError (p : PortId) (r kind : Nat) (s : State) : State :=
  (s.modPort p fun P => P.modRing r fun q => { q with err := true, errKind := kind }).raise (portBlk p) 0 r kind 0

/-- A ring is disabled: reservations of commands in flight stay with it, and a signal that it owes is still sent (07 R265,
R291). -/
def Ring.off (q : Ring) : Ring := { q with en := false }

/-- The port has another enabled ring of type `ty`. -/
def Port.hasOther (r ty : Nat) (P : Port) : Bool := P.rings.zipIdx.any fun x => x.2 ≠ r && x.1.en && x.1.ty = ty

/-- RING_CFG as written, on a disabled ring (07 Table 7-3). -/
def Ring.fields (w : Word) (q : Ring) : Ring :=
  { q with ty := fld w 30 29, size := min 12 (fld w 28 25), vec := fld w 24 19, cq := fld w 18 13, block := fld w 12 8,
           gap := fld w 7 0 }

/-- The contexts that wait on ring `r` of a port when it is enabled (07 R295). -/
def State.rejoin (p : PortId) (r : Nat) (s : State) : State :=
  forAll (fun i s =>
    let x := s.ctx (i / 32) (i % 32)
    if x.run && x.r.port = p && x.r.ring = r then
      let q := (s.port p).ring r
      if q.ty = 3 && q.block = x.blockN then s.pumpCtx (i / 32) (i % 32) else s.stopCtx (i / 32) (i % 32) 4 none
    else s) (List.range 512) s

/-- A write that sets RING_CFG.EN (07 R258, R295). -/
def State.ringEnable (p : PortId) (r : Nat) (w : Word) (s : State) : State :=
  let q := (s.port p).ring r
  if q.en then s
  else
    let s := s.modPort p fun P => P.modRing r (Ring.fields w)
    let P := s.port p
    let q := P.ring r
    let cq := P.ring q.cq
    if (q.ty = 2 && P.hasOther r 2) || (q.ty = 0 && !(cq.en && cq.ty = 1)) then s.ringError p r 5
    else
      let s := s.modPort p fun P => P.modRing r fun q => { q with
        en := true, err := false, errKind := 0, prod := 0, cons := 0 }
      (s.rejoin p r).pump

/-- A write that clears RING_CFG.EN (07 R258). -/
def State.ringDisable (p : PortId) (r : Nat) (w : Word) (s : State) : State :=
  let P := s.port p
  let q := P.ring r
  if !q.en then s.modPort p fun P => P.modRing r (Ring.fields w)
  else if q.ty = 1 && P.rings.any (fun x => x.en && x.ty = 0 && x.cq = r) then s
  else s.modPort p fun P => P.modRing r Ring.off

/-- Both ports write what they hold, stream blocks that wait included. -/
def State.pumpAll (s : State) : State := s.pump.pumpStreams

/-- LIVE follows link, Bus Master Enable and ENABLE; its change is a PORT event, and its fall disables every ring
(07 R258, R288). -/
def State.setLive (p : PortId) (s : State) : State :=
  let P := s.port p
  let new := P.linkUp && P.busMaster && P.enable
  if new = P.live then s
  else
    let s := s.modPort p fun P => { P with
      live := new, fellAt := if new then P.fellAt else some s.now, rings := if new then P.rings else P.rings.map Ring.off }
    s.emitHub 0x12 (payload [(16, 1, p.code), (17, 1, b2n new)])

/-- A write to PORT_CTRL (07 Table 7-3, R258). -/
def State.portCtrl (p : PortId) (w : Word) (s : State) : State :=
  let en := bit w 31
  let rise := en && !(s.port p).enable
  let s := s.modPort p fun P => { P with
    enable := en, dbPoll := clampNat 5 1000 (fld w 15 0), dbErr := P.dbErr && !rise,
    rings := if en then P.rings else P.rings.map Ring.off, pollAgain := P.pollAgain && en,
    pollAt := if rise then s.now else P.pollAt }
  let s := if rise then s.endPresent (portBlk p) 2 else s
  let s := if (s.port p).linkUp then s else if rise then s.raise (portBlk p) 1 0 0 0 else if en then s else s.endPresent (portBlk p) 1
  (s.setLive p).pumpAll

/-- The port's link and configuration as they now stand (07 R288, Table 7-3). A link that goes down while ENABLE is set is
LINK_ERR (09 Table 9-5). A host that sets Bus Master Enable has set MSI-X Enable too (log 16). -/
def State.portLive (p : PortId) (linkUp busMaster : Bool) (speed width : Nat) (l1 : Bool) (s : State) : State :=
  let old := s.port p
  let s := s.modPort p fun P => { P with
    linkUp := linkUp, busMaster := busMaster, speed := if linkUp then speed else 0, width := if linkUp then width else 0,
    l1 := linkUp && l1, cs := { P.cs with msixOn := P.cs.msixOn || busMaster } }
  let s := if old.linkUp && !linkUp && old.enable then s.raise (portBlk p) 1 0 0 0 else if linkUp && !old.linkUp then s.endPresent (portBlk p) 1 else s
  (s.setLive p).pumpAll

/-- A port's own reset (07 R253): its link, configuration space and port registers, and its rings. -/
def State.resetPort (p : PortId) (s : State) : State :=
  let was := (s.port p).live
  let s := s.modPort p fun P => { P with
    enable := false, dbPoll := 20, live := false, busMaster := false, linkUp := false, speed := 0, width := 0, l1 := false,
    dbErr := false, cs := {}, owed := [], pollAt := 0,
    fellAt := if was then some s.now else P.fellAt, dbLo := 0, dbHi := 0, subSrc := 0x1FFFF, subKind := 0xFFFFFFFF,
    staging := [], dropCnt := 0, pollAgain := false, msix := List.replicate 64 {}, pba := List.replicate 64 false, rr := 0,
    rings := P.rings.map fun q => { reserved := q.reserved } }
  let s := (s.endPresent (portBlk p) 1).endPresent (portBlk p) 2
  if was then s.emitHub 0x12 (payload [(16, 1, p.code), (17, 1, 0)]) else s

/-- Milliseconds for which a port has not been live (07 Table 7-3 PEER_DOWN, as its peer reads it). -/
def State.downMs (p : PortId) (s : State) : Nat :=
  if (s.port p).live then 0
  else match (s.port p).fellAt with
    | some x => sat 0xFFFF ((s.now - x) / ms)
    | none => 0

/-! ## Doorbell, intake and messages (07 R260 to R265, R289, R291) -/

/-- A producer count read for ring `r` (07 R260; log 16): for a command ring it lies between the descriptors fetched and
those and a ring's length; for the others it neither goes back nor frees what was not written. -/
def State.takeProd (p : PortId) (r v : Nat) (s : State) : State :=
  let q := (s.port p).ring r
  if !q.active then s
  else
    let bad := if q.ty = 0 then v < q.cons || q.cons + q.slots < v else v < q.prod || q.cons < v
    if bad then s.ringError p r 4 else s.modPort p fun P => P.modRing r fun q => { q with prod := v }

/-- Words that a poll reads: one more than the highest enabled ring number H (07 R261). -/
def Port.pollWords (P : Port) : Nat := P.rings.zipIdx.foldl (fun n x => if x.1.en then x.2 + 1 else n) 0

/-- A poll is due: DB_POLL has passed since the last one, or a nudge asked for it (07 R261, R262). -/
def Port.pollDue (now : Tick) (P : Port) : Bool := P.pollAgain || P.pollAt ≤ now

/-- One poll of the doorbell page, when it is due (07 R261): words PROD_0 to PROD_H; a failed read stops polling. -/
def State.poll (p : PortId) (prods : List Nat) (fails : Bool) (s : State) : State :=
  let P := s.port p
  if !s.portRuns p || P.dbErr || !P.pollDue s.now then s
  else
    let s := s.modPort p fun P => { P with
      pollAgain := false, pollAt := if P.pollAt ≤ s.now then s.now + P.dbPoll * us / 10 else P.pollAt }
    if fails then (s.modPort p fun P => { P with dbErr := true }).raise (portBlk p) 2 0 0 0
    else
      let s := forAll (fun (x : Nat × Nat) s => s.takeProd p x.2 x.1) (prods.take P.pollWords).zipIdx s
      s.pumpAll

/-- Word `k` of an MSI-X table entry written. -/
def Msix.put (k : Nat) (w : Word) (m : Msix) : Msix :=
  match k with
  | 0 => { m with addrLo := w &&& 0xFFFFFFFC#32 }
  | 1 => { m with addrHi := w }
  | 2 => { m with data := w }
  | _ => { m with ctl := w &&& 1 }

/-- A write in BAR2 (07 R255, R262): a nudge starts a poll; the MSI-X table is written, and a message that waited for its
mask is sent. -/
def State.bar2Write (p : PortId) (offset : Nat) (w : Word) (s : State) : State :=
  if offset < 0x1000 then
    s.modPort p fun P => { P with pollAgain := P.pollAgain || (P.enable && !P.dbErr) }
  else if 0x2000 ≤ offset ∧ offset < 0x2400 then
    let v := (offset - 0x2000) / 16
    let s := s.modPort p fun P => { P with msix := updAt (Msix.put (offset / 4 % 4) w) v P.msix }
    let P := s.port p
    if P.pba.getD v false && !bit (P.msix.getD v {}).ctl 0 && !P.cs.funcMask then
      (s.modPort p fun P => { P with pba := updAt (fun _ => false) v P.pba }).msix p v
    else s
  else s

/-- Word `k` of an MSI-X table entry. -/
def Msix.get (k : Nat) (m : Msix) : Word :=
  match k with
  | 0 => m.addrLo
  | 1 => m.addrHi
  | 2 => m.data
  | _ => m.ctl

/-- A read in BAR2 (07 R255, R262): the MSI-X table and its pending bits; the nudge page and reserved ranges read 0. -/
def State.bar2Read (p : PortId) (offset : Nat) (s : State) : Word :=
  let P := s.port p
  if 0x2000 ≤ offset ∧ offset < 0x2400 then (P.msix.getD ((offset - 0x2000) / 16) {}).get (offset / 4 % 4)
  else if 0x3000 ≤ offset ∧ offset < 0x3008 then
    word ((List.range 32).foldl (fun m i => m + b2n (P.pba.getD ((offset - 0x3000) / 4 * 32 + i) false) <<< i) 0)
  else 0

/-- Word `o` of a port's configuration header as a host reads it (07 Table 7-1): identification, class, BARs and the
absent Interrupt Pin; the Device Serial Number is the low 64 bits of the unit ID. -/
def State.cfgRead (p : PortId) (o : Nat) (s : State) : Word :=
  let P := s.port p
  if o = 0 then word (0x0512 <<< 16 + s.per.pciVendor)
  else if o = 4 then word (2 + 4 * b2n P.busMaster)
  else if o = 8 then word (0x118000 <<< 8 + s.per.revId)
  else if o = 0x10 then word (P.cs.bar0 / 0x100000 * 0x100000)
  else if o = 0x18 then word (P.cs.bar2 / 0x4000 * 0x4000)
  else if o = 0x2C then word s.per.pciSubsys
  else 0

/-- The Device Serial Number (07 Table 7-1). -/
def State.serialNo (s : State) : Nat := s.per.unitId % 2 ^ 64

/-- Command ring `r` has a descriptor ready and a completion slot to reserve for it (07 R265, R289). -/
def Port.ready (r : Nat) (P : Port) : Bool :=
  let q := P.ring r
  let c := P.ring q.cq
  q.active && q.ty = 0 && q.cons < q.prod && c.active && c.ty = 1 && c.free 1

/-- The ring whose turn it is (07 R289). -/
def Port.turn (P : Port) : Option Nat := ((List.range 64).map fun k => (P.rr + 1 + k) % 64).find? fun r => P.ready r

/-- The operand bits that an opcode names, as a mask over bytes 16 to 31; none for an opcode that no table lists (07 Table
7-7, 08 Tables 8-7, R309, R320, R321; 09 Table 9-17; 10 Table 10-9; 11 R395; 14 Table 14-4). -/
def opMask (op : Nat) : Option Nat :=
  let b (i n : Nat) : Nat := (256 ^ n - 1) <<< (8 * (i - 16))
  match op with
  | 0x00 | 0x01 | 0x13 | 0x1A | 0x30 | 0x31 | 0x51 | 0x61 | 0x78 | 0x79 | 0x83 | 0x84 | 0x85 | 0x86 | 0x87 => some 0
  | 0x10 => some (31 ||| 0x83 <<< 8 ||| b 20 4 ||| b 24 4)
  | 0x11 => some (b 16 8 ||| b 24 4)
  | 0x12 => some (b 16 8 ||| b 24 1)
  | 0x14 => some (b 16 1 ||| b 20 3 ||| b 24 3)
  | 0x18 => some (0xFFFFFFFF00FFFFFFDFFFFFFFFFFF0000)
  | 0x19 => some 1
  | 0x32 => some (b 16 8)
  | 0x33 => some 0xFFFFFF80
  | 0x34 => some 0x83
  | 0x50 | 0x52 => some (b 16 1)
  | 0x53 => some (b 16 8)
  | 0x54 => some (b 16 1 ||| b 18 2)
  | 0x60 => some (b 16 16)
  | 0x70 => some (b 16 2)
  | 0x71 => some (b 16 1 ||| b 18 2 ||| b 20 8 ||| b 28 4)
  | 0x80 => some (b 16 8 ||| 0x803FFFFF <<< 64 ||| b 28 4)
  | 0x81 | 0x88 => some 1
  | 0x82 => some (3 ||| b 20 4)
  | 0x90 | 0x91 => some (b 16 4 ||| b 20 2 ||| b 24 8)
  | 0x92 => some (b 16 1 ||| b 20 4)
  | 0xA0 | 0xA1 | 0xA2 | 0xA3 | 0xA4 => some (b 16 1 ||| b 18 2)
  | 0xA8 => some (b 16 16)
  | 0xA9 => some (b 16 4)
  | _ => none

/-- The tile whose engine executes an opcode (07 R33, Table 7-7); none for a command of the hub. -/
def opTile (op arg : Nat) : Option Nat :=
  if 0x10 ≤ op ∧ op ≤ 0x14 then some (arg / 32 % 16)
  else if op = 0x18 ∨ op = 0x19 then some (arg / 64 % 16)
  else if op = 0x1A ∨ op = 0x34 ∨ op = 0x78 ∨ op = 0x79 then some (arg % 16)
  else if 0x30 ≤ op ∧ op ≤ 0x32 then some (arg / 8 % 16)
  else if op = 0x33 then some (if 512 ≤ arg then arg % 16 else arg / 32)
  else none

/-- The first byte of an opcode's operands that has a reserved bit set. -/
def opsBad (op ops : Nat) : Option Nat :=
  let m := (opMask op).getD 0
  ((List.range 16).find? fun i => ops >>> (8 * i) % 256 &&& (255 - m >>> (8 * i) % 256) ≠ 0).map (16 + ·)

/-- The first byte of a descriptor that is not as Tables 7-5 and 7-7 have it (07 R264). -/
def descBad (d : Desc) : Option Nat :=
  if (opMask d.opcode).isNone then some 0 else if 4 ≤ d.flags then some 1 else opsBad d.opcode d.ops

/-- Byte `n` to `n + k − 1` of a descriptor's operands. -/
def descOp (n k : Nat) (d : Desc) : Nat := d.ops / 256 ^ (n - 16) % 256 ^ k

/-- The byte of an operand for which Table 7-7 has no command: an operation of CH_TRIM above 3, an action of MIR_FORCE
above 2, or an address that is not aligned (07 R269). -/
def descWrong (d : Desc) : Option Nat :=
  if d.opcode = 0x14 ∧ 3 < descOp 16 1 d then some 16
  else if d.opcode = 0x12 ∧ 2 < descOp 24 1 d then some 24
  else if d.opcode = 0x53 ∧ descOp 16 8 d % 64 ≠ 0 then some 16
  else if d.opcode = 0xA8 ∧ descOp 24 8 d % 8 ≠ 0 then some 24
  else if d.opcode = 0x60 ∧ descOp 16 8 d % 8 ≠ 0 then some 16
  else if d.opcode = 0x60 ∧ descOp 24 8 d % 8 ≠ 0 then some 24
  else if d.opcode = 0x80 ∧ descOp 16 8 d % 64 ≠ 0 then some 16
  else none

/-- The resource that such a command acts on, of those its own row names (07 R268). -/
def descOwns (d : Desc) : List (Nat × Nat) :=
  if d.opcode = 0x14 ∨ d.opcode = 0x12 then [(0, d.arg)] else if d.opcode = 0x53 then [(3, d.arg)]
  else if d.opcode = 0x60 then [(4, d.arg / 4)] else []

/-- The header of a fetched command. -/
def Fetched.hdr (f : Fetched) (now : Tick) : Hdr :=
  { at_ := now, port := f.port, ring := f.ring, cnt := f.cnt, tag := f.desc.tag, deadline := f.desc.deadline,
    silent := f.desc.flags.testBit 0, fence := f.desc.flags.testBit 1, arg := f.desc.arg }

/-- A ring signals its vector (07 R291), or a fault block that owes one its own (09 R332; number 64 + k). -/
def State.message (p : PortId) (r : Nat) (s : State) : State :=
  if r < 64 then
    let q := (s.port p).ring r
    let due := match q.lastMsg with | some x => decide (x + q.gap * us ≤ s.now) | none => true
    if q.unsig && q.ty ≠ 0 && due && (s.port p).live then
      (s.modPort p fun P => P.modRing r fun q => { q with unsig := false, lastMsg := some s.now }).msix p q.vec
    else s
  else
    let b := s.blk (r - 64)
    let (owed, sent) := match p with | .ha => (b.owedHa, b.sentHa) | .hb => (b.owedHb, b.sentHb)
    if owed && !s.unseen (r - 64) && (match sent with | some x => decide (x + 100 * us ≤ s.now) | none => true) then s.faultMsi (r - 64) p else s

/-! ## How a ring command is judged (07 R264 to R268; 12 R419; 10 R379; 14 R447) -/

/-- The requests of a tick begin. -/
def Own.atTick (now : Tick) (o : Own) : Own :=
  if o.tick = some now then o else { o with tick := some now, start := o.tab, mid := o.tab, reqs := [] }

/-- What a command needs before it acts: its operands' faults, the resources it acts on, the tile whose engine runs it,
and whether it acts before COMPLETE, in recovery, and under SETUP_LOCK; an ownership request is one of its tick though it
is refused (07 R286), and one that waits for an engine is kept (01 R37). -/
structure Cmd where
  bad : Option Reply := none
  own : List (Nat × Nat) := []
  tile : Option Nat := none
  early : Bool := false
  recov : Bool := false
  locked : Bool := false
  needs : List Life := [.online]
  ask : Option OwnReq := none
  cmd : Option Instr := none

/-- BAD_PARAM at a byte of the descriptor. -/
def badField (n : Nat) : Reply := { st := 1, rs := 8, ix := n }

/-- The phase lets the command act (12 R419, 10 R379). -/
def State.phaseLets (c : Cmd) (s : State) : Bool :=
  s.complete || (if s.start.phase = .recovery then c.recov else c.early)

/-- The first check that refuses a command, with its reply: R264, ownership, phase, deadline, lock, its tile's service. -/
def State.refuses (h : Hdr) (c : Cmd) (s : State) : Option Reply :=
  match c.bad with
  | some r => some r
  | none =>
    match c.own.find? fun x => s.owner x.1 x.2 ≠ some h.port with
    | some x => some { st := 2, rs := 4, ix := x.2 }
    | none =>
      if !s.phaseLets c then some { st := 4 }
      else if s.past h then some { st := 5 }
      else if c.locked && s.locked then some { st := 10 }
      else match c.tile with
        | some t => if s.engineless t || !c.needs.contains (s.tile t).link.life then some { st := 4 } else none
        | none => none

/-- The tile engine that executes an opcode, or none for the hub: the owner of its deadline (02 Table 2-9). -/
def State.engOf (op arg : Nat) (s : State) : Option Nat := (opTile op arg).map fun t => (s.tile t).engine

/-- One intake grant (07 R265, R289): the descriptor is fetched and its completion slot reserved; one that R264 refuses
completes at once, and so does one whose operand no command of Table 7-7 has, after the checks that come before it. While
both intakes have a descriptor ready their grants alternate. -/
def State.fetch (p : PortId) (r : Nat) (d : Desc) (s : State) : State :=
  let P := s.port p
  if !s.portRuns p || P.turn ≠ some r || (s.portRuns p.peer && (s.port p.peer).turn.isSome && s.lastGrant = some p) then s
  else
    let q := P.ring r
    let f : Fetched := { port := p, ring := r, cnt := q.cons, desc := d, tile := opTile d.opcode d.arg, cq := q.cq, at_ := s.now }
    let s := s.modPort p fun P =>
      let P := { ((P.modRing r fun q => { q with cons := q.cons + 1 }).modRing q.cq fun c =>
        { c with reserved := c.reserved + 1 }) with rr := r }
      { P with out := P.out ++ [P.consWrite r] }
    let s := { s with fetched := s.fetched ++ [f], lastGrant := some p }.rouse (portBlk p)
    let h := f.hdr s.now
    match descBad d with
    | some i => (s.begun h).reply h d.opcode (badField i)
    | none =>
      match descWrong d with
      | some i => (s.begun h).reply h d.opcode ((s.refuses h { own := descOwns d, locked := d.opcode = 0x14 || d.opcode = 0x53, recov := d.opcode = 0x80 }).getD (badField i))
      | none => s

/-- A command whose descriptor no grant has brought is fetched by its own row (log 1): it reserves its completion slot, and
is not fetched while there is none. -/
def State.taken (h : Hdr) (op : Nat) (s : State) : State :=
  let P := s.port h.port
  let q := P.ring h.ring
  let c := P.ring q.cq
  let keeps := q.active && q.ty = 0 && c.active && c.ty = 1
  if s.fetched.any (fun f => isCmd h f.port f.ring f.cnt) || (keeps && !c.free 1) then s
  else
    let s := if keeps then s.modPort h.port fun P => P.modRing q.cq fun c => { c with reserved := c.reserved + 1 } else s
    { s with fetched := s.fetched ++ [{
        port := h.port, ring := h.ring, cnt := h.cnt, tile := opTile op h.arg, cq := q.cq, held := keeps, at_ := s.now,
        desc := { opcode := op, flags := b2n h.silent + 2 * b2n h.fence, arg := h.arg, tag := h.tag, deadline := h.deadline, ops := 0 } }] }

/-- A frame of the command's ring still waits for its serial port: its execution has not begun (11 R396). -/
def State.frameWaits (h : Hdr) (s : State) : Bool := s.sps.any fun p => p.wait.any fun f => f.h.port = h.port && f.h.ring = h.ring

/-- The command's turn has come (07 R264, R266): it is fetched with this header, every command fetched before it from its
ring and for its tile has begun, no frame of its ring waits, and with FENCE those of its ring have completed. -/
def State.turn (h : Hdr) (op : Nat) (s : State) : Bool :=
  match s.fetched.find? fun f => isCmd h f.port f.ring f.cnt with
  | some f =>
    f.desc.opcode = op && f.hdr h.at_ = h &&
      ((s.fetched.takeWhile fun g => !isCmd h g.port g.ring g.cnt).all fun g =>
        !(g.port = h.port && g.ring = h.ring) && !(g.tile.isSome && g.tile = f.tile)) && !s.frameWaits h &&
      !(h.fence && s.running.any fun x => x.port = h.port && x.ring = h.ring)
  | none => false

/-- The margin of a command that begins before its deadline (02 R80). -/
def State.cmdMargin (h : Hdr) (op : Nat) (s : State) : State :=
  if h.deadline = 0 then s else s.margin ((s.engOf op h.arg).getD 54) 5 (h.deadline - s.now)

/-- The tile that a command needs has no engine that takes it now: it waits for one (01 R37), or is held back for a rotation
(08 R310). -/
def State.noEngine (c : Cmd) (s : State) : Bool :=
  match c.tile with
  | some t => !(s.tile t).bound || s.holdsBack t
  | none => false

/-- A ring command whose turn has come: refused with its completion, waiting for an engine, or executed by `act`, which gives its completion unless that comes later. -/
def State.begin_ (h : Hdr) (op : Nat) (c : Cmd) (act : State → State × Option Reply) (s : State) : State :=
  match s.refuses h c with
  | some r =>
    let s := s.begun h
    let s := match c.ask with | some a => { s with own := { s.own.atTick s.now with reqs := (s.own.atTick s.now).reqs ++ [a] } } | none => s
    let s := if r.st = 5 then s.raiseCmd h (s.engOf op h.arg) else s
    s.reply h op r
  | none =>
    if s.noEngine c then
      { s with fetched := s.fetched.map fun f => if isCmd h f.port f.ring f.cnt then { f with waiting := true, cmd := c.cmd, tile := c.tile } else f }
    else
      let (s, r) := act (((s.begun h).cmdMargin h op).rouse ((s.engOf op h.arg).getD 54))
      match r with
      | some r => s.reply h op r
      | none => s

/-- A ring command from its fetch on: it begins when its turn has come, and until then changes nothing more (07 R266). -/
def State.runCmd (h : Hdr) (op : Nat) (c : Cmd) (act : State → State × Option Reply) (s : State) : State :=
  if s.dev.grave then s
  else
    let s := s.taken h op
    if s.turn h op then s.begin_ h op c act else s

/-- A waiting command's deadline passes (01 R37). -/
def State.waitPast (p : PortId) (r n : Nat) (s : State) : State :=
  match s.fetched.find? fun f => f.port = p && f.ring = r && f.cnt = n && f.waiting with
  | some f =>
    let h := f.hdr s.now
    if s.past h then
      ((s.begun h).raiseCmd h (s.engOf f.desc.opcode f.desc.arg)).reply h f.desc.opcode { st := 5 }
    else s
  | none => s

/-! ## Ownership requests (07 R279 to R287) -/

/-- Resources of each class (07 Table 7-6). -/
def classSize (c : Nat) : Nat := [512, 128, 512, 64, 16].getD c 0

/-- The operands of an ownership request are out of range (07 Table 7-7). -/
def ownBad (cls first count most : Nat) : Option Reply :=
  if 5 ≤ cls then some (badField 16)
  else if count = 0 ∨ most < count then some (badField 2)
  else if classSize cls < first + count then some (badField 18)
  else none

/-- The ownership of one resource in a table. -/
def Owners.of (o : Owners) (cls i : Nat) : Option PortId := (o.getD cls []).getD i none

/-- An ownership request of the queue, for the tick in which it will begin (log 2). -/
def ownReqOf : Instr → Option (Tick × OwnReq)
  | .claim h c f | .release h c f | .handover h c f | .takeover h c f =>
    some (h.at_, { port := h.port, cls := c, first := f, count := h.arg })
  | _ => none

/-- A request names resource `i` of class `cls`. -/
def OwnReq.names (cls i : Nat) (r : OwnReq) : Bool := r.cls = cls && r.first ≤ i && i < r.first + r.count

/-- Port `p` has an ownership request on a resource in this tick, begun or still in the queue (07 R286; log 2). -/
def State.asks (p : PortId) (cls i : Nat) (s : State) : Bool :=
  let hits (r : OwnReq) : Bool := r.port = p && r.names cls i
  s.own.reqs.any hits || s.pending.any fun c => match ownReqOf c with
    | some (τ, r) => τ ≤ s.now && hits r
    | none => false

/-- What a request changes in a table. -/
def OwnReq.apply (o : Owners) (r : OwnReq) : Owners :=
  updAt (mapFrom (fun i x => if r.hits.contains i then r.newOwner else x) 0) r.cls o

/-- A decided request joins those of its tick: ownership after the tick is that at its start with HA's changes and then
HB's, in whatever order they were decided (07 R281). -/
def Own.add (r : OwnReq) (o : Own) : Own :=
  let reqs := o.reqs ++ [r]
  let mid := (reqs.filter fun x => x.port = .ha).foldl OwnReq.apply o.start
  { o with reqs := reqs, mid := mid, tab := (reqs.filter fun x => x.port = .hb).foldl OwnReq.apply mid }

/-- The ownership that a port's requests of this tick are judged against (07 R281). -/
def Own.view (p : PortId) (o : Own) : Owners := if p = .ha then o.start else o.mid

/-- A request decided against `o` (07 R281, R283): its effect, and its event when it changed anything. -/
def State.grant (o : Own) (p : PortId) (cls first count cause : Nat) (f : Option PortId → Bool) (v : Option PortId)
    (s : State) : State :=
  let hit := ((List.range count).map (first + ·)).filter fun i => f ((o.view p).of cls i) && (o.view p).of cls i ≠ v
  let s := { s with own := s.own.add { port := p, cls := cls, first := first, count := count, hits := hit, newOwner := v } }
  if hit.isEmpty then s
  else s.emitHub 0x0F (payload [(16, 1, cls), (18, 2, first), (20, 2, count),
    (22, 1, match v with | none => 0 | some q => q.code + 1), (23, 1, cause)])

/-- A request that changes nothing is still a request of its tick. -/
def State.denied (p : PortId) (cls first count : Nat) (s : State) : State :=
  { s with own := s.own.add { port := p, cls := cls, first := first, count := count } }

/-- A granted request of port `q` in this tick changed resource `i`. -/
def Own.changed (q : PortId) (cls i : Nat) (o : Own) : Bool :=
  o.reqs.any fun r => r.port = q && r.cls = cls && r.hits.contains i

/-- CLAIM judged against `o` (07 R284, R286). -/
def State.claimIn (o : Own) (p : PortId) (cls first count : Nat) (s : State) : State × Option Reply :=
  let s := { s with own := s.own.atTick s.now }
  let q := p.peer
  let fails (i : Nat) : Bool := match (o.view p).of cls i with
    | some x => x ≠ p
    | none => o.changed q cls i
  match (List.range count).find? fun k => fails (first + k) with
  | some k =>
    let i := first + k
    let contended := o.changed q cls i || (o.start.of cls i = some q && s.asks q cls i)
    (s.denied p cls first count, some { st := if contended then 3 else 2, rs := 4, ix := i })
  | none => (s.grant o p cls first count 0 (fun x => x = none) (some p), some (Reply.ok 0))

/-- RELEASE judged against `o` (07 R285). -/
def State.releaseIn (o : Own) (p : PortId) (cls first count : Nat) (s : State) : State × Option Reply :=
  let s := { s with own := s.own.atTick s.now }
  (s.grant o p cls first count 1 (fun x => x = some p) none, some (Reply.ok 0))

/-- The first resource of a HANDOVER that its port does not own, as NOT_OWNER (07 R268, R285). -/
def Own.notHanded (o : Own) (p : PortId) (cls first count : Nat) : Option Reply :=
  ((List.range count).find? fun k => (o.view p).of cls (first + k) ≠ some p).map fun k => { st := 2, rs := 4, ix := first + k }

/-- HANDOVER judged against `o` (07 R285). -/
def State.handoverIn (o : Own) (p : PortId) (cls first count : Nat) (s : State) : State × Option Reply :=
  let s := { s with own := s.own.atTick s.now }
  match o.notHanded p cls first count with
  | some r => (s.denied p cls first count, some r)
  | none => (s.grant o p cls first count 2 (fun x => x = some p) (some p.peer), some (Reply.ok 0))

/-- TAKEOVER judged against `o` (07 R287). -/
def State.takeoverIn (o : Own) (p : PortId) (cls first count : Nat) (s : State) : State × Option Reply :=
  let s := { s with own := s.own.atTick s.now }
  if (s.port p.peer).live || s.downMs p.peer < 10 then (s.denied p cls first count, some { st := 4 })
  else (s.grant o p cls first count 3 (fun x => x = some p.peer) (some p), some (Reply.ok 0))

/-- What an ownership request needs: its operands, and for a HANDOVER its resources, before every other check. -/
def ownNeeds (h : Hdr) (cls first most : Nat) (early : Bool) (hand : Option Reply) : Cmd :=
  { bad := (ownBad cls first h.arg most).or hand, early := early,
    ask := some { port := h.port, cls := cls, first := first, count := h.arg } }

/-- A request of HA that stands in the queue for this tick, decided (07 R281). -/
def State.ownRow (c : Instr) (s : State) : State :=
  let o := s.own.atTick s.now
  let due (h : Hdr) : Bool := h.port = .ha && h.at_ ≤ s.now
  match c with
  | .claim h cls f => if due h then s.runCmd h 0xA0 (ownNeeds h cls f 512 true none) (State.claimIn o .ha cls f h.arg) else s
  | .release h cls f => if due h then s.runCmd h 0xA1 (ownNeeds h cls f 512 true none) (State.releaseIn o .ha cls f h.arg) else s
  | .handover h cls f =>
    if due h then s.runCmd h 0xA2 (ownNeeds h cls f 512 false (o.notHanded .ha cls f h.arg)) (State.handoverIn o .ha cls f h.arg) else s
  | .takeover h cls f =>
    if due h then s.runCmd h 0xA3 (ownNeeds h cls f 512 false none) (State.takeoverIn o .ha cls f h.arg) else s
  | _ => s

/-- The requests of this tick that a port's request is judged with: for HB, HA's that still stand in the queue are taken as
decided (07 R281; log 2). -/
def State.judges (p : PortId) (s : State) : Own :=
  match p with
  | .ha => s.own.atTick s.now
  | .hb => (forAll State.ownRow s.pending { s with own := s.own.atTick s.now }).own

/-- CLAIM (07 R284, R286). -/
def State.claim (p : PortId) (cls first count : Nat) (s : State) : State × Option Reply :=
  s.claimIn (s.judges p) p cls first count

/-- RELEASE (07 R285). -/
def State.releaseOwn (p : PortId) (cls first count : Nat) (s : State) : State × Option Reply :=
  s.releaseIn (s.judges p) p cls first count

/-- HANDOVER (07 R285). -/
def State.handover (p : PortId) (cls first count : Nat) (s : State) : State × Option Reply :=
  s.handoverIn (s.judges p) p cls first count

/-- TAKEOVER (07 R287). -/
def State.takeover (p : PortId) (cls first count : Nat) (s : State) : State × Option Reply :=
  s.takeoverIn (s.judges p) p cls first count

/-- OWNER_QUERY (07 Table 7-7): two bits for each resource. -/
def State.ownerQuery (cls first count : Nat) (s : State) : Reply :=
  Reply.ok ((List.range count).foldl (fun n k =>
    n + (match s.owner cls (first + k) with | none => 0 | some q => q.code + 1) <<< (2 * k)) 0)

/-! ## SETUP_LOCK (14 R445, R446) -/

/-- A LOCK command decided against the lock: what it leaves, and its completion (14 R445). -/
def LockSt.judge (now : Tick) (r : LockReq) (l : LockSt) : LockSt × Reply :=
  let locked : Reply := { st := 10, pl := 1 }
  if !r.unlock then
    if r.key = 0 then (l, { badField 20 with pl := b2n l.locked })
    else if l.locked then (l, locked)
    else ({ locked := true, port := r.port, key := r.key }, Reply.ok 1)
  else if !l.locked then (l, Reply.ok 0)
  else if 8 ≤ l.fails && (match l.lastWrong with | some x => decide (now < x + sec) | none => false) then (l, locked)
  else if r.key = l.key then ({ l with locked := false, key := 0 }, Reply.ok 0)
  else ({ l with fails := satInc 255 l.fails, lastWrong := some now }, locked)

/-- The lock with the LOCK commands of tick `now` only. -/
def Lock.atTick (now : Tick) (l : Lock) : Lock := if l.chg = some now then l else { l with chg := some now, start := l.toLockSt, reqs := [] }

/-- The lock after a port's LOCK commands of a tick. -/
def Lock.after (now : Tick) (p : PortId) (l : Lock) (v : LockSt) : LockSt :=
  (l.reqs.filter fun r => r.port = p).foldl (fun v r => (v.judge now r).1) v

/-- The lock that a port's next LOCK of the tick is judged against: HA's are decided before HB's (14 R446). -/
def Lock.view (now : Tick) (p : PortId) (l : Lock) : LockSt :=
  match p with
  | .ha => l.after now .ha l.start
  | .hb => l.after now .hb (l.after now .ha l.start)

/-- A decided LOCK joins those of its tick. -/
def Lock.add (now : Tick) (r : LockReq) (l : Lock) : Lock :=
  let l := l.atTick now
  let l := { l with reqs := l.reqs ++ [r] }
  { l with toLockSt := l.view now .hb }

/-- A LOCK command of HA that stands in the queue for this tick joins those of the tick (14 R446; log 2). -/
def State.lockRow (c : Instr) (s : State) : State :=
  let take (h : Hdr) (u : Bool) (key : Nat) : State :=
    if h.port = .ha ∧ h.at_ ≤ s.now then
      s.runCmd h 0x92 {} fun s => ({ s with lock := s.lock.add s.now { port := .ha, unlock := u, key := key } }, some (Reply.ok 0))
    else s
  match c with
  | .lock h key => take h false key
  | .unlock h key => take h true key
  | _ => s

/-- The lock that a port's LOCK is judged against: for HB, HA's that still stand in the queue for this tick are taken as
decided (14 R446; log 2). -/
def State.lockSeen (p : PortId) (s : State) : LockSt :=
  match p with
  | .ha => (s.lock.atTick s.now).view s.now .ha
  | .hb => ((forAll State.lockRow s.pending s).lock.atTick s.now).view s.now .hb

/-- LOCK and UNLOCK (14 R445, R446). -/
def State.lockCmd (p : PortId) (unlock : Bool) (key : Nat) (s : State) : State × Option Reply :=
  let r : LockReq := { port := p, unlock := unlock, key := key }
  ({ s with lock := s.lock.add s.now r }, some ((s.lockSeen p).judge s.now r).2)

end Sys2Proof.Machine
end

