-- ==== Sys2Proof/Machine/Faults.lean ====
section
/-!
DEFINITION. Acknowledgement and logs, storms and the persistent log, self-check, the safe-state net's pin, ALIVE, the hub's
temperature and supplies (09 R326 to R355; 12 R405, R422).
-/
namespace Sys2Proof.Machine

/-! ## FAULT_ACK (09 R328, R329, Table 9-17) -/

/-- A source acknowledged in its event (09 R340). -/
def State.ackOne (k i : Nat) (s : State) : State :=
  let x := (s.blk k).src i
  let s := s.modSrc k i fun x => { x with latched := false, count := 0 }
  let pl := faultPayload k i x.clsNow x.taken 2 x.index x.code x.aux x.escalated false
  let ports := x.taken &&& 16 ≠ 0
  if 35 ≤ k ∧ k ≤ 50 then s.emitAt (k - 35) x.ch (s.bnow k) 0x10 pl ports else s.emitHubAt s.now 0x10 pl [] ports

/-- Scope 0 of every orphaned transaction of a tile ends (09 Table 9-8). -/
def State.endOrphans (t : Nat) (s : State) : State :=
  let os := (s.tile t).saf.orphans
  let s := s.modTile t fun T => Tile.leaveSafe T { T with
    saf := { T.saf with orphans := [] }, chans := T.chans.map fun ch => { ch with o := { ch.o with orphan := false } } }
  forAll (fun (o : PortId × Nat × Cause) s => s.scopeEvent t 4 0 o.2.2) os s

/-- The sources of `mask` that an acknowledgement at this tick clears (09 R328). -/
def State.ackable (k mask : Nat) (s : State) : List Nat :=
  (List.range 16).filter fun i => mask.testBit i && ((s.blk k).src i).latched && ((s.blk k).src i).last < s.bnow k

/-- The PRESENT bits of a block. -/
def presentMask (xs : List Src) : Nat := xs.zipIdx.foldl (fun n x => n + b2n x.1.present <<< x.2) 0

/-- FAULT_ACK. Acknowledgement can end scopes 0, 1 and 3. -/
def State.ackBlk (k mask : Nat) (s : State) : State × Option Reply :=
  if 35 ≤ k ∧ k ≤ 50 ∧ (s.tile (k - 35)).lost then (s, some { st := 4 })
  else
    let is := s.ackable k mask
    let s := forAll (State.ackOne k) is s
    let s := if 35 ≤ k ∧ k ≤ 50 then
        let t := k - 35
        let s := if is.contains 8 then s.endOrphans t else s
        s.endWatchdog t
      else s
    let s := s.endNet
    (s, some (Reply.ok (payload [(16, 2, is.foldl (fun n i => n + 1 <<< i) 0), (18, 2, presentMask (s.blk k).srcs)])))

/-- A source whose PRESENT follows a condition that still holds (09 R327). -/
def State.condHolds (k i : Nat) (s : State) : Bool :=
  if 35 ≤ k ∧ k ≤ 50 then
    let T := s.tile (k - 35)
    i = 1 || i = 2 || i = 5 || i = 6 || i = 14 || (i = 4 && T.chans.any fun ch => ch.mode.isAo && ch.diagP.testBit 3)
  else if k = 51 ∨ k = 52 then
    let P := if k = 51 then s.ha else s.hb
    i = 2 || (i = 1 && P.enable && !P.linkUp)
  else if k = 53 then i = 2
  else if k = 54 then i = 0 || i = 2 || i = 3 || i = 8 || i = 9 || (i = 7 && s.per.plog.failed)
  else false

/-- PRESENT of a single happening ends 1 ms after the latest one (09 R327). -/
def State.presentEnd (k i : Nat) (s : State) : State :=
  if !s.condHolds k i && ((s.blk k).src i).last + ms ≤ s.bnow k then s.endPresent k i else s

/-! ## The Archive and the persistent log (09 R349 to R353, Table 9-17) -/

/-- One step of CRC-32 (IEEE 802.3) for a bit shifted out. -/
def crcBits : Nat → Nat → Nat
  | 0, c => c
  | n + 1, c => crcBits n (if c % 2 = 1 then (c / 2) ^^^ 0xEDB88320 else c / 2)

/-- CRC-32 of a byte string. -/
def crc32 (bs : List Byte) : Nat := bs.foldl (fun c b => crcBits 8 (c ^^^ b.toNat)) 0xFFFFFFFF ^^^ 0xFFFFFFFF

/-- A storm summary as its 32 bytes (09 Table 9-13). -/
def Storm.bytes (x : Storm) : List Byte :=
  leBytes 8 x.first.ts ++ leBytes 8 (x.first.mseq % 2 ^ 56 + 0xF0 <<< 56) ++ leBytes 8 x.last.ts ++ leBytes 4 x.count ++
    leBytes 1 x.kind ++ leBytes 1 x.tile ++ leBytes 1 x.first.ch ++ leBytes 1 x.last.ch

/-- An Archive entry as its 32 bytes (09 R349). -/
def ArchEntry.bytes : ArchEntry → List Byte
  | .ev e => e.bytes
  | .more e => e.moreBytes
  | .storm x => x.bytes

/-- A persistent record as its 64 bytes (09 Table 9-15). -/
def LogRec.bytes (r : LogRec) : List Byte :=
  let b := r.entry.bytes ++ leBytes 4 r.boots ++ leBytes 4 r.num ++ List.replicate 20 0
  b ++ leBytes 4 (crc32 b)

/-- Entries from position `start` on, `count` at most, of a log whose next position is `next` (mod 2^32): the first
position, the entries, and how many were passed over (09 Table 9-17). -/
def logFrom (es : List (List Byte)) (next start count : Nat) : Nat × List (List Byte) × Nat :=
  let n := es.length
  let old := toField 32 ((next : Int) - n)
  let d := sext 32 (toField 32 ((start : Int) - old))
  if d < 0 then (old, es.take count, d.natAbs)
  else (start, (es.drop d.toNat).take count, 0)

/-- LOG_READ (09 Table 9-17). -/
def State.logRead (h : Hdr) (log count addr start : Nat) (s : State) : State × Option Reply :=
  if 6 ≤ log then (s, some (badField 16))
  else if count = 0 ∨ 512 < count then (s, some (badField 18))
  else if addr % 64 ≠ 0 then (s, some (badField 20))
  else
    let A := s.arch.getD log {}
    let l := s.per.plog
    let (first, es, ovr) :=
      if log < 4 then logFrom (A.entries.map ArchEntry.bytes) A.next start count
      else if log = 4 then logFrom (l.s0.map LogRec.bytes) (l.next0 % 2 ^ 32) start count
      else logFrom (l.s1.map LogRec.bytes) (l.next1 % 2 ^ 32) start count
    (s.modPort h.port fun P => { P with out := P.out ++ [.entries addr es] },
      some { st := if es.length < count then 7 else 0,
             pl := payload [(16, 4, first), (20, 2, es.length), (24, 4, ovr)] })

/-- A summary's place in its stratum: ascending tile and kind (09 R351). -/
def insertStorm (x : Storm) : List Storm → List Storm
  | [] => [x]
  | y :: ys => if x.tile < y.tile || (x.tile = y.tile && x.kind ≤ y.kind) then x :: y :: ys else y :: insertStorm x ys

/-- The end of a 10 ms window (09 R351): each summary is written, and the counts start again. -/
def State.windowEnd (s : State) : State :=
  if s.now % 1000000 ≠ 0 then s
  else forAll (fun n s =>
    let ws := (s.arch.getD n {}).storms.foldr insertStorm []
    let s := { s with arch := updAt (fun A => { A with
      winCnt := 0, storms := [], coal := sat 0xFFFFFFFF (A.coal + ws.foldl (fun k w => k + w.count) 0) }) n s.arch }
    forAll (fun w s => s.archPut n (.storm w)) ws s) [1, 2, 3] s

/-- The mirror writes one record, S0 first (09 R352); a failed write is STORE. -/
def State.mirrorWrite (fails : Bool) (s : State) : State :=
  let l := s.per.plog
  if !l.ready || l.queue.isEmpty then s
  else if fails then
    ({ s with per := { s.per with plog := { l with failed := true } } }).raise 54 7 0 (Config.storeArea 2) 0
  else
    let n := if l.queue.any (fun x => x.1 = 0) then 0 else 1
    let s := { s with per := { s.per with plog := { l.writeOne n with failed := false } } }
    if l.failed then s.endPresent 54 7 else s

/-! ## Self-check (09 R338) -/

/-- A mismatch of a block's two status copies: its own safe state, and SELFCHK. -/
def State.selfchk (k diff : Nat) (s : State) : State :=
  if diff = 0 then s
  else
    let s := (s.raise k 15 0 diff 0).modBlk k fun b => { b with safe := true }
    if 19 ≤ k ∧ k ≤ 34 then s.stopWhere (k - 19) 3 fun _ => true
    else if 35 ≤ k ∧ k ≤ 50 then
      let t := k - 35
      s.enterBlock t false (s.causeOf k 15)
    else s

/-! ## FSAFE_N, ALIVE, temperature, supplies -/

/-- FSAFE_N falls (09 R343). -/
def State.fsafeFall (s : State) : State :=
  if !s.dev.fsafe then s
  else (({ s with dev := { s.dev with fsafe := false, fsafeSeen := true } }).raise 54 0 0 0 0).assertNet 54 0

/-- FSAFE_N rises (09 R344). -/
def State.fsafeRise (s : State) : State :=
  if s.dev.fsafe then s
  else ({ s with dev := { s.dev with fsafe := true, highSince := s.now } }).endPresent 54 0

/-- DEV_FAULT.ALIVE_WHY (09 Table 9-11): the highest code among the failing conditions. -/
def State.aliveWhy (s : State) : Nat :=
  if s.dev.grave then 4
  else if !s.dev.gateOk then 3
  else if s.blks.any (fun b => b.srcs.any fun x => x.latched && x.taken.testBit 0) then 2
  else if !s.complete then 1
  else 0

/-- SV serves the ALIVE gate (09 Table 9-11); SV halts in the grave hold (R339). -/
def State.gateServe (s : State) : State :=
  if s.dev.grave then s else { s with dev := { s.dev with gateAt := s.now, gateOk := true } }

/-- The gate goes unserved for 1 ms. -/
def State.gateMiss (s : State) : State :=
  if s.dev.gateAt + ms ≤ s.now then { s with dev := { s.dev with gateOk := false } } else s

/-- A multiple of 50,000 ticks: ALIVE changes level while every condition holds (09 R348). -/
def State.aliveEdge (s : State) : State :=
  if s.now % 50000 = 0 ∧ s.aliveWhy = 0 then { s with dev := { s.dev with aliveLevel := !s.dev.aliveLevel } } else s

/-- The hub's junction temperature in 0.1 °C (12 R422). -/
def State.hubTemp (tj : Int) (s : State) : State :=
  let was := s.therm.hot
  let hot := decide (1250 < tj)
  let s := { s with therm := { tj := tj, hot := hot, hotSeen := s.therm.hotSeen || hot } }
  if hot && !was then s.raise 54 8 0 (toField 16 (roundHalfEven tj 10)) 0
  else if was && !hot then s.endPresent 54 8
  else s

/-- A rail in mV lies within its SUPPLY thresholds, VKA within its range (12 Tables 12-1, 12-7). -/
def railOk (vio33 : Bool) (rail : Nat) (mv : Int) : Bool :=
  match rail with
  | 0 => 865 ≤ mv && mv ≤ 945
  | 1 => 960 ≤ mv && mv ≤ 1050
  | 2 => if vio33 then 3069 ≤ mv && mv ≤ 3531 else 1674 ≤ mv && mv ≤ 1926
  | 3 => 4700 ≤ mv && mv ≤ 5350
  | _ => 1800 ≤ mv && mv ≤ 3600

/-- A rail beyond the absolute maximum ratings of its pins (15 Table 15-1). -/
def railBeyond (rail : Nat) (mv : Int) : Bool :=
  let (lo, hi) : Int × Int := match rail with
    | 0 => (-300, 1050) | 1 => (-300, 1200) | 2 => (-300, 4000) | 3 => (-300, 6000) | _ => (-300, 4000)
  mv < lo || hi < mv

/-- A rail crosses a SUPPLY threshold for 10 µs (12 R405): each crossing outward is an occurrence; VKA raises none. -/
def State.railSample (rail : Nat) (mv : Int) (s : State) : State :=
  let was := s.sup.ok.getD rail true
  let ok := railOk s.sup.vio33 rail mv
  let s := { s with sup := { s.sup with
    ok := updAt (fun _ => ok) rail s.sup.ok, seen := updAt (fun x => x || !ok) rail s.sup.seen,
    viso := if rail = 3 then (clampInt 0 65535 mv).toNat else s.sup.viso } }
  if rail = 4 then s
  else if !ok && was then s.raise 54 9 0 rail 0
  else if ok && !was && (s.sup.ok.take 4).all id then s.endPresent 54 9
  else s

end Sys2Proof.Machine
end

