-- ==== Sys2Proof/Machine/Serial.lean ====
section
/-!
DEFINITION. Serial master ports (11 R384 to R404).
-/
namespace Sys2Proof.Machine

/-! ## Frames (11 R389 to R395) -/

/-- Lanes of a lane code; 0 for a code that is not listed. -/
def laneCode (c : Nat) : Nat := [1, 2, 4, 0].getD c 0

/-- Bits and lanes of the command, the address and the data phase of a record, and its dummy cycles (11 Table 11-2). -/
def recPhases (r : FrameRec) : (Nat × Nat) × (Nat × Nat) × Nat × (Nat × Nat) :=
  ((8 * (r.cmdB % 4), laneCode (r.cmdB / 4 % 4)), (8 * (r.addrB % 8), laneCode (r.addrB / 8 % 4)), r.dummy % 32,
    (r.count * (r.wordB % 64), laneCode (r.dirB / 4 % 4)))

/-- Cycles of a phase of `b` bits on `l` lanes (11 R390). -/
def cycles (x : Nat × Nat) : Nat := if x.1 = 0 then 0 else x.1 / max x.2 1

/-- Cycles of the four phases. -/
def recCycs (r : FrameRec) : Nat × Nat × Nat × Nat :=
  let (c, a, d, w) := recPhases r
  (cycles c, cycles a, d, if r.count = 0 then 0 else cycles w)

/-- N of 11 R395. -/
def recTotal (r : FrameRec) : Nat := let (a, b, c, d) := recCycs r; a + b + c + d

/-- DIR of a data phase: 0 read, 1 write, 2 full duplex. -/
def recDir (r : FrameRec) : Nat := r.dirB % 4

/-- The frame reads data. -/
def recReads (r : FrameRec) : Bool := 0 < r.count && recDir r ≠ 1

/-- A phase's bits are no multiple of its lanes, or its lane code is not listed. -/
def badPhase (x : Nat × Nat) : Bool := x.2 = 0 || (x.1 ≠ 0 && x.1 % max x.2 1 ≠ 0)

/-- What 11 R393 refuses, as the byte of the record. -/
def recBad (r : FrameRec) (sel : SpSel) (resAddr : Nat) : Option Nat :=
  let (c, a, _, w) := recPhases r
  let data := 0 < r.count
  if 16 ≤ r.cmdB ∨ r.cmdB % 4 = 3 ∨ badPhase c then some 2
  else if 32 ≤ r.addrB ∨ 5 ≤ r.addrB % 8 ∨ badPhase a then some 3
  else if 32 ≤ r.dummy then some 8
  else if 16 ≤ r.dirB ∨ (data ∧ (recDir r = 3 ∨ badPhase w ∨ (recDir r = 2 ∧ w.2 ≠ 1))) then some 9
  else if 64 ≤ r.wordB ∨ (data ∧ (r.wordB = 0 ∨ 32 < r.wordB)) then some 10
  else if r.rsv11 ≠ 0 then some 11
  else if 1024 < r.count ∨ (data ∧ recDir r ≠ 0 ∧ r.data.length < r.count) then some 12
  else if r.rsv14 ≠ 0 then some 14
  else if recTotal r = 0 then some 0
  else if recReads r ∧ resAddr = 0 then some 24
  else if recReads r ∧ sel.half = 1 ∧ sel.ret ≠ 2 then some 9
  else none

/-- The tick of the last SCK edge of a frame of `n` cycles (11 Table 11-3). -/
def Frame.lastEdge (f : Frame) (n : Nat) : Tick := f.s + f.cfg.lead + (2 * n - 1) * f.cfg.half

/-- Cycles that a frame drives: all, or those begun when it was aborted (11 R399). -/
def Frame.driven (f : Frame) : Nat :=
  match f.abortAt with
  | none => recTotal f.fr
  | some a =>
    if a < f.s + f.cfg.lead then 0
    else min (recTotal f.fr) ((a - (f.s + f.cfg.lead)) / (2 * max f.cfg.half 1) + 1)

/-- The tick at which its select rises. -/
def Frame.rise (f : Frame) : Tick :=
  match f.abortAt, f.driven with
  | some a, 0 => a + f.cfg.trail
  | _, n => f.lastEdge n + f.cfg.trail

/-- PHASE reached after `n` driven cycles (11 Table 11-4). -/
def Frame.phase (f : Frame) : Nat :=
  let (a, b, c, _) := recCycs f.fr
  let n := f.driven
  if n = recTotal f.fr then 5 else if n = 0 then 0 else if n ≤ a then 1 else if n ≤ a + b then 2 else if n ≤ a + b + c then 3 else 4

/-- Whole words and bits of a partial word of the data phase (11 R400). -/
def Frame.words (f : Frame) : Nat × Nat :=
  let (a, b, c, _) := recCycs f.fr
  let bits := (f.driven - (a + b + c)) * (recPhases f.fr).2.2.2.2
  if f.fr.count = 0 then (0, 0) else (bits / max (f.fr.wordB % 64) 1, bits % max (f.fr.wordB % 64) 1)

/-- SP_FRAME joins the frames that wait for its port (11 R396, R401). -/
def State.queueFrame (h : Hdr) (r : FrameRec) (resAddr : Nat) (fails : Bool) (s : State) : State × Option Reply :=
  if !(s.sps.getD (h.arg / 4) {}).en then (s, some { st := 4 })
  else (s.modSp (h.arg / 4) fun p => { p with wait := p.wait ++ [{ h := h, sel := h.arg % 4, fr := r, resAddr := resAddr, fails := fails }] }, none)

/-- A frame ended before its select falls. -/
def State.dropFrame (n : Nat) (f : Frame) (r : Reply) (s : State) : State :=
  (s.modSp n fun p => { p with wait := p.wait.drop 1 }).reply f.h 0x60 r

/-- The oldest waiting frame begins (11 R395): its deadline, its record and its settings are checked, and the select falls. -/
def State.startFrame (n : Nat) (s : State) : State :=
  let p := s.sps.getD n {}
  match p.cur, p.wait with
  | none, f :: _ =>
    if s.now < p.free || s.dev.grave then s
    else
      let cfg := p.sels.getD f.sel {}
      if s.past f.h then (s.raiseCmd f.h none).dropFrame n f { st := 5 }
      else if !p.en then s.dropFrame n f { st := 4 }
      else if f.fails then s.dropFrame n f { st := 8, rs := 8, ix := 16 }
      else match recBad f.fr cfg f.resAddr with
        | some i => s.dropFrame n f (badField i)
        | none => s.modSp n fun p => { p with wait := p.wait.drop 1, cur := some { f with s := s.now, cfg := cfg } }
  | _, _ => s

/-- The words that reach the result area: whole words, then the bits of one cut short (11 R394, R400). -/
def Frame.results (f : Frame) (ws : List Word) : List Word :=
  let (n, pb) := f.words
  (ws.take n).map (fun w => word (w.toNat % 2 ^ (f.fr.wordB % 64))) ++
    if pb = 0 then [] else [word ((ws.getD n 0).toNat % 2 ^ pb)]

/-- The select rises (11 R397 to R400): result words, then the completion. -/
def State.endFrame (n : Nat) (ws : List Word) (edges : Nat) (s : State) : State :=
  match (s.sps.getD n {}).cur with
  | none => s
  | some f =>
    if s.now < f.rise then s
    else
      let counts := f.cfg.ret = 1 || f.cfg.ret = 2
      let bad := counts && edges ≠ 2 * f.driven
      let (k, pb) := f.words
      let s := s.modSp n fun p => { p with
        cur := none, frames := (p.frames + 1) % 65536, edgeErr := if bad then satInc 0xFFFF p.edgeErr else p.edgeErr,
        free := f.rise + f.cfg.gap, idleHigh := 2 ≤ f.cfg.mode }
      let s := if recReads f.fr && (s.port f.h.port).live && !s.dev.grave then
          s.modPort f.h.port fun P => { P with out := P.out ++ [.words f.resAddr (f.results ws)] } else s
      s.reply f.h 0x60 {
        st := if f.abortAt.isSome then 6 else if bad then 8 else 0,
        pl := payload [(16, 2, k), (18, 1, pb), (19, 1, b2n bad + 2 * b2n f.abortAt.isSome + 16 * f.phase),
          (20, 4, if counts then edges else 0), (24, 4, f.s)] }

/-- SP_ABORT at its arrival (11 R399). -/
def State.abortFrames (n : Nat) (s : State) : State × Option Reply :=
  let p := s.sps.getD n {}
  let hit := match p.cur with | some f => f.abortAt.isNone && s.now ≤ f.lastEdge (recTotal f.fr) | none => false
  let s := s.modSp n fun p => { p with
    wait := [], cur := if hit then p.cur.map fun f => { f with abortAt := some s.now } else p.cur }
  let s := forAll (fun (f : Frame) s => s.reply f.h 0x60 { st := 6, pl := payload [(19, 1, 2)] }) p.wait s
  (s, some (Reply.ok (payload [(16, 1, p.wait.length + b2n hit)])))

/-! ## Pins (11 R385 to R391) -/

/-- SCK edges of a frame that have fallen by `now`, of the cycles that it drives. -/
def Frame.edges (now : Tick) (f : Frame) : Nat :=
  let first := f.s + f.cfg.lead
  if now < first then 0 else min (2 * f.driven) ((now - first) / max f.cfg.half 1 + 1)

/-- The cycle whose bits the pins carry at `now` (11 R387): the first from the select's fall on, and the next from the edge on which
data changes. The last stays until the select rises (log 40). -/
def Frame.cycle (now : Tick) (f : Frame) : Nat :=
  let e := f.edges now
  min (if f.cfg.mode % 2 = 0 then e / 2 else (e - 1) / 2) (f.driven - 1)

/-- Bit `i` of a data phase in the order in which bits go out (11 R390). -/
def Frame.dataBit (i : Nat) (f : Frame) : Bool :=
  let w := max (f.fr.wordB % 64) 1
  let k := i % w
  (f.fr.data.getD (i / w) 0).toNat.testBit (if f.cfg.lsb then k else w - 1 - k)

/-- What pin D`p` carries of bits sent in a group of `l` lanes (11 R389): the highest-numbered pin the most significant. The
other pins of D2 and D3 are high, and D1 is an input beside one lane. -/
def lanePin (p l k : Nat) (lsb : Bool) (f : Nat → Bool) : Option Bool :=
  if p < l then some (f (k * l + if lsb then p else l - 1 - p)) else if 2 ≤ p then some true else none

/-- What the port drives on D`p` in cycle `k` of a frame; none: high impedance (11 R389, R391). -/
def Frame.pin (p k : Nat) (f : Frame) : Option Bool :=
  let r := f.fr
  let (c, a, d, _) := recCycs r
  let (cb, ab, _, db) := recPhases r
  let l := db.2
  if k < c then lanePin p cb.2 k false fun i => r.cmd.testBit (cb.1 - 1 - i)
  else if k < c + a then lanePin p ab.2 (k - c) false fun i => r.addr.testBit (ab.1 - 1 - i)
  else if k < c + a + d then (if p < max 2 (if r.count = 0 then 0 else l) then none else some true)
  else if recDir r ≠ 0 then lanePin p l (k - (c + a + d)) f.cfg.lsb fun i => f.dataBit i
  else if l = 1 ∧ p = 0 then some false
  else if p < max 2 l then none
  else some true

/-- The frame whose select is low at `now`. -/
def SPort.frameAt (now : Tick) (p : SPort) : Option Frame := p.cur.filter fun f => now < f.rise

/-- An SCKR edge outside a frame, while no select is low (11 R385; log 40). -/
def State.strayEdge (n : Nat) (s : State) : State :=
  s.modSp n fun p => if (p.frameAt s.now).isNone then { p with stray := satInc 0xFFFF p.stray } else p

/-- The level on CS`m`: low only for the select of a frame (11 R385). -/
def SPort.csPin (m : Nat) (now : Tick) (p : SPort) : Bool :=
  match p.frameAt now with | some f => f.sel ≠ m | none => true

/-- The level on SCK (11 R385, R387). -/
def SPort.sckPin (now : Tick) (p : SPort) : Bool :=
  match p.frameAt now with
  | some f => decide (2 ≤ f.cfg.mode) != decide (f.edges now % 2 = 1)
  | none => p.idleHigh

/-- What the port drives on D`k`; none: high impedance (11 R385, R389, R391). -/
def SPort.dPin (k : Nat) (now : Tick) (p : SPort) : Option Bool :=
  match p.frameAt now with
  | some f => f.pin k (f.cycle now)
  | none => none

end Sys2Proof.Machine
end

