-- ==== Sys2Proof/Machine/Regs.lean ====
section
/-!
DEFINITION. The register catalogue as it reads (14 R439 to R452; 01 Tables 1-5, 1-6, 1-13; 02 Tables 2-2 to 2-5; 03 Tables
3-1, 3-9; 04 Table 4-22; 05 Tables 5-7 to 5-9; 06 Tables 6-6 to 6-8; 07 Table 7-3; 08 Tables 8-1 to 8-6, 8-11 to 8-13, 8-16;
09 Tables 9-1, 9-2, 9-10, 9-16; 10 Table 10-10; 11 Table 11-6; 12 Table 12-7).
-/
namespace Sys2Proof.Machine

/-! ## The map (14 Tables 14-1, 14-2) -/

/-- Catalogue blocks: first start, length, stride, instances. -/
def blockRows : List (Nat × Nat × Nat × Nat) := [
  (0x00000, 0x100, 1, 1), (0x00100, 0x40, 1, 1), (0x00140, 0xC0, 1, 1), (0x00200, 0x100, 1, 1), (0x00300, 0x100, 1, 1),
  (0x00400, 0x100, 1, 1), (0x00500, 0x100, 1, 1), (0x00600, 0x100, 1, 1), (0x04000, 0x800, 0x800, 16),
  (0x10000, 0x500, 0x8000, 2), (0x20000, 0x200, 0x4000, 16), (0x20400, 0x100, 0x4000, 16), (0x20500, 0x100, 0x4000, 16),
  (0x20600, 0x100, 0x4000, 16), (0x20800, 0x200, 0x4000, 16), (0x21000, 0x800, 0x4000, 16), (0x22000, 0x400, 0x4000, 16),
  (0x22400, 0x200, 0x4000, 16), (0x23C00, 0x100, 0x4000, 16), (0x60000, 0x100, 1, 1), (0x60100, 0x100, 1, 1),
  (0x60200, 0x100, 1, 1), (0x60300, 0x100, 1, 1), (0x60400, 0x100, 1, 1), (0x60800, 0x800, 1, 1), (0x61000, 0x400, 1, 1),
  (0x62000, 0x200, 0x200, 55), (0x69000, 0x400, 1, 1), (0x70000, 0x100, 0x100, 16)]

/-- The block of a row that holds address `a`: its start and its end. -/
def inRow (a : Nat) (r : Nat × Nat × Nat × Nat) : Option (Nat × Nat) :=
  let (b, len, stride, n) := r
  let k := if n = 1 then 0 else (a - b) / stride
  let s := b + k * stride
  if b ≤ a ∧ k < n ∧ a < s + len then some (s, s + len) else none

/-- The catalogue block that holds address `a` (14 R440); none for a reserved address. -/
def blockOf (a : Nat) : Option (Nat × Nat) := blockRows.findSome? (inRow a)

/-- The address lies in the other port's area (07 R256). -/
def otherPort (p : PortId) (a : Nat) : Bool :=
  match p with
  | .ha => 0x18000 ≤ a && a < 0x18500
  | .hb => 0x10000 ≤ a && a < 0x10500

/-- An entry of a fault block that Table 9-5 lists (09). -/
def srcUsed (k i : Nat) : Bool := (srcDefault k i).isSome

/-- A tile register with an RWL field (14 R442): CH_MODE, CH_CFG and CH_DIAG count in every mode. -/
def tileRwl (o : Nat) : Bool :=
  if o < 0x200 then o % 16 ≠ 12
  else if o < 0x500 then o = 0x404 || o = 0x408 || o = 0x410
  else if o < 0x600 then o = 0x50C || (0x520 ≤ o && o < 0x5A0 && o % 0x20 < 0x14)
  else if o < 0x700 then true
  else if o < 0xA00 then o = 0x800 || o = 0x80C || (0x840 ≤ o && o < 0x940 && o % 0x20 < 0x14)
  else (0x1000 ≤ o && o < 0x1800) || (0x2000 ≤ o && o < 0x2400)

/-- The register holds an RWL field. -/
def isRwl (a : Nat) : Bool :=
  if a < 0x700 then a = 0x108 || a = 0x10C || a = 0x260 || (0x220 ≤ a && a < 0x260 && a % 16 = 4)
  else if 0x4000 ≤ a && a < 0xC000 then 0x400 ≤ a % 0x800 && a % 0x20 < 0x14
  else if 0x20000 ≤ a && a < 0x60000 then tileRwl (a % 0x4000)
  else if a = 0x604FC then true
  else if 0x62000 ≤ a && a < 0x68E00 then a % 0x20 = 4 && srcUsed ((a - 0x62000) / 0x200) (a / 0x20 % 16)
  else if 0x69000 ≤ a && a < 0x69370 then 8 ≤ a % 16
  else if 0x70000 ≤ a && a < 0x71000 then
    let o := a % 0x100
    o = 0 || (0x10 ≤ o && o < 0x30)
  else false

/-! ## Reads -/

/-- A register composed of fields (high bit, low bit, value). -/
def regOf (fs : List (Nat × Nat × Nat)) : Word := word (fs.foldl (fun n f => n + put f.1 f.2.1 f.2.2) 0)

/-- One bit of a register. -/
def flag (i : Nat) (b : Bool) : Nat × Nat × Nat := (i, i, b2n b)

/-- What the hub shows of a fault block: the last copy of a tile whose link is lost (09 R329). -/
def FBlk.seen (b : FBlk) : List Src := b.shown.getD b.srcs

/-- Bit `k` of the mask of blocks with a latched source. -/
def State.latchedBlk (k : Nat) (s : State) : Bool := (s.blk k).seen.any fun x => x.latched

/-- A mask of 32 bits from a property of `i + base`. -/
def mask32 (n base : Nat) (f : Nat → Bool) : Nat := (List.range n).foldl (fun m i => m + b2n (f (base + i)) <<< i) 0

/-- The larger FLOOR of the two records in force (10 R358). -/
def State.floorNow (s : State) : Nat := max s.per.recA.floor s.per.recB.floor

/-- The union of their REVOKED fields (10 R358). -/
def State.revokedNow (s : State) : Nat := s.per.recA.revoked ||| s.per.recB.revoked

/-- STATE of a bank record (10 Table 10-1). -/
def BankSt.code : BankSt → Nat
  | .empty => 0 | .writing => 1 | .verified => 2 | .trial => 3 | .active => 4 | .failed => 5

/-- UPD_STAT.STAGE (10 Table 10-10). -/
def UStage.code : UStage → Nat
  | .idle => 0 | .writing => 1 | .verifying => 2 | .verified => 3 | .activating => 4 | .trial => 5 | .reverting => 6
  | .recovery => 7

/-- START_STAT.PHASE (12 Table 12-7). -/
def Phase.code : Phase → Nat
  | .rom => 0 | .loading => 1 | .settings => 2 | .tiles => 3 | .complete => 4 | .recovery => 5 | .grave => 6 | .test => 7

/-- ENGINE_STATE.STATE (01 Table 1-6). -/
def EngSt.code : EngSt → Nat
  | .bound => 0 | .idle => 1 | .loading => 2 | .receiving => 3 | .retired => 4

/-- TILE_LINK.LIFE (08 Table 8-12). -/
def Life.code : Life → Nat
  | .online => 0 | .offlining => 1 | .offline => 2 | .readmitting => 3

/-- UPD_BANK_A or UPD_BANK_B. -/
def BankRec.word (r : BankRec) : Word :=
  regOf [(31, 29, r.st.code), flag 28 r.nextBoot, (27, 24, r.cause), (15, 0, r.svn)]

/-- The newest settings half (10 R374): its number and itself. -/
def State.newest (s : State) : Option (Nat × SetHalf) :=
  let a := s.per.half0
  let b := s.per.half1
  if a.valid && b.valid then (if a.seq < b.seq then some (1, b) else some (0, a))
  else if a.valid then some (0, a) else if b.valid then some (1, b) else none

/-- Global registers. `p` is the port that reads. -/
def State.readGlobal (p : PortId) (a : Nat) (s : State) : Word :=
  let P := s.port p
  let b := s.tb
  if a < 0x100 then
    if a = 0 then regOf [(31, 16, 0x0512), (15, 8, 1), (7, 0, s.per.revId)]
    else if a = 4 then word s.per.hwType
    else if 8 ≤ a ∧ a < 0x18 then word (s.per.unitId >>> (8 * (a - 8)))
    else if a = 0x20 then regOf [flag 31 s.lockNow.locked, (30, 30, s.lockNow.port.code), (15, 8, s.lockNow.fails)]
    else if a = 0x24 then regOf [(31, 20, P.catDisc), (19, 0, P.catLast)]
    else 0
  else if a = 0x100 then word s.now
  else if a = 0x104 then word P.tbHi
  else if a = 0x108 then regOf [(31, 30, b.mode), flag 29 b.stepEn]
  else if a = 0x10C then word b.period
  else if a = 0x110 then word b.loadLo
  else if a = 0x114 then word b.loadHi
  else if a = 0x118 then regOf [flag 31 b.aligned, flag 30 b.lost, flag 29 b.stepped, flag 28 b.refused,
    (15, 0, toField 16 b.offset)]
  else if a = 0x120 then word s.merge.horizon
  else if a = 0x140 then regOf [(31, 16, s.budget .ha), (15, 0, s.budget .hb)]
  else if a = 0x200 then
    let why := s.aliveWhy
    regOf [flag 31 s.net, flag 30 (!s.dev.fsafe), flag 29 s.dev.fsafeSeen, flag 28 s.dev.grave, flag 27 s.dev.gravePrev,
      flag 26 (decide (why = 0)), (25, 23, why), flag 2 (!s.dev.fsafe),
      flag 1 (s.blks.any fun k => k.srcs.any fun x => x.latched && x.clsNow = 3), flag 0 s.dev.grave]
  else if a = 0x204 then word (mask32 32 0 fun k => s.latchedBlk k)
  else if a = 0x208 then word (mask32 23 32 fun k => s.latchedBlk k)
  else if 0x220 ≤ a ∧ a < 0x260 then
    let A := s.arch.getD ((a - 0x220) / 16) {}
    match a / 4 % 4 with
    | 0 => word A.next
    | 1 => word A.limit
    | 2 => word A.coal
    | _ => word A.lost
  else if a = 0x260 then word s.archKind
  else if a = 0x264 then regOf [flag 31 s.per.plog.ready, (30, 16, sat 0x7FFF s.per.plog.torn), (15, 0, s.per.plog.skipped)]
  else if a = 0x268 then word s.per.plog.next0
  else if a = 0x26C then word s.per.plog.next1
  else if a = 0x270 then word s.per.plog.boots
  else if a = 0x300 then
    let u := s.upd
    regOf [(31, 29, u.stage.code), (28, 28, u.runBank), flag 27 u.session.isSome,
      (26, 26, match u.session with | some q => q.code | none => 0), flag 25 u.liveTrial, (24, 20, u.rotated),
      (19, 16, u.lastOutcome), (15, 8, u.lastCheck)]
  else if a = 0x304 then s.per.recA.word
  else if a = 0x308 then s.per.recB.word
  else if a = 0x30C then word s.per.recA.version
  else if a = 0x310 then word s.per.recB.version
  else if a = 0x314 then regOf [(19, 16, s.revokedNow), (15, 0, s.floorNow)]
  else if a = 0x318 then regOf [(16, 0, match s.upd.trialEnd with | some e => ceilDiv (e - s.now) sec | none => 0)]
  else if a = 0x31C then
    let (i, h) := s.newest.getD (0, {})
    regOf [flag 31 s.per.half0.valid, flag 30 s.per.half1.valid, (29, 29, i), flag 28 s.upd.savePend, (23, 16, h.fmt),
      (15, 0, h.seq)]
  else if 0x400 ≤ a ∧ a < 0x500 then
    let L := s.lines.getD ((a - 0x400) / 4) {}
    regOf [flag 31 L.state, flag 30 L.stale, flag 29 L.driven, (28, 25, L.tile), (24, 19, L.rule)]
  else if a = 0x500 then
    let bits (hi : Nat) (xs : List Bool) := xs.zipIdx.map fun x => flag (hi - x.2) x.1
    regOf (bits 31 s.sup.ok ++ [flag 26 s.sup.vio33] ++ bits 20 s.sup.seen ++ [(15, 0, s.sup.viso)])
  else if a = 0x504 then regOf [(31, 29, s.start.phase.code), (28, 26, s.start.cause), (25, 24, s.start.setSrc),
    (23, 16, s.start.refused), (15, 0, s.start.doneMs)]
  else if a = 0x508 then regOf [flag 31 s.therm.hot, flag 30 s.therm.hotSeen, (15, 0, toField 16 s.therm.tj)]
  else if a = 0x50C then regOf [flag 31 s.per.ka.fallow, flag 30 s.per.ka.vkaLost, (15, 0, s.per.ka.wakeCnt)]
  else if 0x600 ≤ a ∧ a < 0x700 then s.per.ka.ret.getD ((a - 0x600) / 4) 0
  else 0

/-- Pipeline registers (06 Tables 6-6, 6-7). -/
def State.readPipe (i o : Nat) (s : State) : Word :=
  let P := s.pipe i
  if o = 0 then regOf [(31, 16, P.committed), (15, 0, P.demRef)]
  else if o = 4 then regOf [(31, 16, P.memUsed), (15, 0, P.memRef)]
  else if o = 8 then regOf [(31, 28, mask32 4 0 fun k => (P.banks.getD k {}).valid), (27, 24, mask32 4 0 fun k => P.bankUsed k),
    (5, 0, (P.ctxs.filter fun c => c.run).length)]
  else if 0x400 ≤ o then
    let x := P.ctxs.getD ((o - 0x400) / 0x20) {}
    match o / 4 % 8 with
    | 0 => word (x.src.toNat + put 31 31 (b2n x.run))
    | 1 => x.struct
    | 2 => x.res
    | 3 => x.det
    | 4 => x.deliv
    | 5 => regOf [(31, 29, x.adm), flag 28 (x.run && x.r.fade.isSome), (27, 26, x.bankNow), (25, 16, x.ignored), (15, 0, x.gaps)]
    | 6 => word x.delay
    | _ => regOf [(31, 16, x.lset), (15, 0, x.delayHalf)]
  else 0

/-- RING_CFG as it reads (07 Table 7-3). -/
def Ring.cfg (q : Ring) : Word :=
  regOf [flag 31 q.en, (30, 29, q.ty), (28, 25, q.size), (24, 19, q.vec), (18, 13, q.cq), (12, 8, q.block), (7, 0, q.gap)]

/-- Port registers (07 Table 7-3). -/
def State.readPort (q : PortId) (o : Nat) (s : State) : Word :=
  let P := s.port q
  if o = 0 then regOf [flag 31 P.enable, (15, 0, P.dbPoll)]
  else if o = 4 then regOf [flag 31 P.live, flag 30 (s.port q.peer).live, (29, 28, P.speed), (27, 26, P.width), flag 25 P.l1,
    flag 24 P.dbErr, (15, 0, s.downMs q.peer)]
  else if o = 8 then word P.dbLo
  else if o = 0xC then word P.dbHi
  else if o = 0x10 then word P.subSrc
  else if o = 0x14 then word P.subKind
  else if o = 0x18 then word (staged P.staging)
  else if 0x100 ≤ o then
    let r := P.ring ((o - 0x100) / 16)
    match o / 4 % 4 with
    | 0 => word r.baseLo
    | 1 => word r.baseHi
    | 2 => r.cfg
    | _ => regOf [flag 31 r.active, flag 30 r.err, (29, 27, r.errKind), (15, 0, r.lost)]
  else 0

/-- Slot in progress of a sequence. -/
def Tile.slotNow (T : Tile) (n : Nat) : Nat :=
  let u := T.cv
  match (u.jobP.toList ++ u.jobF.toList).findSome? fun j => match j.src with | .seq m k => if m = n then some k else none | .inj _ => none with
  | some k => k
  | none => match (T.seq n).scan with | some x => x.slot | none => 0

/-- The last conversion of an unconfirmed speculative scan of sequence `n` still runs: its end is the scan's (05 R198). -/
def Tile.specEnds (T : Tile) (n : Nat) : Bool :=
  [T.cv.jobP, T.cv.jobF].any fun j => match j with
    | some j => j.ofSeq n && j.drop = some 3
    | none => false

/-- Conversion control, sequences and slots (05 Tables 5-7, 5-8, 5-9). -/
def State.readConv (t o : Nat) (s : State) : Word :=
  let T := s.tile t
  let u := T.cv
  if o = 0x800 then regOf [flag 31 u.refEn, flag 30 u.align, flag 29 u.calAuto, (23, 16, u.calDt), (15, 0, u.calPeriod)]
  else if o = 0x804 then regOf [flag 31 u.refReady, flag 30 u.refFault, flag 29 u.refRefused, flag 28 u.cal.busy,
    flag 27 (u.cal.busy && u.cal.excl), flag 26 u.cal.valid, flag 25 u.cal.fail, (19, 16, u.injQ.length),
    (15, 0, toField 16 u.refDev)]
  else if o = 0x808 then regOf [(31, 16, toField 16 u.cal.temp), (15, 0, match u.cal.lastAt with
    | some x => sat 0xFFFF ((s.now - x) / sec)
    | none => 0xFFFF)]
  else if o = 0x80C then regOf [(31, 16, u.injGap), (15, 0, u.injW)]
  else if 0x840 ≤ o ∧ o < 0x940 then
    let n := (o - 0x840) / 0x20
    let q := T.seq n
    match o / 4 % 8 with
    | 0 => word (put 31 31 (b2n q.arm) + put 30 30 (b2n q.active) + put 29 27 q.adm + fld q.cfg 26 0)
    | 1 => word q.period
    | 2 => word q.phase
    | 3 => word q.deadline
    | 4 => word q.specTol
    | 5 => regOf [flag 31 (q.scan.isSome || T.specEnds n), flag 30 q.held.isSome,
        flag 29 (match q.scan with | some x => x.spec.isSome | none => T.specEnds n), (28, 23, T.slotNow n), (15, 0, q.overrun)]
    | 6 => word q.worst
    | _ => word q.scans
  else if 0x1000 ≤ o ∧ o < 0x1800 then (T.seq ((o - 0x1000) / 0x100)).slots.getD (o / 4 % 64) 0
  else 0

/-- RFX_COND as it reads (08 Table 8-1). -/
def Rule.condWord (r : Rule) : Word := word (r.cond.toNat + put 30 30 (b2n r.armed) + put 18 16 r.why)

/-- Reflex rules and status (08 Tables 8-1 to 8-5). -/
def Tile.readRfx (T : Tile) (o : Nat) : Word :=
  if o < 0x2400 then
    let r := T.rules.getD ((o - 0x2000) / 16) {}
    match o / 4 % 4 with
    | 0 => r.condWord
    | 1 => r.qual
    | 2 => r.thr
    | _ => r.act
  else if o < 0x2500 then
    let r := T.rules.getD ((o - 0x2400) / 4) {}
    regOf [(31, 16, r.missed), (15, 0, r.fired)]
  else if o = 0x2500 then word (mask32 32 0 fun i => (T.rules.getD i {}).armed)
  else if o = 0x2504 then word (mask32 32 32 fun i => (T.rules.getD i {}).armed)
  else if o = 0x2508 then word T.rfxLat
  else 0

/-- Tile registers. -/
def State.readTile (p : PortId) (t o : Nat) (s : State) : Word :=
  let T := s.tile t
  let f := T.saf
  if o < 0x200 then
    let c := o / 16
    let ch := T.chan c
    match o / 4 % 4 with
    | 0 => ch.modeWord
    | 1 => ch.cfg
    | 2 => T.diagWord c
    | _ => T.statWord c (s.tnow t)
  else if o = 0x400 then regOf [(31, 29, T.lp.st.code), flag 28 T.lp.lowSeen, flag 27 T.lp.missSeen, flag 26 T.lp.revSeen,
    flag 25 T.lp.highSeen, (15, 0, toField 16 T.lp.volt)]
  else if o = 0x404 then regOf [(23, 16, T.chatN), (15, 0, T.chatW)]
  else if o = 0x408 then regOf [(25, 16, T.tpWidth), (9, 0, T.tpPeriod)]
  else if o = 0x40C then regOf [(31, 16, T.heatRef), (15, 0, T.heat)]
  else if o = 0x410 then regOf [flag 31 f.wd, flag 30 f.wdSeen, (9, 0, f.timeout)]
  else if o = 0x414 then regOf [flag 31 (f.net || f.wd || f.blk || f.off), flag 30 f.net, flag 29 f.wd, flag 28 f.blk, flag 27 f.off]
  else if o = 0x500 then regOf [(31, 16, T.excRef), (15, 0, T.exc)]
  else if o = 0x504 then regOf [flag 31 T.railFault, flag 30 T.railSeen, (27, 16, if T.crSet = 0 then 0 else T.crNow), (15, 12, T.countBy fun c => c.mode.isAo),
    (11, 0, T.crSet)]
  else if o = 0x508 then regOf [(15, 0, toField 16 (roundHalfEven T.cjc 10))]
  else if o = 0x50C then regOf [(15, 0, toField 16 T.cjcFixed)]
  else if 0x520 ≤ o ∧ o < 0x5A0 then
    let m := T.mirs.getD ((o - 0x520) / 0x20) {}
    match o / 4 % 8 with
    | 0 => m.srcLo
    | 1 => m.srcHi
    | 2 => word m.outLo
    | 3 => word m.outHi
    | 4 => word m.pwm
    | _ => 0
  else if 0x600 ≤ o ∧ o < 0x700 then
    let ch := T.chan ((o - 0x600) / 8)
    if o / 4 % 2 = 0 then regOf [(23, 0, toField 24 ch.trimOfs)] else regOf [(23, 0, ch.trimGain)]
  else if o < 0x2000 then s.readConv t o
  else if o < 0x2600 then T.readRfx o
  else
    let v := match p with | .ha => T.vitHa | .hb => T.vitHb
    if o = 0x3C00 then v.sel
    else if o = 0x3C04 then v.stat
    else if o = 0x3C08 then v.val
    else if o = 0x3C0C then v.tsLo
    else if o = 0x3C10 then v.tsHi
    else if o = 0x3C14 then word T.vitDisc
    else 0

/-- ROT_STAT (08 Table 8-11): the rotation under way, or else the first repair. -/
def State.rotWord (s : State) : Word :=
  let r := s.rot
  if r.busy then regOf [flag 31 true, (24, 20, r.tile), (19, 15, r.inEng), (14, 10, r.outEng)]
  else match r.repairs with
    | (t, n, k, _) :: _ => regOf [flag 31 true, flag 30 true, (24, 20, t), (19, 15, k), (14, 10, n)]
    | [] => 0

/-- A job kind that a block reports (08 Table 8-16). -/
def slackKind (k j : Nat) : Bool :=
  if 35 ≤ k ∧ k ≤ 50 then j = 0 || j = 3 || j = 4
  else if 19 ≤ k ∧ k ≤ 34 then j = 1
  else if k ≤ 18 then j = 5
  else if k = 54 then j = 2 || j = 5
  else false

/-- Engines, links, rotation, power and SRAM. -/
def State.readHub (a : Nat) (s : State) : Word :=
  if a < 0x60100 then
    let t := (a - 0x60000) / 4
    let T := s.tile t
    if t < 16 then regOf [flag 31 (T.bound && T.link.life ≠ .offline && T.link.life ≠ .readmitting), flag 30 T.rotating, (4, 0, T.engine)] else 0
  else if a < 0x60200 then
    let n := (a - 0x60100) / 4
    let e := s.engine n
    if n < 18 then regOf [(31, 29, e.st.code), (24, 20, e.tile), (15, 0, e.ver)] else 0
  else if a < 0x60240 then
    let L := (s.tile ((a - 0x60200) / 4)).link
    regOf [(31, 30, L.life.code), (29, 27, L.laneOk), (26, 24, L.laneUse), (19, 16, L.sparings), (15, 0, L.retrans)]
  else if a < 0x60280 then
    let T := s.tile ((a - 0x60240) / 4)
    if T.lost then regOf [(31, 16, T.link.shownEv), (15, 0, T.link.shownRes)]
    else regOf [(31, 16, T.link.dropEv), (15, 0, T.link.dropRes)]
  else if a = 0x60300 then s.rotWord
  else if a = 0x60304 then regOf [(31, 29, s.rot.lastOutcome), (28, 24, s.rot.lastTile), (15, 0, s.rot.lastGap)]
  else if 0x60400 ≤ a ∧ a < 0x604E0 then
    let w := s.pwr.getD ((a - 0x60400) / 4) {}
    regOf [(31, 30, w.st), (29, 20, w.rail), (19, 0, w.draw)]
  else if a = 0x604FC then regOf [flag 31 s.scaleEn, (15, 0, s.pwrUpdate)]
  else if 0x60800 ≤ a ∧ a < 0x60EE0 then
    let k := (a - 0x60800) / 0x20
    let j := a / 4 % 8
    if slackKind k j then word ((s.pwr.getD k {}).slack.getD j 0xFFFFFFFF) else 0xFFFFFFFF#32
  else if 0x61000 ≤ a ∧ a < 0x61400 then
    let b := s.sram.getD ((a - 0x61000) / 4) {}
    regOf [(31, 30, if b.ret then 2 else if b.own < fullRail then 1 else 0), (29, 27, b.spares), flag 26 b.uncorr, (15, 0, b.corrected)]
  else 0

/-- A fault source (09 Table 9-1); unused entries read 0. -/
def State.readSrc (k i j : Nat) (s : State) : Word :=
  let x := (s.blk k).seen.getD i {}
  if !srcUsed k i then 0
  else match j with
    | 0 => regOf [flag 31 x.present, flag 30 x.latched, (29, 27, x.clsNow), flag 26 x.escalated, (20, 16, x.taken), (15, 0, x.count)]
    | 1 => let y := (s.blk k).src i
           regOf [(31, 29, y.cls), (28, 24, y.react)]
    | 2 => word x.first
    | 3 => word (x.first >>> 32)
    | 4 => word x.last
    | 5 => word (x.last >>> 32)
    | 6 => regOf [(31, 16, x.index), (15, 0, x.code)]
    | _ => word x.aux

/-- A fault block's header (09 Table 9-2). -/
def State.readHeader (k j : Nat) (s : State) : Word :=
  let b := s.blk k
  let xs := b.seen
  let latched := xs.filter fun x => x.latched
  if 55 ≤ k then 0
  else match j with
    | 0 => regOf [flag 31 (xs.any fun x => x.present), flag 30 (!latched.isEmpty), (29, 27, latched.foldl (fun m x => max m x.clsNow) 0),
        flag 26 (if b.shown.isSome then b.shownSafe else b.safe), flag 25 b.shown.isSome, (15, 0, presentMask xs)]
    | 1 => word (mask32 16 0 fun i => (xs.getD i {}).latched)
    | 2 => regOf [(13, 8, b.vecHb), (5, 0, b.vecHa)]
    | _ => regOf [(20, 16, b.esc2), (12, 8, b.esc3), (4, 0, b.esc4)]

/-- Serial port registers (11 Table 11-6). -/
def State.readSp (n o : Nat) (s : State) : Word :=
  let p := s.sps.getD n {}
  if o = 0 then regOf [flag 31 p.en]
  else if o = 4 then regOf [flag 31 p.cur.isSome, (27, 24, sat 15 p.wait.length), (15, 0, p.frames)]
  else if o = 8 then regOf [(31, 16, p.edgeErr), (15, 0, p.stray)]
  else if 0x10 ≤ o ∧ o < 0x30 then
    let m := p.sels.getD ((o - 0x10) / 8) {}
    if o / 4 % 2 = 0 then regOf [(31, 30, m.mode), flag 29 m.lsb, (28, 27, m.ret), (25, 16, m.half)]
    else regOf [(31, 24, m.lead), (23, 16, m.trail), (15, 0, m.gap)]
  else 0

/-- The register at a word address, as port `p` reads it; a hole or a reserved address reads 0 (14 R439). -/
def State.readWord (p : PortId) (a : Nat) (s : State) : Word :=
  if (blockOf a).isNone then 0
  else if a < 0x700 then s.readGlobal p a
  else if a < 0xC000 then s.readPipe ((a - 0x4000) / 0x800) (a % 0x800)
  else if a < 0x18000 then s.readPort .ha (a - 0x10000)
  else if a < 0x20000 then s.readPort .hb (a - 0x18000)
  else if a < 0x60000 then s.readTile p ((a - 0x20000) / 0x4000) (a % 0x4000)
  else if a < 0x62000 then s.readHub a
  else if a < 0x69000 then s.readSrc ((a - 0x62000) / 0x200) (a / 0x20 % 16) (a / 4 % 8)
  else if a < 0x70000 then s.readHeader ((a - 0x69000) / 16) (a / 4 % 4)
  else s.readSp ((a - 0x70000) / 0x100) (a % 0x100)

/-- TB_NOW_LO read by a port (02 R52): the high word is latched for it. The model keeps the value returned. -/
def State.latchNow (p : PortId) (s : State) : State :=
  s.modPort p fun P => { P with tbHi := s.now / 2 ^ 32 % 2 ^ 32, tbLo := s.now % 2 ^ 32 }

end Sys2Proof.Machine
end

