-- ==== Sys2Proof/Machine/Pokes.lean ====
section
/-!
DEFINITION. Register writes: what one 32-bit write does at its register, through BAR0 (14 R442) and through CAT_WRITE (14
R450).
-/
namespace Sys2Proof.Machine

/-- What refuses a written word: its status and its ADM code (14 R450). -/
abbrev Refused := Option (Nat × Nat)

/-- The refusal that an ADM code stands for (14 R450). -/
def admRefusal (adm : Nat) : Refused :=
  if adm = 0 then none
  else if adm ≤ 2 then some (9, adm)
  else if adm ≤ 4 then some (1, adm)
  else some (4, adm)

/-! ## Tile: switching, safety and measuring -/

/-- A write to DO_TEST (03 R121): discarded when the account would pass 6,000. -/
def State.doTestWrite (t : Nat) (w : Word) (s : State) : State × Refused :=
  let T := s.tile t
  let T' := { T with tpWidth := clampNat 100 1000 (fld w 25 16), tpPeriod := max 1 (fld w 9 0) }
  if 6000 < T'.heat then (s.modTile t fun T => { T with heatRef := sat 0xFFFF T'.heat }, some (9, 0))
  else (s.modTile t fun T => { T with tpWidth := T'.tpWidth, tpPeriod := T'.tpPeriod }, none)

/-- A write to TRIM_OFS (`reg` 0) or TRIM_GAIN (04 R169, R171). -/
def State.trimWrite (t c reg : Nat) (w : Word) (s : State) : State × Refused :=
  let ch := s.chan t c
  if reg = 0 then
    let ofs := sext 24 (fld w 23 0)
    if ch.ofsOk ofs then (s.trimChange t c ofs ch.trimGain, none) else (s, some (1, 3))
  else
    let g := fld w 23 0
    if gainOk g then (s.trimChange t c ch.trimOfs g, none) else (s, some (1, 3))

/-- A word of a mirror profile (04 Table 4-22). -/
def MirProf.put (j : Nat) (w : Word) (m : MirProf) : MirProf :=
  match j with
  | 0 => { m with srcLo := w }
  | 1 => { m with srcHi := w }
  | 2 => { m with outLo := w.toNat }
  | 3 => { m with outHi := w.toNat }
  | 4 => { m with pwm := clampNat 100 1000000 (fld w 19 0) }
  | _ => m

/-! ## Tile: conversion (05 R184, R185, R189, R212) -/

/-- Something on the tile needs the main reference (05 R185). -/
def Tile.refHeld (T : Tile) : Bool :=
  T.seqs.any (fun q => q.active) || !T.cv.injQ.isEmpty || T.cv.injRunning ≠ 0 || T.cv.cal.busy

/-- A write to CONV_CTRL (05 Table 5-7): one that clears REF_EN is discarded while the reference is held. -/
def State.convCtrl (t : Nat) (w : Word) (s : State) : State × Refused :=
  let u := (s.tile t).cv
  let en := bit w 31
  if u.refEn && !en && (s.tile t).refHeld then
    (s.modCv t fun u => { u with refRefused := true }, some (4, 0))
  else
    let s := s.modCv t fun u => { u with
      refEn := en, align := bit w 30, calAuto := bit w 29, calDt := max 10 (fld w 23 16), calPeriod := fld w 15 0,
      refReady := u.refReady && en, refFault := u.refFault && en,
      badCnt := if en = u.refEn then u.badCnt else 0, goodCnt := if en = u.refEn then u.goodCnt else 0 }
    let s := if u.refEn && !en then s.endPresent (35 + t) 6 else s
    (s.refresh t, none)

/-- A write to INJ_CFG (05 R212): discarded when an armed sequence would fail the test. -/
def State.injCfg (t : Nat) (w : Word) (s : State) : State × Refused :=
  let T := s.tile t
  let gap := max 100 (fld w 31 16)
  let inj := fld w 15 0
  if T.worstAll T.armedSeqs gap inj then
    ((s.modCv t fun u => { u with injGap := gap, injW := inj }).modTile t Tile.setWorst, none)
  else (s, some (9, 0))

/-- Fields of SEQ_CFG whose codes Tables 5-8 and 5-10 refuse. -/
def seqCodesBad (cfg : Word) : Bool :=
  5 ≤ fld cfg 26 24 || fld cfg 23 22 = 3 || 64 < fld cfg 20 14 ||
    ((fld cfg 26 24 = 2 || fld cfg 26 24 = 3) && fld cfg 13 12 = 0)

/-- ADM of a sequence set by a write. -/
def State.seqAdm (t n adm : Nat) (s : State) : State × Refused :=
  (s.modSeq t n fun q => { q with adm := adm }, admRefusal adm)

/-- A write to SEQ_CFG (05 R189). -/
def State.seqCfg (t n : Nat) (w : Word) (s : State) : State × Refused :=
  let q := (s.tile t).seq n
  let cfg := w &&& 0x07FFFFFF#32
  if bit w 31 then
    if q.active && q.arm then (s, none)
    else if q.active then s.seqAdm t n 4
    else
      let (s, adm) := s.armSeq t n cfg
      (s, admRefusal adm)
  else if q.active then (if q.arm then s.disarmSeq t n [] else s, none)
  else if seqCodesBad cfg then s.seqAdm t n 3
  else (s.modSeq t n fun q => { q with cfg := cfg, adm := 0 }, none)

/-- A write to another register of a sequence (05 Table 5-8, R189). -/
def State.seqReg (t n j : Nat) (w : Word) (s : State) : State × Refused :=
  let set (f : Seq → Seq) : State × Refused := (s.modSeq t n fun q => { f q with adm := 0 }, none)
  if 5 ≤ j then (s, none)
  else if ((s.tile t).seq n).active then s.seqAdm t n 4
  else match j with
    | 1 => if 50 ≤ w.toNat ∧ w.toNat ≤ 1000000000 then set fun q => { q with period := w.toNat } else s.seqAdm t n 3
    | 2 => set fun q => { q with phase := w.toNat }
    | 3 => set fun q => { q with deadline := w.toNat }
    | _ => if fld w 15 0 = 0 then s.seqAdm t n 3 else set fun q => { q with specTol := fld w 15 0 }

/-- A write to a slot word: stored as written while its sequence is disarmed (05 R189). -/
def State.slotWrite (t n k : Nat) (w : Word) (s : State) : State × Refused :=
  if ((s.tile t).seq n).active then s.seqAdm t n 4
  else (s.modSeq t n fun q => { q with adm := 0, slots := updAt (fun _ => w &&& 0xFFFFFF80#32) k q.slots }, none)

/-! ## Tile: reflex rules (08 R299, R306) -/

/-- The byte of an RFX_WRITE descriptor that holds a refused code (08 Tables 8-1 to 8-4). -/
def ruleBad (r : Rule) : Option Nat :=
  if r.kind = 7 || (!r.isLineSrc && 31 < r.index) then some 16
  else if r.action = 7 || (r.action = 2 && 24000 < r.value) then some 28
  else none

/-- The rule would be enabled as a second driver of its line, or as a LINE rule with an edge KIND (08 R306). -/
def State.lineClash (t i : Nat) (r : Rule) (s : State) : Bool :=
  r.enable && r.action = 6 &&
    (r.kind ≤ 2 ||
      s.tiles.zipIdx.any fun T => T.1.rules.zipIdx.any fun x =>
        !(T.2 = t && x.2 = i) && x.1.enable && x.1.action = 6 && x.1.line = r.line)

/-- The registers of a rule replaced (08 R303): its truth and arming are judged again from the write; a line that it drove
and no longer names is free. -/
def State.putRule (t i : Nat) (r : Rule) (s : State) : State :=
  let old := (s.tile t).rules.getD i {}
  let s := if old.armed && old.action = 6 && !(r.enable && r.action = 6 && r.line = old.line) then
      s.freeLine t i old.line (s.tnow t) else s
  (s.modTile t fun T => { T with rules := updAt (fun x => { x with
    cond := r.cond, qual := r.qual, thr := r.thr, act := r.act, armed := x.armed && r.enable,
    why := if r.enable then x.why else 1 }) i T.rules }).refresh t

/-- The bits that a rule register holds (08 Tables 8-1 to 8-4). -/
def ruleMask (j : Nat) : Word := [0xBFF80000#32, 0xDFFFFFFF#32, 0x00FFFFFF#32, 0xFFFFFFFF#32].getD j 0

/-- A rule with register `j` (COND, QUAL, THR, ACT) written. -/
def Rule.put (j : Nat) (w : Word) (r : Rule) : Rule :=
  let w := w &&& ruleMask j
  match j with
  | 0 => { r with cond := w }
  | 1 => { r with qual := w }
  | 2 => { r with thr := w }
  | _ => { r with act := w }

/-- A write to a rule register: discarded on a refused code, or under R306. -/
def State.ruleReg (t i j : Nat) (w : Word) (s : State) : State × Refused :=
  let r := ((s.tile t).rules.getD i {}).put j w
  if (ruleBad r).isSome || ((j = 0 || j = 3) && s.lineClash t i r) then (s, some (1, 3)) else (s.putRule t i r, none)

/-! ## Tile: vitrine (02 R47 to R49) -/

/-- An item put in its place by a rank; equal ranks keep their order. -/
def putOldest {α : Type} (f : α → Nat) (x : α) : List α → List α
  | [] => [x]
  | y :: ys => if f x < f y then x :: y :: ys else y :: putOldest f x ys

/-- A list in ascending rank. -/
def oldestFirst {α : Type} (f : α → Nat) (xs : List α) : List α := xs.foldl (fun l x => putOldest f x l) []

/-- The provisional items of a view and channel, oldest first: value, tick, attempt and gain (02 Tables 2-2 to 2-4). Table 2-4
has the kind and value of an event in one word and gives no layout: the model has the kind in bits 31 to 24 and the low 24
payload bits below (log 45). -/
def State.provItems (t c v : Nat) (s : State) : List (Nat × Tick × Nat × Nat) :=
  let T := s.tile t
  let ch := T.chan c
  match v with
  | 0 =>
    (if ch.mode.isLvl && ch.di.pend then [(b2n (ch.di.comp != ch.invert), ch.di.crossAt, 0, 0)] else []) ++
      oldestFirst (fun x => x.2.1) (T.seqs.flatMap fun q => match q.scan with
        | some sc => (sc.held.filter fun r => r.input = c).map fun r =>
            (resultWord false ch.signed r.x, r.ts, r.flags / 256 % 4, r.flags % 16)
        | none => [])
  | 1 => (oldestFirst (fun a => a.order) ch.staged).map fun a => (a.value, a.commit, 0, 0)
  | 2 => T.link.sendQ.filterMap fun x => match x with
    | .ev e => if e.ch = c then some (e.kind <<< 24 + e.payload % 2 ^ 24, e.ts, 0, 0) else none
    | .res _ => none
  | _ => s.txns.flatMap fun x =>
      if x.arrived.contains t && !x.ended.contains t then
        (x.members.filter fun m => m.g = 32 * t + c).map fun m => (m.value, x.c, 0, 0)
      else []

/-- A capture (02 R48): the item at INDEX, or else the latest accessioned item of that view and channel. -/
def State.capture (t : Nat) (w : Word) (s : State) : Vit :=
  let v := fld w 29 28
  let c := fld w 20 16
  let items := s.provItems t c v
  let x := ((s.tile t).chan c).vf.getD v {}
  let prov := items[fld w 3 0]?
  let (val, ts, att, gain) : Nat × Tick × Nat × Nat := match prov, x.accVal with
    | some i, _ => i
    | none, some a => (a.1, a.2, x.attempt, x.gain)
    | none, none => (0, 0, 0, 0)
  { sel := w &&& 0x301F000F#32, done := true, val := word val, tsLo := word ts, tsHi := word (ts >>> 32),
    stat := regOf [flag 31 true, flag 30 prov.isSome, flag 29 (prov.isSome || x.accVal.isSome), (28, 26, x.fate), (25, 24, att),
      (23, 16, gain), (15, 0, sat 0xFFFF items.length)] }

/-- A write to VIT_SEL by port `p` (02 R48, R49): with CAPTURE, a capture. -/
def State.vitSel (p : PortId) (t : Nat) (w : Word) (s : State) : State :=
  let cap := s.capture t w
  let upd (v : Vit) : Vit := if bit w 31 then cap else { v with sel := w &&& 0x301F000F#32 }
  s.modTile t fun T => match p with
    | .ha => { T with vitHa := upd T.vitHa }
    | .hb => { T with vitHb := upd T.vitHb }

/-! ## Every region -/

/-- A write to a register of tile `t`. -/
def State.pokeTile (p : PortId) (t o : Nat) (w : Word) (s : State) : State × Refused :=
  if o < 0x200 then
    let c := o / 16
    let (s, adm) := match o / 4 % 4 with
      | 0 => s.modeWrite t c w
      | 1 => s.cfgWrite t c w
      | 2 => s.diagWrite t c w
      | _ => (s.statWrite t c w, 0)
    (s, admRefusal adm)
  else if o = 0x400 then
    (s.modTile t fun T => { T with lp := { T.lp with
      lowSeen := T.lp.lowSeen && !bit w 28, missSeen := T.lp.missSeen && !bit w 27, revSeen := T.lp.revSeen && !bit w 26,
      highSeen := T.lp.highSeen && !bit w 25 } }, none)
  else if o = 0x404 then
    (s.modTile t fun T => { T with chatN := max 2 (fld w 23 16), chatW := clampNat 10 60000 (fld w 15 0) }, none)
  else if o = 0x408 then s.doTestWrite t w
  else if o = 0x410 then
    (s.modSaf t fun f => { f with timeout := clampNat 1 1000 (fld w 9 0), wdSeen := f.wdSeen && !bit w 30 }, none)
  else if o = 0x504 then (s.modTile t fun T => { T with railSeen := T.railSeen && !bit w 30 }, none)
  else if o = 0x50C then (s.modTile t fun T => { T with cjcFixed := sext 16 (fld w 15 0) }, none)
  else if 0x520 ≤ o ∧ o < 0x5A0 then
    (s.modTile t fun T => { T with mirs := updAt (MirProf.put (o / 4 % 8) w) ((o - 0x520) / 0x20) T.mirs }, none)
  else if 0x600 ≤ o ∧ o < 0x700 then s.trimWrite t ((o - 0x600) / 8) (o / 4 % 2) w
  else if o = 0x800 then s.convCtrl t w
  else if o = 0x804 then
    (s.modCv t fun u => { u with refRefused := u.refRefused && !bit w 29, cal := { u.cal with fail := u.cal.fail && !bit w 25 } }, none)
  else if o = 0x80C then s.injCfg t w
  else if 0x840 ≤ o ∧ o < 0x940 then
    if o % 0x20 = 0 then s.seqCfg t ((o - 0x840) / 0x20) w else s.seqReg t ((o - 0x840) / 0x20) (o / 4 % 8) w
  else if 0x1000 ≤ o ∧ o < 0x1800 then s.slotWrite t ((o - 0x1000) / 0x100) (o / 4 % 64) w
  else if 0x2000 ≤ o ∧ o < 0x2400 then s.ruleReg t ((o - 0x2000) / 16) (o / 4 % 4) w
  else if o = 0x2508 then (if bit w 31 then s.modTile t fun T => { T with rfxLat := 0 } else s, none)
  else if o = 0x3C00 then (s.vitSel p t w, none)
  else (s, none)

/-- A write to ORDER_HORIZON (02 Table 2-5, R63): what it makes due is released at once. -/
def State.horizonWrite (w : Word) (s : State) : State :=
  ({ s with merge := { s.merge with horizon := clampNat 1000 100000 w.toNat } }).releaseHeld

/-- A write to a global register. The reserved SYNC_MODE code 3 is stored and reads back, and acts as off (02 Table 2-5, 00 R7). -/
def State.pokeGlobal (a : Nat) (w : Word) (s : State) : State :=
  let b := s.tb
  if a = 0x108 then
    let m := fld w 31 30
    let start := m = 1 && b.mode ≠ 1
    { s with tb := { b with mode := m, stepEn := bit w 29, edgeSeen := b.edgeSeen && !start, noEdge := b.noEdge && !start,
                            slewLeft := if start then 0 else b.slewLeft,
                            lastEdge := if start then s.now else b.lastEdge } }
  else if a = 0x10C then { s with tb := { b with period := clampNat 100000 100000000 w.toNat } }
  else if a = 0x110 then { s with tb := { b with loadLo := w.toNat } }
  else if a = 0x114 then { s with tb := { b with loadHi := w.toNat } }
  else if a = 0x118 then
    { s with tb := { b with lost := b.lost && !bit w 30, stepped := b.stepped && !bit w 29, refused := b.refused && !bit w 28 } }
  else if a = 0x120 then s.horizonWrite w
  else if a = 0x200 then { s with dev := { s.dev with fsafeSeen := s.dev.fsafeSeen && !bit w 29 } }
  else if 0x220 ≤ a ∧ a < 0x260 then
    let n := (a - 0x220) / 16
    if a % 16 = 4 ∧ n ≠ 0 then { s with arch := updAt (fun A => { A with limit := max 1 (fld w 15 0) }) n s.arch } else s
  else if a = 0x260 then { s with archKind := w.toNat ||| 0x10000 }
  else if a = 0x500 then
    { s with sup := { s.sup with seen := s.sup.seen.zipIdx.map fun x => x.1 && !bit w (20 - x.2) } }
  else if a = 0x508 then { s with therm := { s.therm with hotSeen := s.therm.hotSeen && !bit w 30 } }
  else if 0x600 ≤ a ∧ a < 0x700 then
    { s with per := { s.per with ka := { s.per.ka with ret := updAt (fun _ => w) ((a - 0x600) / 4) s.per.ka.ret } } }
  else s

/-- The bits of context register `j` (06 Table 6-7). -/
def ctxMask (j : Nat) : Word := [0x7FFFC000#32, 0xFFFF8000#32, 0xFFFFFFFF#32, 0xFFF8FFFF#32, 0xFFFFFFFF#32].getD j 0

/-- A context with register `j` written. -/
def Ctx.put (j : Nat) (w : Word) (x : Ctx) : Ctx :=
  let w := w &&& ctxMask j
  match j with
  | 0 => { x with src := w }
  | 1 => { x with struct := w }
  | 2 => { x with res := w }
  | 3 => { x with det := w }
  | _ => { x with deliv := w }

/-- Codes that Table 6-7 and R229 refuse. -/
def Ctx.codesBad (j : Nat) (x : Ctx) : Bool :=
  match j with
  | 1 => 4 < fld x.struct 31 29 || (x.rankN ≠ 0 && x.rankN < fld x.struct 28 25) || 6 < x.hbN ||
      fld x.struct 20 16 = 0 || 16 < fld x.struct 20 16
  | 2 => x.resPeriod < 50 || 1000000000 < x.resPeriod
  | 3 => x.window < 16
  | _ => false

/-- A write to a pipeline register (06 Table 6-7): one to a running context is discarded with ADM 0b100. -/
def State.pokePipe (i o : Nat) (w : Word) (s : State) : State × Refused :=
  let c := (o - 0x400) / 0x20
  let j := o / 4 % 8
  if o < 0x400 ∨ 5 ≤ j then (s, none)
  else
    let x := (s.ctx i c).put j w
    let adm := if x.run then 4 else if x.codesBad j then 3 else 0
    if adm = 0 then (s.modCtx i c fun _ => { x with adm := 0 }, none)
    else (s.modCtx i c fun y => { y with adm := adm }, admRefusal adm)

/-- A write to a register of port `q`'s own area (07 Table 7-3). -/
def State.pokePort (q : PortId) (o : Nat) (w : Word) (s : State) : State :=
  if o = 0 then s.portCtrl q w
  else if o = 8 then s.modPort q fun P => { P with dbLo := w.toNat / 4096 * 4096 }
  else if o = 0xC then s.modPort q fun P => { P with dbHi := w.toNat }
  else if o = 0x10 then s.modPort q fun P => { P with subSrc := fld w 16 0 }
  else if o = 0x14 then s.modPort q fun P => { P with subKind := w.toNat ||| 0x20000 }
  else if 0x100 ≤ o then
    let r := (o - 0x100) / 16
    match o / 4 % 4 with
    | 0 => s.modPort q fun P => P.modRing r fun x => if x.en then x else { x with baseLo := w.toNat / 4096 * 4096 }
    | 1 => s.modPort q fun P => P.modRing r fun x => if x.en then x else { x with baseHi := w.toNat }
    | 2 => if bit w 31 then s.ringEnable q r w else s.ringDisable q r w
    | _ => s
  else s

/-- A write to PWR_CTRL (08 R322): without SCALE_EN every block returns to its full rail. -/
def State.pwrCtrl (w : Word) (s : State) : State :=
  if bit w 31 then { s with scaleEn := true }
  else { s with scaleEn := false, pwr := s.pwr.map fun b => { b with own := fullRail, ret := false },
                sram := s.sram.map fun b => { b with own := fullRail, ret := false } }

/-- A write to FLT_REACT (09 Table 9-1): the class is held to its floor, and unavailable reactions read 0. -/
def State.reactWrite (k i : Nat) (w : Word) (s : State) : State :=
  match srcDefault k i with
  | some (_, lo, _) =>
    let c := fld w 31 29
    s.modSrc k i fun x => { x with cls := max lo (if 5 ≤ c then 4 else c), react := fld w 28 24 &&& reactMask k }
  | none => s

/-- A write to a block header (09 Table 9-2). -/
def State.headerWrite (k j : Nat) (w : Word) (s : State) : State :=
  match j with
  | 2 => s.modBlk k fun b => { b with vecHb := fld w 13 8, vecHa := fld w 5 0 }
  | 3 => s.modBlk k fun b => { b with esc2 := fld w 20 16, esc3 := fld w 12 8, esc4 := fld w 4 0 }
  | _ => s

/-- A write to a serial port register (11 Table 11-6). -/
def State.pokeSp (n o : Nat) (w : Word) (s : State) : State :=
  if o = 0 then s.modSp n fun p => { p with en := bit w 31 }
  else if 0x10 ≤ o ∧ o < 0x30 then
    let m := (o - 0x10) / 8
    s.modSp n fun p => { p with sels := updAt (fun x =>
      if o / 4 % 2 = 0 then
        { x with mode := fld w 31 30, lsb := bit w 29, ret := fld w 28 27, half := max 1 (fld w 25 16) }
      else { x with lead := max 1 (fld w 31 24), trail := max 1 (fld w 23 16), gap := fld w 15 0 }) m p.sels }
  else s

/-- A write of one word at its register, with what refuses it. RO fields and holes ignore it (14 R442, R450). -/
def State.poke (p : PortId) (a : Nat) (w : Word) (s : State) : State × Refused :=
  if (blockOf a).isNone ∨ otherPort p a then (s, none)
  else if a < 0x700 then (s.pokeGlobal a w, none)
  else if a < 0xC000 then s.pokePipe ((a - 0x4000) / 0x800) (a % 0x800) w
  else if a < 0x18000 then (s.pokePort .ha (a - 0x10000) w, none)
  else if a < 0x20000 then (s.pokePort .hb (a - 0x18000) w, none)
  else if a < 0x60000 then s.pokeTile p ((a - 0x20000) / 0x4000) (a % 0x4000) w
  else if 0x61000 ≤ a ∧ a < 0x61400 then
    (s.modSram ((a - 0x61000) / 4) fun b => { b with uncorr := b.uncorr && !bit w 26 }, none)
  else if a < 0x62000 then (if a = 0x604FC then s.pwrCtrl w else s, none)
  else if a < 0x69000 then
    (if a / 4 % 8 = 1 then s.reactWrite ((a - 0x62000) / 0x200) (a / 0x20 % 16) w else s, none)
  else if a < 0x70000 then (s.headerWrite ((a - 0x69000) / 16) (a / 4 % 4) w, none)
  else (s.pokeSp ((a - 0x70000) / 0x100) (a % 0x100) w, none)

/-- A discarded BAR0 write, counted at its port (14 R442, Table 14-3). -/
def State.countDiscard (p : PortId) (a : Nat) (s : State) : State :=
  s.modPort p fun P => { P with catDisc := satInc 0xFFF P.catDisc, catLast := a % 2 ^ 20 }

/-- A BAR0 memory write of `dwords` DWORDs with byte enables `be` (14 R442, 12 R419). -/
def State.barWrite (p : PortId) (a dwords be : Nat) (w : Word) (s : State) : State :=
  if dwords ≠ 1 ∨ be ≠ 15 ∨ (blockOf a).isNone ∨ otherPort p a ∨ (isRwl a ∧ !s.rwl) then s.countDiscard p a
  else (s.poke p a w).1

/-- The words of CAT_READ (14 R449): from the start address up to the end of its block at most. -/
def State.catWords (p : PortId) (a n : Nat) (s : State) : List Word := (List.range n).map fun i => s.readWord p (a + 4 * i)

/-- The operands of a catalogue command are refused (14 R449). -/
def catBad (start count addr : Nat) : Option Nat :=
  if start % 4 ≠ 0 ∨ (blockOf start).isNone then some 16
  else if count = 0 ∨ 1024 < count then some 20
  else if addr % 4 ≠ 0 then some 24
  else none

/-- Words that a catalogue command reaches, and whether its block ends before the count (14 R449, R450). -/
def catReach (start count : Nat) : Nat × Bool :=
  let left := (match blockOf start with | some (_, e) => (e - start) / 4 | none => 0)
  (min count left, left < count)

/-- CAT_READ (14 R449). -/
def State.catRead (h : Hdr) (start count addr : Nat) (s : State) : State × Option Reply :=
  let (n, short) := catReach start count
  let s := if start ≤ 0x100 ∧ 0x100 < start + 4 * n then s.latchNow h.port else s
  let ws := s.catWords h.port start n
  (s.modPort h.port fun P => { P with out := P.out ++ [.words addr ws] },
    some { st := if short then 7 else 0, ix := if short then n else 0, pl := payload [(16, 2, n), (20, 4, start + 4 * n)] })

/-- The words written one by one in address order (14 R450): how many, and what stopped them. -/
def catPut (p : PortId) (a : Nat) : List Word → Nat → State → State × Nat × Refused
  | [], k, s => (s, k, none)
  | w :: ws, k, s =>
    let b := a + 4 * k
    if isRwl b ∧ s.locked then (s, k, some (10, 0))
    else
      match s.poke p b w with
      | (s, none) => catPut p a ws (k + 1) s
      | (s, some r) => (s, k, some r)

/-- CAT_WRITE (14 R450). -/
def State.catWrite (h : Hdr) (start count : Nat) (words : List Word) (s : State) : State × Option Reply :=
  let (n, short) := catReach start count
  let as := (List.range n).map fun i => start + 4 * i
  let pl (k adm : Nat) := payload [(16, 2, k), (18, 1, adm), (20, 4, start + 4 * k)]
  if s.locked && as.any isRwl then (s, some { st := 10, pl := pl 0 0 })
  else if as.any (otherPort h.port) then (s, some { (badField 16) with pl := pl 0 0 })
  else
    match catPut h.port start (words.take n) 0 s with
    | (s, k, none) => (s, some { st := if short then 7 else 0, ix := if short then n else 0, pl := pl k 0 })
    | (s, k, some (st, adm)) => (s, some { st := st, rs := 5, ix := k, pl := pl k adm })

end Sys2Proof.Machine
end

