-- ==== Sys2Proof/Machine/Update.lean ====
section
/-!
DEFINITION. Firmware update and settings: bank records, containers and their checks, deltas, the session, activation,
trial, confirmation and revert, and saves (10 R357 to R376, R380, R382; 01 R27).
-/
namespace Sys2Proof.Machine

/-! ## Banks (10 R357, R358; 01 Table 1-8) -/

/-- Where bank A (0) or B begins in the store die. -/
def bankBase (b : Nat) : Nat := if b = 0 then 0 else 0x300000
/-- Where the Kiln begins. -/
def kilnBase : Nat := 0x600000
/-- Bytes of a bank that an image may take, and of the Kiln. -/
def bankSize : Nat := 3141632
/-- See `bankSize`. -/
def kilnSize : Nat := 0x100000

/-- A bank's record. -/
def State.bankRec (b : Nat) (s : State) : BankRec := if b = 0 then s.per.recA else s.per.recB

/-- A bank's record replaced. -/
def State.modRec (b : Nat) (f : BankRec → BankRec) (s : State) : State :=
  if b = 0 then { s with per := { s.per with recA := f s.per.recA } } else { s with per := { s.per with recB := f s.per.recB } }

/-- The ACTIVE bank with the higher GEN (10 Table 10-1). -/
def State.currentBank (s : State) : Option Nat :=
  let a := s.per.recA
  let b := s.per.recB
  if a.st = .active ∧ b.st = .active then (if a.gen < b.gen then some 1 else some 0)
  else if a.st = .active then some 0 else if b.st = .active then some 1 else none

/-- The bank that downloads go to: the one not running; in recovery the one that is not current, or A (10 R380). -/
def State.standby (s : State) : Nat :=
  if s.start.phase = .recovery then (match s.currentBank with | some b => 1 - b | none => 0) else 1 - s.upd.runBank

/-- The bank in trial. -/
def State.trialBank (s : State) : Option Nat :=
  if s.per.recA.st = .trial then some 0 else if s.per.recB.st = .trial then some 1 else none

/-- Bytes of the store. -/
def State.store (a n : Nat) (s : State) : List Byte := Memory.readRun s.per.cells a n

/-- A little-endian field of the store. -/
def State.storeNat (a n : Nat) (s : State) : Nat := leNat (s.store a n)

/-- Bytes written to the store. -/
def State.storePut (a : Nat) (bs : List Byte) (s : State) : State :=
  { s with per := { s.per with cells := Memory.writeRun s.per.cells a bs } }

/-- The STORE source of a store read or write that fails (10 Table 10-4 code 11). -/
def State.storeFail (s : State) : State :=
  ({ s with upd := { s.upd with lastCheck := 11 } }).raise 54 7 0 (Config.storeArea 1) 0

/-! ## Containers (10 R359 to R361) -/

/-- A section entry: type, offset, length (10 Table 10-3). -/
abbrev Section := Nat × Nat × Nat

/-- Section entry `i` of the container at `a`, and whether its reserved bytes are 0. -/
def State.sectionAt (a i : Nat) (s : State) : Section × Bool :=
  let e := a + 128 + 16 * i
  ((s.storeNat e 1, s.storeNat (e + 4) 4, s.storeNat (e + 8) 4), s.storeNat (e + 1) 3 = 0 && s.storeNat (e + 12) 4 = 0)

/-- The sections of the container at `a`. -/
def State.imageSections (a : Nat) (s : State) : List Section := (List.range 8).map fun i => (s.sectionAt a i).1

/-- The bytes of the section of type `ty`; none when the container has none. -/
def State.sectionBytes (a ty : Nat) (s : State) : Option (List Byte) :=
  ((s.imageSections a).find? fun x => x.1 = ty).map fun x => s.store (a + x.2.1) x.2.2

/-- Two sections overlap. -/
def overlap (x y : Section) : Bool := x.2.1 < y.2.1 + y.2.2 && y.2.1 < x.2.1 + x.2.2

/-- The pairs of a list. -/
def pairs {α : Type} : List α → List (α × α)
  | [] => []
  | x :: xs => xs.map (fun y => (x, y)) ++ pairs xs

/-- The sections of a full image are as 10 R360 has them. -/
def sectionsOk (len : Nat) (xs : List Section) : Bool :=
  let used := xs.filter fun x => x.1 ≠ 0
  let one (ty : Nat) := (used.filter fun x => x.1 = ty).length
  let top (ty : Nat) : Nat := [0, 65536, 196608, 245760].getD ty 0
  one 1 = 1 && one 2 = 1 && one 3 ≤ 1 &&
    used.all (fun x => x.1 ≤ 3 && x.2.2 ≤ top x.1 && x.2.1 % 64 = 0 && 256 ≤ x.2.1 && x.2.1 + x.2.2 + 64 ≤ len) &&
    (xs.all fun x => x.1 ≠ 0 || (x.2.1 = 0 && x.2.2 = 0)) && (pairs used).all fun p => !overlap p.1 p.2

/-- Check 1 of Table 10-4 passes. `delta` says which kind is asked for. -/
def State.formatOk (a : Nat) (delta : Bool) (s : State) : Bool :=
  let at_ (k n : Nat) := s.storeNat (a + k) n
  let flags := at_ 40 2
  let xs := s.imageSections a
  at_ 0 4 = 0x4D494C56 && at_ 4 2 = 1 && at_ 6 2 = 256 && at_ 57 7 = 0 && flags < 4 && at_ 43 1 < 16 &&
    (List.range 8).all (fun i => (s.sectionAt a i).2) && at_ 18 2 ≤ at_ 16 2 && !(at_ 43 1).testBit (at_ 42 1) &&
    flags.testBit 0 = delta &&
    (if delta then xs.all (fun x => x = (0, 0, 0)) else sectionsOk (at_ 8 4) xs)

/-- Where key slot `n` lies (10 R361). -/
def keySlot (n : Nat) : Nat := 0x7F0100 + 0x40 * n

/-- Checks 1 to 7 of Table 10-4 on the container at `a`: the code of the first that fails, or 0. -/
def State.checkImage (a : Nat) (delta : Bool) (s : State) : Nat :=
  let at_ (k n : Nat) := s.storeNat (a + k) n
  let len := at_ 8 4
  let key := s.store (keySlot (at_ 42 1)) 64
  let unit := at_ 24 16
  if !s.formatOk a delta then 1
  else if len % 64 ≠ 0 ∨ len < 320 ∨ (if delta then kilnSize else bankSize) < len then 2
  else if at_ 20 4 ≠ s.per.hwType then 3
  else if unit ≠ 0 ∧ unit ≠ s.per.unitId then 4
  else if 3 < at_ 42 1 ∨ key.all (fun b => b = 0) ∨ s.revokedNow.testBit (at_ 42 1) then 5
  else if !Config.ecdsaOk (s.store a (len - 64)) (s.store (a + len - 64) 64) key then 6
  else if at_ 16 2 < s.floorNow then 7
  else 0

/-- The completion status of a failed check (10 Table 10-4). -/
def checkStatus (c : Nat) : Nat := [0, 1, 1, 12, 12, 13, 13, 8, 12, 1, 13, 8].getD c 8

/-- The section digests match the record (10 R367, R378). -/
def State.digestsMatch (b : Nat) (s : State) : Bool :=
  let a := bankBase b
  let r := s.bankRec b
  Config.sha256 ((s.sectionBytes a 1).getD []) = r.engDigest && Config.sha256 ((s.sectionBytes a 2).getD []) = r.svDigest

/-! ## Deltas (10 R363) -/

/-- What the instructions of a delta write, from the payload `bs` that ends at the signature block: the output so far
(reversed) and whether it came to a well-formed END. -/
def runDelta (base : List Byte) (target : Nat) : Nat → List Byte → List Byte → List Byte × Bool
  | 0, _, out => (out, false)
  | k + 1, bs, out =>
    let u (i : Nat) := leNat ((bs.drop i).take 4)
    let room (n : Nat) : Bool := n ≠ 0 && out.length + n ≤ target
    match bs with
    | [] => (out, false)
    | op :: _ =>
      let src := u 1
      if op = 0 then (out, out.length = target)
      else if op = 1 then
        if bs.length < 9 || !room (u 5) || base.length < src + u 5 then (out, false)
        else runDelta base target k (bs.drop 9) (((base.drop src).take (u 5)).reverse ++ out)
      else if op = 2 then
        if bs.length < 9 + u 5 || !room (u 5) || base.length < src + u 5 then (out, false)
        else runDelta base target k (bs.drop (9 + u 5))
          ((List.zipWith (fun x y => x + y) ((base.drop src).take (u 5)) ((bs.drop 9).take (u 5))).reverse ++ out)
      else if op = 3 then
        if bs.length < 5 + u 1 || !room (u 1) then (out, false)
        else runDelta base target k (bs.drop (5 + u 1)) (((bs.drop 5).take (u 1)).reverse ++ out)
      else if op = 4 then
        if bs.length < 6 || !room (u 1) then (out, false)
        else runDelta base target k (bs.drop 6) (List.replicate (u 1) (bs.getD 5 0) ++ out)
      else (out, false)

/-! ## The session (10 R364) -/

/-- The session rule lets port `p` act. -/
def State.sessionLets (p : PortId) (s : State) : Bool :=
  match s.upd.session with
  | none => true
  | some q => q = p || (!(s.port p.peer).live && 10 ≤ s.downMs p.peer)

/-- The session is port `p`'s from this command on. -/
def State.openSession (p : PortId) (s : State) : State := { s with upd := { s.upd with session := some p } }

/-- The stage without a download: IDLE, or RECOVERY in recovery. -/
def State.restStage (s : State) : UStage := if s.start.phase = .recovery then .recovery else .idle

/-- STAGE is one of those in which no download or erasure begins. -/
def UStage.busy (u : UStage) : Bool := u = .verifying || u = .activating || u = .trial || u = .reverting

/-- IMAGE_WRITE (10 R365): the first write to the standby bank sets its record to WRITING. -/
def State.imageWrite (h : Hdr) (kiln : Bool) (offset len : Nat) (bytes : List Byte) (fails : Bool) (s : State) :
    State × Option Reply :=
  if s.upd.stage.busy then (s, some { st := 4 })
  else
    let s := s.openSession h.port
    let s := { s with upd := { s.upd with stage := .writing, idleAt := none } }
    let b := s.standby
    let s := if kiln then s else s.modRec b fun r => { r with st := .writing, nextBoot := false }
    if fails then (s.storeFail, some { st := 8 })
    else (s.storePut ((if kiln then kilnBase else bankBase b) + offset) (bytes.take len), some (Reply.ok 0))

/-- The operands of IMAGE_WRITE are out of range (10 Table 10-9). -/
def writeBad (kiln : Bool) (offset len : Nat) (bytes : List Byte) : Option Nat :=
  if offset % 64 ≠ 0 then some 24
  else if len < 64 ∨ 65536 < len ∨ len % 64 ≠ 0 ∨ bytes.length ≠ len then some 28
  else if (if kiln then kilnSize else bankSize) < offset + len then some 24
  else none

/-- Checks of a delta in the Kiln (10 R362, R363): the code of the first that fails, with what was built applied. Nothing is
written past the standby bank (01 R28): an output that would pass it is malformed, as one that would pass TARGET_LEN (log 41). -/
def State.checkDelta (s : State) : State × Nat :=
  let c := s.checkImage kilnBase true
  let b := s.standby
  let base := s.bankRec (1 - b)
  let at_ (k n : Nat) := s.storeNat (kilnBase + k) n
  if c ≠ 0 then (s, c)
  else if s.store (kilnBase + 64) 32 ≠ base.digest ∨ base.st ≠ .active then (s, 8)
  else
    let len := at_ 8 4
    let s := s.modRec b fun r => { r with st := .writing, nextBoot := false }
    let (out, ok) := runDelta (s.store (bankBase (1 - b)) base.len) (min (at_ 44 4) bankSize) len (s.store (kilnBase + 256) (len - 320)) []
    let bytes := out.reverse
    let tgt := s.store (kilnBase + 96) 32
    let s := s.storePut (bankBase b) bytes
    if !ok then (s, 9)
    else if bytes.length ≠ s.storeNat (kilnBase + 44) 4 ∨ Config.sha256 bytes ≠ tgt then (s, 10)
    else (s, s.checkImage (bankBase b) false)

/-- The VERIFIED record of the image now in the standby bank (10 R366). -/
def State.verifiedRec (s : State) : State :=
  let b := s.standby
  let a := bankBase b
  let len := s.storeNat (a + 8) 4
  let eng := Config.sha256 ((s.sectionBytes a 1).getD [])
  let sv := Config.sha256 ((s.sectionBytes a 2).getD [])
  s.modRec b fun r => { r with
    st := .verified, nextBoot := false, version := s.storeNat (a + 12) 4, svn := s.storeNat (a + 16) 2, len := len,
    digest := Config.sha256 (s.store a len), engDigest := eng, svDigest := sv }

/-- IMAGE_VERIFY (10 R362, R366). -/
def State.imageVerify (h : Hdr) (kiln fails : Bool) (s : State) : State × Option Reply :=
  if s.upd.stage.busy then (s, some { st := 4 })
  else
    let s := s.openSession h.port
    let src := if kiln then kilnBase else bankBase s.standby
    let pl (c : Nat) := payload [(16, 1, c), (20, 4, s.storeNat (src + 12) 4), (24, 2, s.storeNat (src + 16) 2),
      (26, 1, s.storeNat (src + 40) 1)]
    let stop (c : Nat) (s : State) : State × Option Reply :=
      ({ s with upd := { s.upd with
          stage := s.restStage, lastCheck := c, idleAt := if s.restStage = .idle then some s.now else none } },
        some { st := checkStatus c, pl := pl c })
    if fails then stop 11 s.storeFail
    else
      let (s, c) := if kiln then s.checkDelta else (s, s.checkImage src false)
      if c ≠ 0 then stop c s
      else
        let s := s.verifiedRec
        ({ s with upd := { s.upd with stage := .verified, lastCheck := 0, idleAt := some s.now } }, some (Reply.ok (pl 0)))

/-- IMAGE_ERASE (10 Table 10-9): the floor and the revoked keys stay. -/
def State.imageErase (h : Hdr) (s : State) : State × Option Reply :=
  if s.upd.stage = .activating ∨ s.upd.stage = .trial ∨ s.upd.stage = .reverting then (s, some { st := 4 })
  else
    let _ := h
    let s := s.modRec s.standby fun r => { floor := r.floor, revoked := r.revoked }
    ({ s with upd := { s.upd with stage := s.restStage, session := none, idleAt := none } }, some (Reply.ok 0))

/-- 60 s pass after a verify without a write (10 R364). -/
def State.sessionEnd (s : State) : State :=
  match s.upd.idleAt with
  | some x => if x + 60 * sec ≤ s.now then { s with upd := { s.upd with session := none, idleAt := none } } else s
  | none => s

/-! ## Settings (10 R374 to R376) -/

/-- Word addresses of a block row with an RWL field. -/
def rowAddrs (r : Nat × Nat × Nat × Nat) : List Nat :=
  let (b, len, stride, n) := r
  (List.range n).flatMap fun k => ((List.range (len / 4)).map fun i => b + k * stride + 4 * i).filter isRwl

/-- Every register with an RWL field. -/
def rwlAddrs : List Nat := blockRows.flatMap rowAddrs

/-- The newest settings are readable by the image in bank `b` (10 R376). -/
def State.readable (b : Nat) (s : State) : Bool :=
  match s.newest with
  | none => true
  | some (_, x) =>
    let a := bankBase b
    s.storeNat (a + 55) 1 ≤ x.fmt && x.fmt ≤ s.storeNat (a + 56) 1 && Config.settingsAccepted (s.bankRec b).svDigest x.fmt

/-- The configuration in force saved by the image in bank `b` into the half that is not the newest (10 R374). -/
def State.saveSettings (b : Nat) (s : State) : State :=
  let (i, q) := match s.newest with
    | some (i, x) => (1 - i, (x.seq + 1) % 2 ^ 32)
    | none => (0, 1)
  let x : SetHalf := { valid := true, seq := q, fmt := s.storeNat (bankBase b + 54) 1,
                       regs := rwlAddrs.map fun a => (a, s.readWord .ha a), banks := s.pipes.flatMap Pipe.banks }
  let s := if i = 0 then { s with per := { s.per with half0 := x } } else { s with per := { s.per with half1 := x } }
  { s with upd := { s.upd with savePend := false, saveAt := none, fromDefaults := false, loadedFmt := some x.fmt } }

/-- No save is made now (10 R375). -/
def State.saveBarred (s : State) : Bool :=
  let u := s.upd.stage
  u = .activating || u = .trial || u = .reverting || s.start.phase = .recovery

/-- SETTINGS_SAVE (10 R375, R376). -/
def State.settingsSave (h : Hdr) (s : State) : State × Option Reply :=
  if s.saveBarred then (s, some { st := 4 })
  else if s.start.setSrc = 3 then (s, some { st := 11 })
  else
    let s := (s.openSession h.port).saveSettings s.upd.runBank
    (s, some (Reply.ok (payload [(16, 4, match s.newest with | some (_, x) => x.seq | none => 0)])))

/-- A trim save falls due (10 R375). -/
def State.trimSave (s : State) : State :=
  match s.upd.saveAt with
  | some x => if s.upd.savePend && x ≤ s.now && !s.saveBarred && s.start.setSrc ≠ 3 then s.saveSettings s.upd.runBank else s
  | none => s

/-! ## Activation (10 R367 to R370) -/

/-- A range of the header at offset `k` of the image at `a` includes the format `v`. -/
def State.reads (a k v : Nat) (s : State) : Bool := s.storeNat (a + k) 1 ≤ v && v ≤ s.storeNat (a + k + 1) 1

/-- Live mode is possible between two images (10 R368). -/
def State.liveFits (new old : Nat) (s : State) : Bool :=
  let f (k : Nat) := s.reads new (k + 1) (s.storeNat (old + k) 1) && s.reads old (k + 1) (s.storeNat (new + k) 1)
  (s.storeNat (new + 40) 2).testBit 1 && f 48 && f 51

/-- Trial time in seconds (10 R371). -/
def trialTime (secs : Nat) : Nat := if secs = 0 then 600 else secs

/-- The standby bank can be activated: VERIFIED, and STAGE VERIFIED, with no rotation under way (10 R367). -/
def State.canActivate (s : State) : Bool :=
  (s.bankRec s.standby).st = .verified && s.upd.stage = .verified && !s.rot.busy

/-- Depot engines start loading image `b` (10 R369). -/
def State.loadDepot (b : Nat) (s : State) : State :=
  forAll (fun n s => if s.freeEng n && !((s.engine n).st = .idle && (s.engine n).image = some b) &&
      !((s.engine n).st = .loading && (s.engine n).want = some b) then s.loadEng n 31 (some b) else s) engNos s

/-- IMAGE_ACTIVATE in live mode, from A of Table 10-7. -/
def State.activateLive (h : Hdr) (secs : Nat) (s : State) : State × Option Reply :=
  let b := s.standby
  if !s.canActivate || s.tiles.any (fun T => T.link.life ≠ .online) then (s, some { st := 4 })
  else if !s.liveFits (bankBase b) (bankBase s.upd.runBank) then (s, some { st := 1 })
  else if !engNos.any fun n => (s.engine n).usable then (s, some { st := 9 })
  else if !s.digestsMatch b then (s.storeFail, some { st := 8, pl := 11 })
  else
    let s := (s.openSession h.port).modRec b fun r => { r with st := .trial, nextBoot := false }
    let s := { s with upd := { s.upd with
      stage := .activating, act := some h, liveTrial := true, rotated := 0, svDone := false, trialSecs := trialTime secs,
      trialEnd := none, idleAt := none } }
    (s.loadDepot b, none)

/-- The activation ends before the SV switch: the record is VERIFIED again (10 R376). -/
def State.dropActivation (b st : Nat) (s : State) : State :=
  let hs := s.upd.act.toList
  let s := s.modRec b fun r => { r with st := .verified }
  let s := { s with upd := { s.upd with stage := .verified, act := none, liveTrial := false } }
  let s := s.loadDepot s.upd.runBank
  forAll (fun h s => s.reply h 0x82 { st := st, pl := if st = 8 then 11 else 0 }) hs s

/-- A revert ends (10 R371, R373): the session closes, and IMAGE_REVERT completes. -/
def State.endRevert (s : State) : State :=
  let b := 1 - s.upd.runBank
  let hs := s.upd.act.toList
  let s := { s with upd := { s.upd with
    stage := .idle, act := none, liveTrial := false, session := none, trialEnd := none, lastOutcome := (s.bankRec b).cause } }
  forAll (fun h s => s.reply h 0x84 (Reply.ok 0)) hs s

/-- Every tile runs the trial image: TRIAL begins (10 R369). -/
def State.enterTrial (s : State) : State :=
  let hs := s.upd.act.toList
  let n := s.upd.rotated
  let s := { s with upd := { s.upd with stage := .trial, act := none, trialEnd := some (s.now + s.upd.trialSecs * sec) } }
  forAll (fun h s => s.reply h 0x82 (Reply.ok (payload [(16, 1, n)]))) hs s

/-- The image that an activation or revert under way moves every tile onto, once SV lets it. -/
def State.moveTo (s : State) : Option Nat :=
  match s.upd.stage with
  | .activating => if s.upd.svDone then some (1 - s.upd.runBank) else none
  | .reverting => some s.upd.runBank
  | _ => none

/-- The next rotation of a live activation or revert, in ascending tile order, or its end (10 R369, R373). -/
def State.chain (s : State) : State :=
  match s.moveTo with
  | none => s
  | some b =>
    let s := s.loadDepot b
    if s.rot.busy || !s.rot.repairs.isEmpty then s
    else match tileNos.find? fun t =>
        (s.tile t).link.life = .online && (s.tile t).bound && (s.engine (s.tile t).engine).image ≠ some b with
      | some t => s.startRot t b none
      | none =>
        if s.upd.stage = .activating then s.enterTrial
        else if s.upd.svDone then s else s.endRevert

/-- A rotation of the activation or revert under way ended with handover. -/
def State.countRotated (s : State) : State :=
  if s.upd.stage = .activating || s.upd.stage = .reverting then
    { s with upd := { s.upd with rotated := sat 16 (s.upd.rotated + 1) } }
  else s

/-- SV switches to the new supervisor part, or back (10 Table 10-7, R373, R376). -/
def State.svSwitch (ok : Bool) (s : State) : State :=
  let b := 1 - s.upd.runBank
  if s.upd.stage = .activating && !s.upd.svDone then
    if !ok then (s.storeFail).dropActivation b 8
    else if !s.readable b then s.dropActivation b 11
    else { s with upd := { s.upd with svDone := true } }
  else if s.upd.stage = .reverting && s.upd.svDone && !s.rot.busy && s.moveTo.all (fun b => tileNos.all fun t =>
      (s.tile t).link.life ≠ .online || (s.engine (s.tile t).engine).image = some b) then
    { s with upd := { s.upd with svDone := false } }
  else s

/-- A live revert begins (10 R371, R373) with outcome `cause`: an activation still running is abandoned. -/
def State.revertLive (cause : Nat) (h : Option Hdr) (s : State) : State :=
  let b := 1 - s.upd.runBank
  let hs := s.upd.act.toList
  let s := s.modRec b fun r => { r with st := .failed, nextBoot := false, cause := cause }
  let s := { s with upd := { s.upd with stage := .reverting, act := h, rotated := 0, trialEnd := none } }
  let s := forAll (fun h s => s.reply h 0x82 { st := 6 }) hs s
  if s.rot.busy && s.rot.phase ≠ .gap && s.rot.bank = b then s.endRot 3 6 true else s

/-- IMAGE_CONFIRM (10 R372, R375). -/
def State.confirm (fails : Bool) (s : State) : State × Option Reply :=
  match s.upd.stage, s.trialBank with
  | .trial, some b =>
    if fails then (s.storeFail, some { st := 8, pl := 11 })
    else
      let a := bankBase b
      let gen := (max (if s.per.recA.st = .active then s.per.recA.gen else 0) (if s.per.recB.st = .active then s.per.recB.gen else 0) + 1) % 2 ^ 32
      let floor := max s.floorNow (s.storeNat (a + 18) 2)
      let rev := s.storeNat (a + 43) 1 % 16
      let s := s.modRec b fun r => { r with st := .active, nextBoot := false, gen := gen, floor := floor, revoked := r.revoked ||| rev }
      let save := s.upd.savePend || s.upd.fromDefaults || (match s.upd.loadedFmt with
        | some f => f ≠ s.storeNat (a + 54) 1
        | none => false)
      let s := { s with upd := { s.upd with
        stage := .idle, runBank := b, liveTrial := false, session := none, trialEnd := none, lastOutcome := 1, svDone := false } }
      (if save then s.saveSettings b else s, some (Reply.ok 0))
  | _, _ => (s, some { st := 4 })

end Sys2Proof.Machine
end

