-- ==== Sys2Proof/Machine/Startup.lean ====
section
/-!
DEFINITION. Resets, bank selection, the restore of settings, Fallow, and the parts of the update that restart the device
(10 R370 to R381; 12 R406 to R426).
-/
namespace Sys2Proof.Machine

/-! ## Resets (12 R409 to R411, Table 12-3) -/

/-- CAUSE of a CHIP restart (12 Table 12-7). -/
def causeChip : Nat := 2

/-- What a restart leaves: the store die, the keep-alive domain, the grave hold, the level of the FSAFE_N pin, and what an
update asks of the next start-up. Everything else is as after a device reset, with the queue of commands. -/
def State.restart (pw : Power) (cause : Nat) (s : State) : State :=
  { State.reset with
    pending := s.pending, power := pw,
    ha := { out := s.ha.out }, hb := { out := s.hb.out },
    dev := { fsafe := s.dev.fsafe, grave := s.dev.grave, gravePrev := s.dev.gravePrev },
    sup := { ok := s.sup.ok, viso := s.sup.viso },
    upd := { lastOutcome := s.upd.lastOutcome, trialSecs := s.upd.trialSecs, defaults := s.upd.defaults },
    start := { wantRecovery := s.start.wantRecovery },
    per := { s.per with
      nextCause := cause, plog := { s.per.plog with queue := [], ready := false, failed := false, skipped := 0, torn := 0 } } }

/-- The device restarts by itself (12 Table 12-3 CHIP): what follows is the start-up from this tick on. -/
def State.chipRestart (s : State) : State := s.restart .running causeChip

/-- PORST_N falls while the device runs (12 R410). -/
def State.porst (s : State) : State := if s.power = .running then s.restart .held 1 else s

/-- The record that the log is writing when VCORE goes, whole or torn (09 R353). -/
def Plog.cut (l : Plog) : Plog :=
  if !l.ready || l.queue.isEmpty then l
  else
    let n := if l.queue.any (fun x => x.1 = 0) then 0 else 1
    let torn := Config.recordTorn l.boots (l.next0 + l.next1)
    let last (rs : List LogRec) : List LogRec := updAt (fun r => { r with torn := torn }) (rs.length - 1) rs
    let l := l.writeOne n
    if n = 0 then { l with s0 := last l.s0 } else { l with s1 := last l.s1 }

/-- VCORE falls below 0.80 V while the device runs (12 R409, Table 12-3). -/
def State.brownOut (s : State) : State :=
  if s.power = .running then ({ s with per := { s.per with plog := s.per.plog.cut } }).restart .held 4 else s

/-- The keep-alive domain's contents are lost (12 R423). -/
def Ka.lose (k : Ka) : Ka := { k with lostNow := true, ret := List.replicate 64 0, wakeCnt := 0, fallow := false }

/-- VCORE rises from below 0.30 V (12 Table 12-3), where it lay for `lowMs`; `vkaOk` says that VKA stayed in range. -/
def State.powerOn (lowMs : Nat) (vkaOk : Bool) (s : State) : State :=
  let cause := if s.power = .fallow ∧ vkaOk then 3 else 0
  let s := s.restart .held cause
  let ka := if vkaOk then s.per.ka else s.per.ka.lose
  { s with
    dev := { s.dev with grave := s.dev.grave && lowMs < 100, gravePrev := false },
    per := { s.per with ka := ka, plog := { s.per.plog with boots := (s.per.plog.boots + 1) % 2 ^ 32 } } }

/-! ## Fallow (12 R423 to R425) -/

/-- VCORE lies below 0.30 V with VKA in range: only the keep-alive domain runs. -/
def State.enterFallow (s : State) : State :=
  if s.power = .fallow then s
  else
    let s := s.restart .fallow 0
    { s with per := { s.per with ka := { s.per.ka with wakeCnt := 0 } } }

/-- VKA falls below 1.60 V; with the other rails off nothing runs any more. -/
def State.loseVka (s : State) : State :=
  { s with power := if s.power = .fallow then .off else s.power,
           sup := { s.sup with ok := updAt (fun _ => false) 4 s.sup.ok, seen := updAt (fun _ => true) 4 s.sup.seen },
           per := { s.per with ka := s.per.ka.lose } }

/-- An accepted rising crossing on WAKE: counted in Fallow, ignored outside it. -/
def State.wake (s : State) : State :=
  if s.power = .fallow then
    { s with per := { s.per with ka := { s.per.ka with wakeCnt := satInc 0xFFFF s.per.ka.wakeCnt } } }
  else s

/-! ## Bank selection (10 R378, R379) -/

/-- Steps 4 and 5 of R378: the bank to boot, with outcome 7 where the current one failed its check. -/
def State.bootActive (s : State) : Option Nat × Bool :=
  let floor := s.floorNow
  let cand := [0, 1].filter fun b => (s.bankRec b).st = .active && floor ≤ (s.bankRec b).svn
  let order := match cand with
    | [a, b] => if (s.bankRec a).gen < (s.bankRec b).gen then [b, a] else [a, b]
    | l => l
  match order with
  | [] => (none, false)
  | b :: rest => if s.digestsMatch b then (some b, false) else (rest.find? fun b => s.digestsMatch b, true)

/-- The boot ROM enters recovery with outcome 8 (10 R378, R379, Table 10-6). -/
def State.enterRecovery (s : State) : State :=
  { s with start := { s.start with phase := .recovery, wantRecovery := false },
           upd := { s.upd with stage := .recovery, lastOutcome := 8, defaults := false, trialSecs := 0 } }

/-- What a bank record makes of STAGE at start-up (10 Table 10-8). -/
def stageOf (r : BankRec) : UStage :=
  match r.st with
  | .writing => .writing | .verified => .verified | .empty | .trial | .active | .failed => .idle

/-- Bank `b` is booted (12 Table 12-4): tile engines hold its image and are bound (01 R20), and start-up goes on to the
tiles. The flag `trial` says that it is in trial. -/
def State.boot (b : Nat) (trial : Bool) (s : State) : State :=
  let ver := s.imageVer b
  { s with
    start := { s.start with phase := .tiles },
    engines := s.engines.map fun e => if e.st = .bound then { e with image := some b, ver := ver } else e,
    upd := { s.upd with
      runBank := b, stage := if trial then .trial else stageOf (s.bankRec (1 - b)),
      trialEnd := if trial then some (s.now + s.upd.trialSecs * sec) else none,
      defaults := s.upd.defaults && trial, trialSecs := if trial then s.upd.trialSecs else 0 } }

/-- A trial image that cannot read the settings gives way at once (10 R376): FAILED with CAUSE 6, and a restart. -/
def State.bootTrial (b : Nat) (s : State) : State :=
  let s := s.modRec b fun r => { r with nextBoot := false }
  if s.dev.grave || s.upd.defaults || s.readable b then s.boot b true
  else
    let s := s.modRec b fun r => { r with st := .failed, cause := 6 }
    ({ s with upd := { s.upd with lastOutcome := 6, defaults := false } }).chipRestart

/-- A trial that a restart ended (10 R378 step 3): its record is FAILED with CAUSE 5. -/
def State.endTrials (s : State) : State :=
  forAll (fun b s =>
    if (s.bankRec b).st = .trial then
      let s := s.modRec b fun r => { r with st := .failed, nextBoot := false, cause := 5 }
      { s with upd := { s.upd with lastOutcome := 5 } }
    else s) [0, 1] s

/-- The boot ROM selects the image (10 R378). -/
def State.selectBank (recov : Bool) (s : State) : State :=
  if recov || s.start.wantRecovery then s.enterRecovery
  else match [0, 1].find? fun b => (s.bankRec b).st = .trial && (s.bankRec b).nextBoot with
    | some b => s.bootTrial b
    | none =>
      let s := s.endTrials
      match s.bootActive with
      | (some b, false) => s.boot b false
      | (some b, true) =>
        (({ s with upd := { s.upd with lastOutcome := 7 } }).raise 54 7 0 (Config.storeArea 0) 0).boot b false
      | (none, _) => s.enterRecovery

/-! ## Start-up (12 R406, R416, R420) -/

/-- The records of the persistent log after a start: torn ones are counted and skipped (09 R353). -/
def Plog.start (l : Plog) : Plog :=
  let bad := (l.s0 ++ l.s1).filter LogRec.torn
  { l with s0 := l.s0.filter (fun r => !r.torn), s1 := l.s1.filter (fun r => !r.torn), torn := bad.length, ready := true }

/-- P of Table 12-4: the count starts at 0, the keep-alive record and GRAVE_PREV are taken. -/
def State.atP (s : State) : State :=
  let cause := s.per.nextCause
  let k := s.per.ka
  let ok := if cause = causeChip then s.sup.ok else [true, true, true, true, true]
  { s with
    power := .running, now := 0, start := { s.start with cause := cause },
    sup := { s.sup with ok := ok },
    dev := { s.dev with gravePrev := s.dev.gravePrev || s.per.plog.graveRec },
    per := { s.per with
      ka := { k with vkaLost := k.lostNow, lostNow := false, fallow := cause = 3 },
      plog := { s.per.plog.start with graveRec := s.per.plog.graveRec && s.dev.grave } } }

/-- The VIO level taken (12 R406), in mV: 1.8 V, 3.3 V, or 3.3 V with SUPPLY when it lies between the two bands. -/
def State.takeVio (mv : Nat) (s : State) : State :=
  let high := 1890 < mv
  let s := { s with sup := { s.sup with vio33 := high, ok := updAt (fun _ => railOk high 2 mv) 2 s.sup.ok } }
  if 1890 < mv ∧ mv < 3135 then s.raise 54 9 0 2 0 else s

/-- FSAFE_N is low when the device starts (12 R420). -/
def State.lowFsafe (s : State) : State :=
  if s.dev.fsafe then s
  else (({ s with dev := { s.dev with fsafeSeen := true } }).raise 54 0 0 0 0).assertNet 54 0

/-- The release of PORST_N, or the CHIP tick, and start-up to the point at which its tiles can be configured (12 R416). -/
def State.startup (chip recovN tmode : Bool) (vioMv : Nat) (s : State) : State :=
  let waits := s.power = .held || (s.power = .running && s.start.phase = .rom)
  if !waits || chip ≠ (s.per.nextCause = causeChip : Bool) then s
  else
    let s := s.atP.takeVio vioMv
    if tmode then { s with start := { s.start with phase := .test } }
    else
      let s := s.lowFsafe.selectBank recovN
      if s.dev.grave then { s with start := { s.start with phase := .grave }, dev := { s.dev with netOn := true } } else s

/-- Power crosses the barrier of tile `t` (12 R413): the tile runs, and hears the safe-state net if it is asserted. -/
def State.tilePower (t : Nat) (s : State) : State :=
  if (s.tile t).powered || s.power ≠ .running || s.start.phase = .complete then s
  else
    let s := s.modTile t fun T => { T with powered := true }
    if s.dev.netOn then s.enterScope t fun f => { f with net := true } else s

/-! ## The restore of settings (10 R374, R376; 12 R417) -/

/-- Which pass of the restore writes a register: 1 a channel's registers, 2 its trim, 3 converter control, 4 what arms a
sequence or enables a rule, 0 anything else. -/
def restorePass (a : Nat) : Nat :=
  if 0x20000 ≤ a ∧ a < 0x60000 then
    let o := a % 0x4000
    if o < 0x200 then 1
    else if 0x600 ≤ o ∧ o < 0x700 then 2
    else if o = 0x800 ∨ o = 0x80C then 3
    else if (0x840 ≤ o ∧ o < 0x940 ∧ o % 0x20 = 0) ∨ (0x2000 ≤ o ∧ o < 0x2400 ∧ o % 16 = 0) then 4
    else 0
  else 0

/-- A record that admission refused (12 Table 12-5). -/
def State.countRefused (s : State) : State := { s with start := { s.start with refused := satInc 255 s.start.refused } }

/-- The records of one pass, each through admission. -/
def State.restorePassOf (k : Nat) (regs : List (Nat × Word)) (s : State) : State :=
  forAll (fun (x : Nat × Word) s =>
    if restorePass x.1 = k then
      match s.poke .ha x.1 x.2 with
      | (s, none) => s
      | (s, some _) => s.countRefused
    else s) regs s

/-- The registers of channel `c`, as one write; `rank` orders the modes that others stand on. -/
def State.restoreChan (rank : Nat) (regs : List (Nat × Word)) (t c : Nat) (s : State) : State :=
  let a := 0x20000 + 0x4000 * t + 16 * c
  match regs.lookup a with
  | none => s
  | some w =>
    match Mode.ofCode (fld w 4 0) with
    | none => if rank = 2 then s.countRefused else s
    | some m =>
      let mine := if m = .dop then 0 else if m = .airtd then 1 else 2
      if mine ≠ rank then s
      else
        let ch := (s.chan t c).asWritten m (fld w 9 8) ((regs.lookup (a + 4)).getD (cfgReset m)) ((regs.lookup (a + 8)).getD (diagReset m))
        let (s, adm) := s.chWrite t c ch true true
        if adm = 0 then s else s.countRefused

/-- Everything a settings body or a DEFAULTS section restores (12 R417). -/
def State.restore (regs : List (Nat × Word)) (banks : List CBank) (s : State) : State :=
  let s := s.restorePassOf 0 regs
  let s := forAll (fun rank s => forAll (fun t s => forAll (fun c s => s.restoreChan rank regs t c) chanNos s) tileNos s) [0, 1, 2] s
  let s := (s.restorePassOf 2 regs).restorePassOf 3 regs
  let s := { s with pipes := mapFrom (fun p (P : Pipe) =>
    { P with banks := mapFrom (fun k (x : CBank) => (banks[4 * p + k]?).getD x) 0 P.banks }) 0 s.pipes }
  let s := forAll (fun t s => if (s.tile t).cv.refEn && !(s.tile t).cv.refReady then s.refRise t else s) tileNos s
  let s := s.restorePassOf 4 regs
  { s with upd := { s.upd with savePend := false, saveAt := none } }

/-- What start-up restores from, with SET_SRC and, of a half, its format (10 R370, R376; 12 Table 12-5). -/
def State.settingsSource (s : State) : Nat × List (Nat × Word) × List CBank × Option Nat :=
  let b := s.upd.runBank
  let dflt : Nat × List (Nat × Word) × List CBank × Option Nat := match s.sectionBytes (bankBase b) 3 with
    | some bs => let (r, k) := Config.defaultSettings bs; (1, r, k.map fun w => { words := w, valid := !w.isEmpty }, none)
    | none => (2, [], [], none)
  if s.upd.defaults then dflt
  else match s.newest with
    | none => dflt
    | some (_, x) => if s.readable b then (0, x.regs, x.banks, some x.fmt) else (3, [], [], none)

/-- The settings are in force and PHASE is COMPLETE (12 Table 12-4, R417); the Depot loads the booted image (08 R314). -/
def State.completeStart (s : State) : State :=
  if s.start.phase ≠ .tiles then s
  else
    let (src, regs, banks, fmt) := s.settingsSource
    let s := s.restore regs banks
    let s := { s with
      start := { s.start with phase := .complete, setSrc := src, doneMs := sat 0xFFFF (s.now / ms) },
      upd := { s.upd with loadedFmt := fmt, fromDefaults := src = 1, defaults := false } }
    let s := forAll (fun t s => (s.modSaf t fun f => { f with wdServed := s.now }).refresh t) tileNos s
    forAll (fun n s => s.loadEng n 31 (some s.upd.runBank)) [16, 17] s

/-! ## Update commands that restart the device (10 R370, R373, R381) -/

/-- IMAGE_ACTIVATE in restart mode (10 R370). -/
def State.activateRestart (h : Hdr) (dflt : Bool) (secs : Nat) (s : State) : State × Option Reply :=
  let b := s.standby
  if !s.canActivate then (s, some { st := 4 })
  else if !s.digestsMatch b then (s.storeFail, some { st := 8, pl := 11 })
  else
    let s := s.modRec b fun r => { r with st := .trial, nextBoot := true }
    let s := { s with upd := { s.upd with defaults := dflt, trialSecs := trialTime secs } }
    ((s.reply h 0x82 (Reply.ok 0)).chipRestart, none)

/-- A revert that restarts the device (10 R373), with its outcome. -/
def State.revertRestart (cause : Nat) (s : State) : State :=
  let b := s.upd.runBank
  let s := s.modRec b fun r => { r with st := .failed, nextBoot := false, cause := cause }
  ({ s with upd := { s.upd with lastOutcome := cause } }).chipRestart

/-- The trial, or the activation under way, ends by `cause` (10 R371, R373): IMAGE_REVERT with its header, expiry or the
retirement of an engine without. -/
def State.revert (cause : Nat) (h : Option Hdr) (s : State) : State :=
  if s.upd.liveTrial then s.revertLive cause h
  else (forAll (fun h s => s.reply h 0x84 (Reply.ok 0)) h.toList s).revertRestart cause

/-- IMAGE_REVERT (10 Table 10-9). -/
def State.imageRevert (h : Hdr) (s : State) : State × Option Reply :=
  if s.upd.stage = .trial ∨ s.upd.stage = .activating then ((s.openSession h.port).revert 2 (some h), none)
  else (s, some { st := 4 })

/-- The trial time runs out (10 R371). -/
def State.trialOver (s : State) : State :=
  match s.upd.stage, s.upd.trialEnd with
  | .trial, some x => if x ≤ s.now then s.revert 3 none else s
  | _, _ => s

/-- IMAGE_RECOVER (10 R381). -/
def State.imageRecover (h : Hdr) (s : State) : State :=
  let s := s.reply h 0x85 (Reply.ok 0)
  ({ s with start := { s.start with wantRecovery := true } }).chipRestart

end Sys2Proof.Machine
end

