-- ==== Sys2Proof/Machine/React.lean ====
section
/-!
DEFINITION. What follows a command within its step: the reactions BLK and CHIP and the retirement of engines (09 Table 9-4,
08 R298), repairs that wait for an engine, and the chain of a live update; and the frame of every command's meaning.
-/
namespace Sys2Proof.Machine

/-- The BLK reaction: the block's safe state and its reset (09 Table 9-4). -/
def State.blockReset (k i : Nat) (s : State) : State :=
  let clear (s : State) := s.modBlk k fun b => { b with safe := false }
  if 19 ≤ k ∧ k ≤ 34 then clear (s.stopWhere (k - 19) 3 fun _ => true)
  else if 35 ≤ k ∧ k ≤ 50 then
    let t := k - 35
    if (s.tile t).link.life = .online && (s.tile t).powered then
      ((s.modBlk k fun b => { b with safe := true }).takeDown t false (s.causeOf k i)).startReadmit t none
    else s
  else if k = 51 then clear (s.resetPort .ha)
  else if k = 52 then clear (s.resetPort .hb)
  else s

/-- An engine that ran the trial image is retired: the trial ends by a revert (10 R371). -/
def State.retireTrial (n : Nat) (s : State) : State :=
  let mine := (s.engine n).image.isSome && (s.engine n).image = s.trialBank && (s.engine n).st ≠ .retired
  let s := s.retire n
  if mine && (s.upd.stage = .trial || s.upd.stage = .activating) then s.revert 4 none else s

/-- The reactions of one occurrence beyond INT and ALV (09 Table 9-4). An NMI of a source that is no engine's only records. -/
def State.react (x : Nat × Nat × Nat) (s : State) : State :=
  if x.2.2.testBit 1 then s.chipRestart
  else if x.1 ≤ 17 then
    let s := s.retireTrial x.1
    if x.2.2.testBit 2 then s.modBlk x.1 fun b => { b with safe := false } else s
  else if x.2.2.testBit 2 then s.blockReset x.1 x.2.1
  else s

/-- Reactions in the order of their occurrences; a reaction may raise another. Each takes one turn of the bound. -/
def State.settleIn : Nat → State → State
  | 0, s => { s with dev := { s.dev with todo := [] } }
  | n + 1, s =>
    match s.dev.todo with
    | [] => s
    | x :: xs => State.settleIn n (State.react x { s with dev := { s.dev with todo := xs } })

/-- Every reaction that a command's occurrences ask for. -/
def State.settle (s : State) : State := s.settleIn 64

/-- What follows within the step of a command: its reactions, a repair that waited for an engine, and the update's chain with its
reactions. -/
def State.finish (s : State) : State :=
  let s := s.settle
  if s.dev.grave then s else s.assignRepairs.chain.settle

/-- A happening at tick `τ`: it acts only while the device runs (12 R409). -/
def State.onTick (τ : Tick) (f : State → State) (s : State) : State :=
  if s.power = .running then (f (s.advance τ)).finish else s

/-- A happening of the supervisor's own at tick `τ`: SV halts in the grave hold (09 R339). -/
def State.onSv (τ : Tick) (f : State → State) (s : State) : State := s.onTick τ fun s => if s.dev.grave then s else f s

/-- A ring command that begins execution (07 R266): judged by what `c` says it needs, and then `act`. -/
def State.onRing (h : Hdr) (op : Nat) (c : State → Cmd) (act : State → State × Option Reply) (s : State) : State :=
  s.onTick h.at_ fun s => s.runCmd h op (c s) act

/-- A BAR0 write that reaches its register at tick `τ` (14 R442). -/
def State.onWrite (τ : Tick) (p : PortId) (a dwords be : Nat) (w : Word) (s : State) : State :=
  s.onTick τ fun s => s.barWrite p a dwords be w

/-- The BAR0 address of word `o` of tile `t` (14 Table 14-2). -/
def tileAddr (t o : Nat) : Nat := 0x20000 + 0x4000 * t + o

/-- An ARG16 beyond the last index of its kind. -/
def argBad (arg size : Nat) : Option Reply := if size ≤ arg then some (badField 2) else none

end Sys2Proof.Machine
end

