-- ==== Sys2Proof/Machine/ChannelCmds.lean ====
section
/-!
DEFINITION. Ring commands that act on channels and rules: modes, output actions, trim, reflex rules (07 Table 7-7; 04 R172;
08 Table 8-7).
-/
namespace Sys2Proof.Machine

/-! ## Mode (03 R82, 04 R122, 07 Table 7-7) -/

/-- The channel as a CH_MODE command asks for it. Without CARRY a change of mode brings the Reset values. -/
def Chan.commanded (ch : Chan) (m : Mode) (par : Nat) (carry : Bool) (cfg diag : Word) : Chan :=
  if carry then ch.asWritten m par cfg diag
  else if m = ch.mode then { ch with par := par }
  else ch.asWritten m par (cfgReset m) (diagReset m)

/-- The channels that a CH_MODE command claims or groups: those of the mode in force and of the one asked for. -/
def State.modeOwns (g mode par : Nat) (carry : Bool) (cfg diag : Word) (s : State) : List (Nat × Nat) :=
  let ch := s.chan (g / 32) (g % 32)
  let n := match Mode.ofCode mode with | some m => max (ch.commanded m par carry cfg diag).groupN ((ch.commanded m par carry cfg diag).claims + 1) | none => 1
  let k := max n (max ch.groupN (ch.claims + 1))
  ((List.range k).filter fun i => g % 32 + i < 32).map fun i => (0, g + i)

/-- CH_MODE on channel `g`. -/
def State.modeCmd (g mode par : Nat) (carry : Bool) (cfg diag : Word) (s : State) : State × Option Reply :=
  let t := g / 32
  let c := g % 32
  let (s, adm) := match Mode.ofCode mode with
    | some m =>
      if 3 ≤ par then (s.modChan t c fun ch => { ch with adm := 3 }, 3)
      else s.chWrite t c ((s.chan t c).commanded m par carry cfg diag) true true
    | none => (s.modChan t c fun ch => { ch with adm := 3 }, 3)
  let pl := payload [(16, 4, (s.readWord .ha (tileAddr t (16 * c))).toNat)]
  (s, some (if adm = 0 then Reply.ok pl else { st := if adm ≤ 2 then 9 else 1, rs := 5, ix := g, pl := pl }))

/-- What a command that changes the setting of channel `g` needs (07 R267, Table 7-7). -/
def trimNeeds (g : Nat) : Cmd := { bad := argBad g 512, own := [(0, g)], tile := some (g / 32), locked := true }

/-- CH_MODE. -/
def execChMode (h : Hdr) (mode par : Nat) (carry : Bool) (cfg diag : Word) (s : State) :
    Host.Outcome State Fault Refusal :=
  .next (s.onRing h 0x10
    (fun s => { trimNeeds h.arg with own := s.modeOwns h.arg mode par carry cfg diag, cmd := some (.chMode h mode par carry cfg diag) })
    (State.modeCmd h.arg mode par carry cfg diag))

/-! ## Output actions (02 R67, R68; 03 R100; 04 R151, R168) -/

/-- An output action on its way to its tile, in fetch order. -/
def State.sendAction (h : Hdr) (kind value commit op : Nat) (s : State) : State :=
  { s with order := s.order + 1,
           transit := s.transit ++ [{ h := h, kind := kind, g := h.arg, value := value, commit := commit, order := s.order, opcode := op }] }

/-- OUT_SET: refused on a DOP channel or with a value above its limit. -/
def State.outSet (h : Hdr) (commit value : Nat) (s : State) : State × Option Reply :=
  let ch := s.chan (h.arg / 32) (h.arg % 32)
  if ch.mode = .dop then (s, some (badField 2))
  else if ch.outMax < value then (s, some (badField 24))
  else (s.sendAction h 0 value commit 0x11, none)

/-- What an output command on channel `g` needs. -/
def outNeeds (g : Nat) : Cmd := { bad := argBad g 512, own := [(0, g)], tile := some (g / 32) }

/-- OUT_SET. -/
def execOutSet (h : Hdr) (commit value : Nat) (s : State) : Host.Outcome State Fault Refusal :=
  .next (s.onRing h 0x11 (fun _ => { outNeeds h.arg with cmd := some (.outSet h commit value) }) (State.outSet h commit value))

/-- MIR_FORCE (04 R168): refused on a DOP channel as every action is. -/
def State.mirForce (h : Hdr) (commit value : Nat) (s : State) : State × Option Reply :=
  if (s.chan (h.arg / 32) (h.arg % 32)).mode = .dop then (s, some (badField 2)) else (s.sendAction h 1 value commit 0x12, none)

/-- MIR_FORCE, FORCE_OFF. -/
def execMirForceOff (h : Hdr) (commit : Nat) (s : State) : Host.Outcome State Fault Refusal :=
  .next (s.onRing h 0x12 (fun _ => { outNeeds h.arg with cmd := some (.mirForceOff h commit) }) (State.mirForce h commit 0))

/-- MIR_FORCE, FORCE_ON. -/
def execMirForceOn (h : Hdr) (commit : Nat) (s : State) : Host.Outcome State Fault Refusal :=
  .next (s.onRing h 0x12 (fun _ => { outNeeds h.arg with cmd := some (.mirForceOn h commit) }) (State.mirForce h commit 1))

/-- MIR_FORCE, RELEASE. -/
def execMirRelease (h : Hdr) (commit : Nat) (s : State) : Host.Outcome State Fault Refusal :=
  .next (s.onRing h 0x12 (fun _ => { outNeeds h.arg with cmd := some (.mirRelease h commit) }) (State.mirForce h commit 2))

/-- OUT_CANCEL (07 Table 7-7). -/
def execOutCancel (h : Hdr) (s : State) : Host.Outcome State Fault Refusal :=
  .next (s.onRing h 0x13 (fun _ => { outNeeds h.arg with cmd := some (.outCancel h) }) fun s =>
    let (s, n) := s.cancelActions h.port h.arg
    (s, some (Reply.ok (payload [(16, 2, n)]))))

/-! ## Trim (04 R172) -/

/-- The completion of a trim command that took effect now. -/
def State.trimReply (t c : Nat) (s : State) : Reply :=
  Reply.ok (payload [(16, 4, toField 32 (s.chan t c).trimOfs), (20, 4, (s.chan t c).trimGain), (24, 4, s.tnow t)])

/-- CH_TRIM SET, and RESET with OFS 0 and GAIN 1: in a mode with trim only (13 Tables 13-1, 13-2). -/
def State.trimSet (g : Nat) (ofs : Int) (gain : Nat) (s : State) : State × Option Reply :=
  let t := g / 32
  let c := g % 32
  if !(s.chan t c).mode.trimmable then (s, some { st := 1 })
  else if !(s.chan t c).ofsOk ofs then (s, some (badField 20))
  else if !gainOk gain then (s, some (badField 24))
  else
    let s := s.trimChange t c ofs gain
    (s, some (s.trimReply t c))

/-- CH_TRIM ZERO or SPAN: on a measuring channel, it waits for the next valid result, for 1 s at most. -/
def State.trimWait (h : Hdr) (span : Bool) (ref : Int) (s : State) : State × Option Reply :=
  let t := h.arg / 32
  let c := h.arg % 32
  if !(s.chan t c).mode.isMeas then (s, some { st := 1 })
  else
    let cap : TrimCap := { h := some h, span := span, ref := ref, till := s.tnow t + sec }
    (s.modChan t c fun ch => { ch with caps := ch.caps ++ [cap] }, none)

/-- CH_TRIM SET. -/
def execChTrimSet (h : Hdr) (ofs gain : Nat) (s : State) : Host.Outcome State Fault Refusal :=
  .next (s.onRing h 0x14 (fun _ => { trimNeeds h.arg with cmd := some (.chTrimSet h ofs gain) }) (State.trimSet h.arg (sext 24 ofs) gain))

/-- CH_TRIM ZERO. -/
def execChTrimZero (h : Hdr) (s : State) : Host.Outcome State Fault Refusal :=
  .next (s.onRing h 0x14 (fun _ => { trimNeeds h.arg with cmd := some (.chTrimZero h) }) (State.trimWait h false 0))

/-- CH_TRIM SPAN: REF is in the channel's code weight, signed where its values are. -/
def execChTrimSpan (h : Hdr) (ref : Nat) (s : State) : Host.Outcome State Fault Refusal :=
  .next (s.onRing h 0x14 (fun _ => { trimNeeds h.arg with cmd := some (.chTrimSpan h ref) }) fun s =>
    s.trimWait h true (if (s.chan (h.arg / 32) (h.arg % 32)).signed then sext 24 ref else ref))

/-- CH_TRIM RESET. -/
def execChTrimReset (h : Hdr) (s : State) : Host.Outcome State Fault Refusal :=
  .next (s.onRing h 0x14 (fun _ => { trimNeeds h.arg with cmd := some (.chTrimReset h) }) (State.trimSet h.arg 0 0x400000))

/-! ## Reflex rules (08 R299, R306, R308) -/

/-- The channel that a rule's command must own: its target, or for LINE its source; a line source of a LINE rule has none. -/
def ruleOwns (t : Nat) (r : Rule) : List (Nat × Nat) :=
  if r.action = 6 then (if r.isLineSrc then [] else [(0, 32 * t + r.index % 32)]) else [(0, 32 * t + r.target)]

/-- The rule that RFX_WRITE carries. -/
def ruleOf (cond qual thr act : Word) : Rule := ((((({} : Rule).put 0 cond).put 1 qual).put 2 thr).put 3 act)

/-- RFX_WRITE. -/
def State.rfxWrite (arg : Nat) (r : Rule) (s : State) : State × Option Reply :=
  let t := arg / 64
  let i := arg % 64
  match ruleBad r with
  | some b => (s, some (badField b))
  | none => if s.lineClash t i r then (s, some { st := 1 }) else (s.putRule t i r, some (Reply.ok 0))

/-- What a command on rule `arg` needs; `r` is the rule it acts with. -/
def ruleNeeds (arg : Nat) (r : Rule) : Cmd :=
  { bad := argBad arg 1024, own := ruleOwns (arg / 64) r, tile := some (arg / 64) }

/-- RFX_WRITE. -/
def execRfxWrite (h : Hdr) (cond qual thr act : Word) (s : State) : Host.Outcome State Fault Refusal :=
  .next (s.onRing h 0x18 (fun _ => { ruleNeeds h.arg (ruleOf cond qual thr act) with
    locked := true, cmd := some (.rfxWrite h cond qual thr act), bad := (argBad h.arg 1024).or ((opsBad 0x18 (payload [(16, 4, cond.toNat), (20, 4, qual.toNat),
      (24, 4, thr.toNat), (28, 4, act.toNat)])).map badField) })
    (State.rfxWrite h.arg (ruleOf cond qual thr act)))

/-- RFX_ENABLE: ENABLE alone is written. -/
def State.rfxEnable (arg : Nat) (en : Bool) (s : State) : State × Option Reply :=
  let t := arg / 64
  let i := arg % 64
  let r := (s.tile t).rules.getD i {}
  let r := { r with cond := if en then r.cond ||| 0x80000000#32 else r.cond &&& 0x7FFFFFFF#32 }
  if s.lineClash t i r then (s, some { st := 1 })
  else
    let s := s.putRule t i r
    let r := (s.tile t).rules.getD i {}
    (s, some (Reply.ok (payload [(16, 1, b2n r.armed + 2 * r.why)])))

/-- RFX_ENABLE. -/
def execRfxEnable (h : Hdr) (en : Bool) (s : State) : Host.Outcome State Fault Refusal :=
  .next (s.onRing h 0x19 (fun s => { ruleNeeds h.arg ((s.tile (h.arg / 64)).rules.getD (h.arg % 64) {}) with cmd := some (.rfxEnable h en) })
    (State.rfxEnable h.arg en))

/-- Armed rules of a tile, bit r. -/
def Tile.armedMask (T : Tile) : Nat := mask32 64 0 fun i => (T.rules.getD i {}).armed

/-- RFX_STATUS. -/
def execRfxStatus (h : Hdr) (s : State) : Host.Outcome State Fault Refusal :=
  .next (s.onRing h 0x1A (fun _ => { bad := argBad h.arg 16, tile := some h.arg, cmd := some (.rfxStatus h) }) fun s =>
    (s, some (Reply.ok (payload [(16, 8, (s.tile h.arg).armedMask), (24, 2, (s.tile h.arg).rfxLat)]))))

end Sys2Proof.Machine
end

