-- ==== Sys2Proof/Machine/InputHaps.lean ====
section
/-!
DEFINITION. Happenings at digital inputs and trim buttons (03 R87 to R96; 04 R172, R173; 10 R375).
-/
namespace Sys2Proof.Machine

/-- A happening inside tile `t`: it acts while the tile is powered and online (08 R320), and finds
the tile at work (R323). -/
def State.onTile (τ : Tick) (t : Nat) (f : State → State) (s : State) : State :=
  s.onTick τ fun s => if (s.tile t).online then f (s.rouse (35 + t)) else s

/-- A happening at the pins and protections of tile `t`: it acts while the tile is powered (12 R414), and
finds it at work. -/
def State.onPower (τ : Tick) (t : Nat) (f : State → State) (s : State) : State :=
  s.onTick τ fun s => if (s.tile t).powered then f (s.rouse (35 + t)) else s

/-! ## Digital inputs -/

/-- INPUT_CROSSING: at a tile out of service it only moves the comparator (log 15). -/
def execInputCrossing (τ : Tick) (t c : Nat) (level : Bool) (s : State) : Host.Outcome State Fault Refusal :=
  .next (s.onPower τ t fun s =>
    if (s.tile t).online then s.crossing t c level
    else if (s.chan t c).mode.isLvl then s.modDi t c fun d => { d with comp := level }
    else s)

/-- SIEVE_ACCESSION. -/
def execSieveAccession (τ : Tick) (t c : Nat) (s : State) : Host.Outcome State Fault Refusal :=
  .next (s.onTile τ t (State.sieveAcc t c))

/-- CHATTER_WINDOW_END. -/
def execChatterWindowEnd (τ : Tick) (t c : Nat) (s : State) : Host.Outcome State Fault Refusal :=
  .next (s.onTile τ t (State.chatWindow t c))

/-- STUCK_TIMEOUT. -/
def execStuckTimeout (τ : Tick) (t c : Nat) (s : State) : Host.Outcome State Fault Refusal :=
  .next (s.onTile τ t (State.stuckCheck t c))

/-- DIC_GATE_END. -/
def execDicGateEnd (τ : Tick) (t c : Nat) (s : State) : Host.Outcome State Fault Refusal :=
  .next (s.onTile τ t (State.gateEnd t c))

/-! ## Trim -/

/-- TRIM_BUTTON_HOLD: `c` is the lower channel of the pair. -/
def execTrimButtonHold (τ : Tick) (t c : Nat) (s : State) : Host.Outcome State Fault Refusal :=
  .next (s.onTile τ t (State.buttonHold t c))

/-- TRIM_BUTTON_STUCK. -/
def execTrimButtonStuck (τ : Tick) (t c : Nat) (s : State) : Host.Outcome State Fault Refusal :=
  .next (s.onTile τ t (State.buttonStuck t c))

/-- Every trim capture of a channel whose time is over ends with NOT_READY (04 R172). -/
def State.captureOver (t c : Nat) (s : State) : State :=
  let now := s.tnow t
  let caps := (s.chan t c).caps
  forAll (fun k s => s.endCapture t c k 4) (caps.filter fun k => k.till ≤ now)
    (s.modChan t c fun ch => { ch with caps := caps.filter fun k => now < k.till })

/-- TRIM_CAPTURE_TIMEOUT. -/
def execTrimCaptureTimeout (τ : Tick) (t c : Nat) (s : State) : Host.Outcome State Fault Refusal :=
  .next (s.onTick τ (State.captureOver t c))

/-- TRIM_SAVE_TIMER. -/
def execTrimSaveTimer (τ : Tick) (s : State) : Host.Outcome State Fault Refusal := .next (s.onSv τ State.trimSave)

end Sys2Proof.Machine
end

