-- ==== Sys2Proof/Machine/ConvertHaps.lean ====
section
/-!
DEFINITION. Happenings at a tile's sequencer and converters (04 R144; 05 R184 to R210).
-/
namespace Sys2Proof.Machine

/-! ## Triggers -/

/-- The next trigger tick of a TIMER sequence after the arm and after the last one that came (05 Table 5-10). -/
def Seq.nextTick (q : Seq) : Tick :=
  let after := max q.armAt q.timer
  if after < q.phase then q.phase else q.phase + ((after - q.phase) / max q.period 1 + 1) * max q.period 1

/-- The next trigger tick of a TIMER sequence has come; one that a step of the timebase skipped comes at the step with its
own tick (02 R56). -/
def State.timerTrigger (t n : Nat) (s : State) : State :=
  let q := (s.tile t).seq n
  let x := q.nextTick
  if q.active && q.arm && q.src = 1 && x ≤ s.tnow t then ((s.modSeq t n fun q => { q with timer := x }).fire t n x).1 else s

/-- SEQ_TIMER_TRIGGER. -/
def execSeqTimerTrigger (τ : Tick) (t n : Nat) (s : State) : Host.Outcome State Fault Refusal :=
  .next (s.onTile τ t (State.timerTrigger t n))

/-- A trigger that waits acts: one that its command carried to a tick now reached (05 R193), or one held for TRIG_MIN or for
a scan that has ended (R194). -/
def State.heldTrigger (t n : Nat) (s : State) : State :=
  let q := (s.tile t).seq n
  match q.future.find? fun x => x.1 ≤ s.tnow t with
  | some x =>
    let s := s.modSeq t n fun q => { q with future := q.future.erase x }
    let (s, k) := s.fire t n x.1
    s.reply x.2 0x32 (Reply.ok (payload [(16, 1, k.getD 0)]))
  | none =>
    match q.held, q.scan with
    | some trig, none =>
      let late := match q.lastTrig with | some x => q.src = 1 || x + q.period ≤ s.tnow t | none => true
      if q.arm && late then (s.startScan t n trig true).modSeq t n fun q => { q with lastTrig := some (s.tnow t) } else s
    | _, _ => s

/-- HELD_TRIGGER_RELEASE. -/
def execHeldTriggerRelease (τ : Tick) (t n : Nat) (s : State) : Host.Outcome State Fault Refusal :=
  .next (s.onTile τ t (State.heldTrigger t n))

/-! ## Speculation and deadlines -/

/-- The predicted tick P has come (05 R197). -/
def State.speculate (t n : Nat) (s : State) : State :=
  let q := (s.tile t).seq n
  match q.hist with
  | [t1, t0] =>
    if 0 < q.specN ∧ q.src ≠ 1 ∧ q.active ∧ q.arm ∧ q.scan = none ∧ q.held = none ∧ !q.since ∧ q.specWait = 0 ∧
        s.tnow t + t0 = 2 * t1 then
      s.modSeq t n fun q => { q with scan := some { trig := s.tnow t, spec := some (s.tnow t) } }
    else s
  | _ => s

/-- SPECULATIVE_SCAN_START. -/
def execSpeculativeScanStart (τ : Tick) (t n : Nat) (s : State) : Host.Outcome State Fault Refusal :=
  .next (s.onTile τ t (State.speculate t n))

/-- P + SPEC_TOL + 1,000 ticks pass without a confirmation (05 R198). -/
def State.specOver (t n : Nat) (s : State) : State :=
  let q := (s.tile t).seq n
  match q.scan with
  | some sc => match sc.spec with
    | some p => if p + q.specTol + 1000 ≤ s.tnow t then (s.cancelSpec t n).settleScan t 9 n else s
    | none => s
  | none => s

/-- SPEC_CONFIRM_TIMEOUT. -/
def execSpecConfirmTimeout (τ : Tick) (t n : Nat) (s : State) : Host.Outcome State Fault Refusal :=
  .next (s.onTile τ t (State.specOver t n))

/-- SCAN_DEADLINE. -/
def execScanDeadline (τ : Tick) (t n : Nat) (s : State) : Host.Outcome State Fault Refusal :=
  .next (s.onTile τ t (State.missScan t n))

/-! ## Slots and conversions -/

/-- The injected conversion at the head of the queue may start on converter `v`, with no calibration step in progress there (05
R192, R208). -/
def Tile.injReady (T : Tile) (v : Nat) (now : Tick) : Option Inj :=
  let u := T.cv
  match u.injQ with
  | [] => none
  | e :: _ =>
    let gap := match u.injLast with | some x => decide (x + u.injGap * us ≤ now) | none => true
    let blocked := u.cal.busy && u.cal.excl && u.cal.before ≤ u.injRunning
    if Slot.conv e.slot = v && (u.job v).isNone && gap && !blocked && !T.stepRuns v now then some e else none

/-- The slot of sequence `n` that is due to start, with its word (05 R191, R197). -/
def Tile.slotReady (T : Tile) (n : Nat) : Option (Nat × Word) :=
  let q := T.seq n
  match q.scan with
  | some sc =>
    let last := if sc.spec.isSome then min q.specN q.len else q.len
    if sc.restart.isNone && sc.slot < last && !T.cv.seqBusy n then some (sc.slot, q.slots.getD sc.slot 0) else none
  | none => none

/-- A slot of sequence `n` starts on its converter, after an injected conversion, a due calibration step and lower sequences
(05 R191, R192). -/
def State.startSlot (t n : Nat) (s : State) : State :=
  let T := s.tile t
  match T.slotReady n with
  | some (k, w) =>
    let v := Slot.conv w
    let lower := (List.range n).any fun m => match T.slotReady m with | some (_, x) => Slot.conv x = v | none => false
    if (T.cv.job v).isSome || (T.injReady v (s.tnow t)).isSome || T.stepDue v (s.tnow t) || lower then s
    else s.startJob t v (.seq n k) (Slot.input w) w (match (T.seq n).scan with | some sc => sc.spec.isSome | none => false)
  | none => s

/-- SLOT_START. -/
def execSlotStart (τ : Tick) (t n : Nat) (s : State) : Host.Outcome State Fault Refusal :=
  .next (s.onTile τ t (State.startSlot t n))

/-- CONVERSION_END. -/
def execConversionEnd (τ : Tick) (t conv : Nat) (x : Sample) (s : State) : Host.Outcome State Fault Refusal :=
  .next (s.onTile τ t (State.convEnd t conv x))

/-- The settle wait of another attempt is over, and it samples now (05 R201). Where V(c) of a 3-wire slot stands and only
V(c + 1) is converted again, the timestamp stays that of V(c) (04 R134). -/
def State.reattempt (t v : Nat) (s : State) : State :=
  match (s.tile t).cv.job v with
  | some j => if j.waiting then s.setJob t v (some { j with
      waiting := false, sampleAt := if j.done1.isSome then j.sampleAt else s.tnow t }) else s
  | none => s

/-- RANGING_REATTEMPT. -/
def execRangingReattempt (τ : Tick) (t conv : Nat) (s : State) : Host.Outcome State Fault Refusal :=
  .next (s.onTile τ t (State.reattempt t conv))

/-- DMD_RESULT. -/
def execDmdResult (τ : Tick) (t : Nat) (d : Demod) (s : State) : Host.Outcome State Fault Refusal :=
  .next (s.onTile τ t (State.dmdEnd t d))

/-! ## Injected conversions -/

/-- A conversion leaves the queue with DEADLINE_MISSED (05 R206). -/
def State.injMissed (t : Nat) (e : Inj) (s : State) : State :=
  let s := s.modCv t (ConvUnit.unqueue fun x => x = e)
  (s.raiseCmd e.h (some (s.tile t).engine)).reply e.h 0x33 { st := 5 }

/-- The injected conversion at the head of the queue starts (05 R192); one whose first sampling instant, where its execution
begins, could not come by its deadline leaves the queue instead (05 R206). -/
def State.startInj (t v : Nat) (s : State) : State :=
  match (s.tile t).injReady v (s.tnow t) with
  | some e =>
    if e.h.deadline ≠ 0 && e.h.deadline + s.tnow t < s.now + (s.tile t).sampleTick e.input e.slot (s.tnow t) then s.injMissed t e
    else (s.modCv t fun u => { u with injQ := u.injQ.drop 1, injLast := some (s.tnow t) }).startJob t v (.inj e) e.input e.slot false
  | none => s

/-- INJECT_START. -/
def execInjectStart (τ : Tick) (t conv : Nat) (s : State) : Host.Outcome State Fault Refusal :=
  .next (s.onTile τ t (State.startInj t conv))

/-- The deadline of a conversion that waits in the queue passes (05 R206). -/
def State.injPast (t : Nat) (p : PortId) (ring cnt : Nat) (s : State) : State :=
  match (s.tile t).cv.injQ.find? fun e => e.h.port = p && e.h.ring = ring && e.h.cnt = cnt with
  | some e =>
    if s.past e.h then s.injMissed t e else s
  | none => s

/-- INJECT_DEADLINE. -/
def execInjectDeadline (τ : Tick) (t : Nat) (p : PortId) (ring cnt : Nat) (s : State) : Host.Outcome State Fault Refusal :=
  .next (s.onTile τ t (State.injPast t p ring cnt))

/-! ## Calibration and the reference -/

/-- CAL_PERIOD minutes have passed since the last calibration (05 R207). -/
def State.calDue (t : Nat) (s : State) : State :=
  let u := (s.tile t).cv
  match u.cal.lastAt with
  | some x => if u.calAuto && u.refReady && u.calPeriod ≠ 0 && x + u.calPeriod * (60 * sec) ≤ s.now then s.calBackground t [] else s
  | none => s

/-- CAL_PERIOD_START. -/
def execCalPeriodStart (τ : Tick) (t : Nat) (s : State) : Host.Outcome State Fault Refusal :=
  .next (s.onTile τ t (State.calDue t))

/-- CAL_STEP. -/
def execCalStep (τ : Tick) (t conv : Nat) (coef : List (Int × Int)) (bad : Bool) (s : State) : Host.Outcome State Fault Refusal :=
  .next (s.onTile τ t (State.calStepOn t conv coef bad))

/-- The main reference has settled within 500 ppm (05 R184). -/
def State.refSettled (t : Nat) (dev : Int) (s : State) : State :=
  let u := (s.tile t).cv
  if u.refEn && !u.refReady && !u.refFault && dev.natAbs ≤ 50 then
    ((s.modCv t fun u => { u with refDev := dev }).refRise t).refresh t
  else s

/-- REF_READY. -/
def execRefReady (τ : Tick) (t : Nat) (dev : Int) (s : State) : Host.Outcome State Fault Refusal :=
  .next (s.onTile τ t (State.refSettled t dev))

/-- REF_COMPARE. -/
def execRefCompare (τ : Tick) (t : Nat) (dev : Int) (s : State) : Host.Outcome State Fault Refusal :=
  .next (s.onTile τ t (State.refCompareAt t dev))

end Sys2Proof.Machine
end

