-- ==== Sys2Proof/Machine/TileCmds.lean ====
section
/-!
DEFINITION. Ring commands that act on sequences, converters and whole tiles (05 R189, R193, R205 to R208; 07 Table 7-7; 08
R309, R320, R321).
-/
namespace Sys2Proof.Machine

/-! ## Sequences -/

/-- What a command on sequence `arg` = 8·t + n needs. -/
def seqNeeds (arg : Nat) : Cmd := { bad := argBad arg 128, own := [(1, arg)], tile := some (arg / 8) }

/-- The completion of an arm refused with an ADM code (05 R189). -/
def armReply (adm : Nat) : Reply := { st := if adm = 2 then 9 else if adm = 5 then 4 else 1 }

/-- SEQ_ARM: with the configuration that the registers hold. -/
def State.armCmd (arg : Nat) (s : State) : State × Option Reply :=
  let t := arg / 8
  let n := arg % 8
  let q := (s.tile t).seq n
  let ok (s : State) : State × Option Reply := (s, some (Reply.ok (payload [(16, 4, ((s.tile t).seq n).worst)])))
  if q.active && q.arm then ok s
  else if q.active then (s, some { st := 4 })
  else
    let (s, adm) := s.armSeq t n q.cfg
    if adm = 0 then ok s else (s, some (armReply adm))

/-- SEQ_ARM. -/
def execSeqArm (h : Hdr) (s : State) : Host.Outcome State Fault Refusal :=
  .next (s.onRing h 0x30 (fun _ => { seqNeeds h.arg with cmd := some (.seqArm h) }) (State.armCmd h.arg))

/-- SEQ_DISARM: it completes when the scan in progress ends. -/
def execSeqDisarm (h : Hdr) (s : State) : Host.Outcome State Fault Refusal :=
  .next (s.onRing h 0x31 (fun _ => { seqNeeds h.arg with cmd := some (.seqDisarm h) }) fun s => (s.disarmSeq (h.arg / 8) (h.arg % 8) [h], none))

/-- A trigger with its command into those that wait, in order of their ticks. -/
def insertFuture (x : Tick × Hdr) : List (Tick × Hdr) → List (Tick × Hdr)
  | [] => [x]
  | y :: ys => if x.1 < y.1 then x :: y :: ys else y :: insertFuture x ys

/-- SEQ_TRIGGER: a carried tick in the future waits for it (05 R193). Up to the tick of the arm no trigger acts (R189): the
sequence is not ready. -/
def State.triggerCmd (h : Hdr) (tick : Nat) (s : State) : State × Option Reply :=
  let t := h.arg / 8
  let n := h.arg % 8
  let q := (s.tile t).seq n
  if !q.active || !q.arm then (s, some { st := 4 })
  else if s.tnow t < tick then (s.modSeq t n fun q => { q with future := insertFuture (tick, h) q.future }, none)
  else if s.tnow t ≤ q.armAt then (s, some { st := 4 })
  else
    let (s, k) := s.fire t n (if tick = 0 then s.tnow t else tick)
    (s, some (Reply.ok (payload [(16, 1, k.getD 0)])))

/-- SEQ_TRIGGER. -/
def execSeqTrigger (h : Hdr) (tick : Nat) (s : State) : Host.Outcome State Fault Refusal :=
  .next (s.onRing h 0x32 (fun _ => { seqNeeds h.arg with cmd := some (.seqTrigger h tick) }) (State.triggerCmd h tick))

/-! ## Injected conversions and calibration -/

/-- Tile and input of an INJECT (07 Table 7-7); none when ARG16 names no such input. -/
def injTarget (arg : Nat) (slot : Word) : Option (Nat × Nat) :=
  if arg < 512 then some (arg / 32, arg % 32)
  else if arg < 528 && 32 ≤ Slot.input slot && Slot.input slot ≤ 43 then some (arg - 512, Slot.input slot)
  else none

/-- What INJECT needs. -/
def injNeeds (arg : Nat) (slot : Word) : Cmd :=
  let bad := (opsBad 0x33 slot.toNat).map badField
  if arg < 512 then { bad := bad, own := [(0, arg)], tile := some (arg / 32) }
  else { bad := if arg < 528 then bad else some (badField 2), tile := some (arg - 512) }

/-- INJECT (05 R205): refused, or accepted into the tile's queue. -/
def State.injectCmd (h : Hdr) (slot : Word) (s : State) : State × Option Reply :=
  let t := if h.arg < 512 then h.arg / 32 else h.arg - 512
  let T := s.tile t
  if !T.cv.refReady then (s, some { st := 4 })
  else match injTarget h.arg slot with
    | none => (s, some (badField 16))
    | some (_, i) =>
      if !T.slotOk i slot then (s, some (badField 16))
      else if T.cv.injW * us < T.slotWorst i slot || 4 ≤ T.cv.injQ.length then (s, some { st := 9 })
      else (s.modCv t fun u => { u with injQ := u.injQ ++ [{ h := h, input := i, slot := slot }] }, none)

/-- INJECT. -/
def execInject (h : Hdr) (slot : Word) (s : State) : Host.Outcome State Fault Refusal :=
  .next (s.onRing h 0x33 (fun _ => { injNeeds h.arg slot with cmd := some (.inject h slot) }) (State.injectCmd h slot))

/-- CALIBRATE without EXCL (05 R207). -/
def State.calibrateCmd (h : Hdr) (s : State) : State × Option Reply :=
  if !(s.tile h.arg).cv.refReady then (s, some { st := 4 }) else (s.calBackground h.arg [h], none)

/-- CALIBRATE without EXCL: a background calibration of both converters. -/
def execCalibrate (h : Hdr) (conv : Nat) (s : State) : Host.Outcome State Fault Refusal :=
  .next (s.onRing h 0x34 (fun _ => { bad := argBad h.arg 16, tile := some h.arg, cmd := some (.calibrate h conv) }) (State.calibrateCmd h))

/-- CALIBRATE with EXCL (05 R208): it abandons a background calibration, and waits for the injected conversions accepted
before it. -/
def State.calibrateExcl (h : Hdr) (conv : Nat) (s : State) : State × Option Reply :=
  let t := h.arg
  let T := s.tile t
  let c := T.cv.cal
  if conv % 4 = 0 then (s, some (badField 16))
  else if !T.cv.refReady || (c.busy && c.excl) then (s, some { st := 4 })
  else if T.armedSeqs.any (fun x => (conv.testBit 0 && x.2.uses 0) || (conv.testBit 1 && x.2.uses 1)) then (s, some { st := 9 })
  else
    let s := forAll (fun g s => s.reply g 0x34 { st := 6 }) c.hdrs s
    (s.modCv t fun u => { u with cal := { u.cal with
      busy := true, excl := true, convs := conv % 4, stepsP := 0, stepsF := 0, dueP := s.tnow t, dueF := s.tnow t, before := u.injQ.length + u.injRunning,
      hdrs := [h], bad := false } }, none)

/-- CALIBRATE with EXCL: it needs the tile's eight sequences. -/
def execCalibrateExcl (h : Hdr) (conv : Nat) (s : State) : Host.Outcome State Fault Refusal :=
  .next (s.onRing h 0x34
    (fun _ => { bad := argBad h.arg 16, own := (List.range 8).map fun n => (1, 8 * h.arg + n), tile := some h.arg, cmd := some (.calibrateExcl h conv) })
    (State.calibrateExcl h conv))

/-! ## Service and rotation -/

/-- The first of `n` channels from `g` on that the other port owns, as NOT_OWNER. -/
def State.peerOwns (p : PortId) (g n : Nat) (s : State) : Option Reply :=
  ((List.range n).find? fun k => s.owner 0 (g + k) = some p.peer).map fun k => { st := 2, rs := 4, ix := g + k }

/-- ARG16 names a tile, and the other port owns none of its channels (08 R309, R320). -/
def State.tileBad (h : Hdr) (s : State) : Option Reply :=
  if 16 ≤ h.arg then some (badField 2) else s.peerOwns h.port (32 * h.arg) 32

/-- TILE_OFFLINE (08 R320): a rotation before its gap gives way. -/
def execTileOffline (h : Hdr) (s : State) : Host.Outcome State Fault Refusal :=
  .next (s.onRing h 0x78 (fun s => { bad := s.tileBad h, tile := some h.arg, cmd := some (.tileOffline h) }) fun s =>
    ((s.abortRot h.arg).goOffline h.arg h, none))

/-- TILE_READMIT (08 R321). -/
def execTileReadmit (h : Hdr) (s : State) : Host.Outcome State Fault Refusal :=
  .next (s.onRing h 0x79 (fun _ => { bad := argBad h.arg 16, tile := some h.arg, cmd := some (.tileReadmit h), needs := [.offline] }) fun s =>
    (s.startReadmit h.arg (some h), none))

/-- The image that ROTATE puts on tile `t` (08 R309); none when NEWIMG finds none staged. -/
def State.rotImage (t : Nat) (newImg : Bool) (s : State) : Option Nat :=
  if newImg then (if s.upd.stage = .activating || s.upd.stage = .trial then s.trialBank else none)
  else some ((s.engine (s.tile t).engine).image.getD s.upd.runBank)

/-- ROTATE from its start (08 R309). -/
def State.rotateCmd (h : Hdr) (newImg : Bool) (s : State) : State × Option Reply :=
  match s.rotImage h.arg newImg with
  | none => (s, some { st := 4 })
  | some b =>
    if s.rot.busy then (s, some { st := 4 })
    else if (s.pickEng (some b)).isNone then (s, some { st := 9 })
    else (s.startRot h.arg b (some h), none)

/-- ROTATE. -/
def execRotate (h : Hdr) (newImg : Bool) (s : State) : Host.Outcome State Fault Refusal :=
  .next (s.onRing h 0x88 (fun s => { bad := s.tileBad h, tile := some h.arg, cmd := some (.rotate h newImg) }) (State.rotateCmd h newImg))

end Sys2Proof.Machine
end

