-- ==== Sys2Proof/Machine/EngineHaps.lean ====
section
/-!
DEFINITION. Happenings at engines, rotations, service, SRAM and power (08 R298, R309 to R325; 09 R334, R347).
-/
namespace Sys2Proof.Machine

/-! ## Watchdogs -/

/-- WATCHDOG_SERVICE. -/
def execWatchdogService (τ : Tick) (t : Nat) (s : State) : Host.Outcome State Fault Refusal :=
  .next (s.onTick τ (State.serveWatchdog t))

/-- WATCHDOG_EXPIRY. -/
def execWatchdogExpiry (τ : Tick) (t : Nat) (s : State) : Host.Outcome State Fault Refusal :=
  .next (s.onTick τ (State.expireWatchdog t))

/-! ## Commands that wait for an engine (01 R37, 08 R310) -/

/-- The state that a command leaves, or the one before it where it stops. -/
def ranOr (s : State) (o : Host.Outcome State Fault Refusal) : State :=
  match o with
  | .next t => t
  | _ => s

/-- A command that waited is executed by the engine now bound; only commands to a tile wait. -/
def State.runAgain (c : Instr) (s : State) : State :=
  match c with
  | .chMode h m p k a b => ranOr s (execChMode h m p k a b s)
  | .outSet h c v => ranOr s (execOutSet h c v s)
  | .mirForceOff h c => ranOr s (execMirForceOff h c s)
  | .mirForceOn h c => ranOr s (execMirForceOn h c s)
  | .mirRelease h c => ranOr s (execMirRelease h c s)
  | .outCancel h => ranOr s (execOutCancel h s)
  | .chTrimSet h o g => ranOr s (execChTrimSet h o g s)
  | .chTrimZero h => ranOr s (execChTrimZero h s)
  | .chTrimSpan h r => ranOr s (execChTrimSpan h r s)
  | .chTrimReset h => ranOr s (execChTrimReset h s)
  | .rfxWrite h c q t a => ranOr s (execRfxWrite h c q t a s)
  | .rfxEnable h e => ranOr s (execRfxEnable h e s)
  | .rfxStatus h => ranOr s (execRfxStatus h s)
  | .seqArm h => ranOr s (execSeqArm h s)
  | .seqDisarm h => ranOr s (execSeqDisarm h s)
  | .seqTrigger h x => ranOr s (execSeqTrigger h x s)
  | .inject h w => ranOr s (execInject h w s)
  | .calibrate h v => ranOr s (execCalibrate h v s)
  | .calibrateExcl h v => ranOr s (execCalibrateExcl h v s)
  | .tileOffline h => ranOr s (execTileOffline h s)
  | .tileReadmit h => ranOr s (execTileReadmit h s)
  | .rotate h n => ranOr s (execRotate h n s)
  | _ => s

/-- The waiting commands of tiles that have an engine which takes commands, in fetch order. -/
def State.released (s : State) : List Instr :=
  s.fetched.filterMap fun f => if f.waiting && (match f.tile with | some t => (s.tile t).bound && !s.holdsBack t | none => false) then f.cmd else none

/-- They are executed. -/
def State.runWaiting (s : State) : State := forAll State.runAgain s.released s

/-- A happening of rotations and repairs, after which commands that waited are executed; engines and the supervisor halt in the
grave hold (09 R339). -/
def State.onEngine (τ : Tick) (f : State → State) (s : State) : State :=
  s.onTick τ fun s => if s.dev.grave then s else (f s).runWaiting

/-! ## Rotation and repair -/

/-- ROTATION_LOAD_END. -/
def execRotationLoadEnd (τ : Tick) (ok : Bool) (s : State) : Host.Outcome State Fault Refusal :=
  .next (s.onEngine τ (State.rotLoaded ok))

/-- ROTATION_PRECOPY_END. -/
def execRotationPrecopyEnd (τ : Tick) (snapOk : Bool) (s : State) : Host.Outcome State Fault Refusal :=
  .next (s.onEngine τ (State.rotCopied snapOk))

/-- ROTATION_GAP_START. -/
def execRotationGapStart (τ : Tick) (s : State) : Host.Outcome State Fault Refusal := .next (s.onEngine τ State.rotGap)

/-- H of a rotation; one of a live activation is counted (10 R369). -/
def State.handOver (s : State) : State :=
  if s.rot.busy && s.rot.phase = .gap && s.now ≤ s.rot.gapAt + 20000 then s.rotDone.countRotated else s

/-- ROTATION_HANDOVER. -/
def execRotationHandover (τ : Tick) (s : State) : Host.Outcome State Fault Refusal := .next (s.onEngine τ State.handOver)

/-- ROTATION_GAP_TIMEOUT. -/
def execRotationGapTimeout (τ : Tick) (s : State) : Host.Outcome State Fault Refusal := .next (s.onEngine τ State.rotTimeout)

/-- REPAIR_HANDOVER. -/
def execRepairHandover (τ : Tick) (t : Nat) (s : State) : Host.Outcome State Fault Refusal :=
  .next (s.onEngine τ (State.repaired t))

/-! ## Service -/

/-- TILE_OFFLINE_COMPLETE. -/
def execTileOfflineComplete (τ : Tick) (t : Nat) (s : State) : Host.Outcome State Fault Refusal :=
  .next (s.onTick τ (State.nowOffline t))

/-- READMISSION_COMPLETE: with the lanes that training found healthy. -/
def execReadmissionComplete (τ : Tick) (t : Nat) (ok : Bool) (lanes : Nat) (s : State) : Host.Outcome State Fault Refusal :=
  .next (s.onEngine τ (State.endReadmit t ok lanes))

/-! ## SRAM -/

/-- SRAM_SCRUB. -/
def execSramScrub (τ : Tick) (bank row : Nat) (single : Bool) (s : State) : Host.Outcome State Fault Refusal :=
  .next (s.onTick τ (State.scrub bank row single))

/-- SRAM_DOUBLE_BIT_ERROR. -/
def execSramDoubleBitError (τ : Tick) (bank row item : Nat) (s : State) : Host.Outcome State Fault Refusal :=
  .next (s.onTick τ (State.doubleBit bank row item))

/-! ## Power -/

/-- RAIL_ADJUST. -/
def execRailAdjust (τ : Tick) (k margin : Nat) (s : State) : Host.Outcome State Fault Refusal :=
  .next (s.onTick τ (State.railAdjust k margin))

/-- MARGIN_RECOVERY. -/
def execMarginRecovery (τ : Tick) (k : Nat) (s : State) : Host.Outcome State Fault Refusal :=
  .next (s.onTick τ (State.railRecover k))

/-- RETENTION_ENTRY. -/
def execRetentionEntry (τ : Tick) (k : Nat) (s : State) : Host.Outcome State Fault Refusal :=
  .next (s.onTick τ (State.retention k))

/-- POWER_REPORT_RENEWAL. -/
def execPowerReportRenewal (τ : Tick) (draws : List Nat) (s : State) : Host.Outcome State Fault Refusal :=
  .next (s.onTick τ (State.renewPower draws))

end Sys2Proof.Machine
end

