-- ==== Sys2Proof/Machine/FaultHaps.lean ====
section
/-!
DEFINITION. Happenings at fault sources, the safe-state net, ALIVE, the Archive and the persistent log (09 R327 to R353), the
update (10 R364 to R371), the supervisor (01 R24) and serial ports (11 R385 to R400).
-/
namespace Sys2Proof.Machine

/-! ## Fault sources and the net -/

/-- PRESENT_END. -/
def execPresentEnd (τ : Tick) (k i : Nat) (s : State) : Host.Outcome State Fault Refusal :=
  .next (s.onTick τ (State.presentEnd k i))

/-- SELFCHK_COMPARE: `diff` is the bits in which the two copies differ. -/
def execSelfchkCompare (τ : Tick) (k diff : Nat) (s : State) : Host.Outcome State Fault Refusal :=
  .next (s.onTick τ (State.selfchk k diff))

/-- NET_CHECK (09 Table 9-5). -/
def execNetCheck (τ : Tick) (s : State) : Host.Outcome State Fault Refusal :=
  .next (s.onTick τ fun s => s.raise 54 1 0 0 0)

/-- SV_LOCKSTEP_MISMATCH (09 Table 9-5). -/
def execSvLockstepMismatch (τ : Tick) (s : State) : Host.Outcome State Fault Refusal :=
  .next (s.onTick τ fun s => s.raise 18 0 0 0 0)

/-- ALIVE_GATE_SERVICE. -/
def execAliveGateService (τ : Tick) (s : State) : Host.Outcome State Fault Refusal := .next (s.onTick τ State.gateServe)

/-- ALIVE_GATE_TIMEOUT. -/
def execAliveGateTimeout (τ : Tick) (s : State) : Host.Outcome State Fault Refusal := .next (s.onTick τ State.gateMiss)

/-- ALIVE_EDGE. -/
def execAliveEdge (τ : Tick) (s : State) : Host.Outcome State Fault Refusal := .next (s.onTick τ State.aliveEdge)

/-- HUB_TEMP_SAMPLE: in 0.1 °C. -/
def execHubTempSample (τ : Tick) (tj : Int) (s : State) : Host.Outcome State Fault Refusal := .next (s.onTick τ (State.hubTemp tj))

/-! ## Archive and persistent log -/

/-- STORM_WINDOW_END. -/
def execStormWindowEnd (τ : Tick) (s : State) : Host.Outcome State Fault Refusal := .next (s.onTick τ State.windowEnd)

/-- PLOG_MIRROR_WRITE. -/
def execPlogMirrorWrite (τ : Tick) (fails : Bool) (s : State) : Host.Outcome State Fault Refusal :=
  .next (s.onTick τ (State.mirrorWrite fails))

/-! ## Update -/

/-- SESSION_TIMEOUT. -/
def execSessionTimeout (τ : Tick) (s : State) : Host.Outcome State Fault Refusal := .next (s.onSv τ State.sessionEnd)

/-- ACTIVATION_SV_SWITCH. -/
def execActivationSvSwitch (τ : Tick) (ok : Bool) (s : State) : Host.Outcome State Fault Refusal :=
  .next (s.onSv τ (State.svSwitch ok))

/-- TRIAL_EXPIRY. -/
def execTrialExpiry (τ : Tick) (s : State) : Host.Outcome State Fault Refusal := .next (s.onSv τ State.trialOver)

/-! ## Serial ports -/

/-- SP_FRAME_START. -/
def execSpFrameStart (τ : Tick) (n : Nat) (s : State) : Host.Outcome State Fault Refusal := .next (s.onTick τ (State.startFrame n))

/-- SP_FRAME_END: `words` as SDI gave them, and the SCKR edges counted. -/
def execSpFrameEnd (τ : Tick) (n : Nat) (words : List Word) (edges : Nat) (s : State) : Host.Outcome State Fault Refusal :=
  .next (s.onTick τ (State.endFrame n words edges))

/-- SCKR_STRAY_EDGE. -/
def execSckrStrayEdge (τ : Tick) (n : Nat) (s : State) : Host.Outcome State Fault Refusal :=
  .next (s.onTick τ (State.strayEdge n))

end Sys2Proof.Machine
end

