-- ==== Sys2Proof/Machine/HubCmds.lean ====
section
/-!
DEFINITION. Ring commands of the hub: NOP and TIME_READ, ownership, transactions, faults and logs, the catalogue and the
lock (07 Table 7-7; 09 Table 9-17; 14 Table 14-4).
-/
namespace Sys2Proof.Machine

/-- NOP (07 Table 7-7). -/
def execNop (h : Hdr) (s : State) : Host.Outcome State Fault Refusal :=
  .next (s.onRing h 0x00 (fun _ => { early := true, recov := true }) fun s => (s, some (Reply.ok 0)))

/-- TIME_READ (07 Table 7-7). -/
def execTimeRead (h : Hdr) (s : State) : Host.Outcome State Fault Refusal :=
  .next (s.onRing h 0x01 (fun _ => { early := true, recov := true }) fun s =>
    (s, some (Reply.ok (payload [(16, 8, s.now), (24, 1, fld (s.readWord h.port 0x118) 31 28)]))))

/-- CLAIM (07 R284, R286). -/
def execClaim (h : Hdr) (cls first : Nat) (s : State) : Host.Outcome State Fault Refusal :=
  .next (s.onRing h 0xA0 (fun _ => ownNeeds h cls first 512 true none) (State.claim h.port cls first h.arg))

/-- RELEASE (07 R285). -/
def execRelease (h : Hdr) (cls first : Nat) (s : State) : Host.Outcome State Fault Refusal :=
  .next (s.onRing h 0xA1 (fun _ => ownNeeds h cls first 512 true none) (State.releaseOwn h.port cls first h.arg))

/-- HANDOVER (07 R285). -/
def execHandover (h : Hdr) (cls first : Nat) (s : State) : Host.Outcome State Fault Refusal :=
  .next (s.onRing h 0xA2 (fun s => ownNeeds h cls first 512 false ((s.judges h.port).notHanded h.port cls first h.arg)) (State.handover h.port cls first h.arg))

/-- TAKEOVER (07 R287). -/
def execTakeover (h : Hdr) (cls first : Nat) (s : State) : Host.Outcome State Fault Refusal :=
  .next (s.onRing h 0xA3 (fun _ => ownNeeds h cls first 512 false none) (State.takeover h.port cls first h.arg))

/-- OWNER_QUERY (07 Table 7-7). -/
def execOwnerQuery (h : Hdr) (cls first : Nat) (s : State) : Host.Outcome State Fault Refusal :=
  .next (s.onRing h 0xA4 (fun _ => { bad := ownBad cls first h.arg 48, early := true }) fun s =>
    (s, some (s.ownerQuery cls first h.arg)))

/-- TXN_SUBMIT (02 R71, 07 R270). -/
def execTxnSubmit (h : Hdr) (commit : Nat) (members : List Member) (s : State) : Host.Outcome State Fault Refusal :=
  .next (s.onRing h 0xA8 (fun _ => { own := memberOwn members }) (State.submitTxn h commit members))

/-- TXN_CANCEL (02 R76). -/
def execTxnCancel (h : Hdr) (tag : Nat) (s : State) : Host.Outcome State Fault Refusal :=
  .next (s.onRing h 0xA9 (fun _ => {}) fun s => let (s, r) := s.cancelTxn h.port tag; (s, some r))

/-- FAULT_ACK (09 R328, Table 9-17). -/
def execFaultAck (h : Hdr) (mask : Nat) (s : State) : Host.Outcome State Fault Refusal :=
  .next (s.onRing h 0x70 (fun _ => { bad := argBad h.arg 55, early := true }) (State.ackBlk h.arg mask))

/-- LOG_READ (09 Table 9-17). -/
def execLogRead (h : Hdr) (log count addr start : Nat) (s : State) : Host.Outcome State Fault Refusal :=
  .next (s.onRing h 0x71 (fun _ => { early := true }) (State.logRead h log count addr start))

/-- CAT_READ (14 R449). -/
def execCatRead (h : Hdr) (start count addr : Nat) (s : State) : Host.Outcome State Fault Refusal :=
  .next (s.onRing h 0x90 (fun _ => { bad := (catBad start count addr).map badField, early := true, recov := true })
    (State.catRead h start count addr))

/-- CAT_WRITE (14 R450). -/
def execCatWrite (h : Hdr) (start count : Nat) (words : List Word) (s : State) : Host.Outcome State Fault Refusal :=
  .next (s.onRing h 0x91 (fun _ => { bad := (catBad start count 0).map badField }) (State.catWrite h start count words))

/-- LOCK (14 R445). -/
def execLock (h : Hdr) (key : Nat) (s : State) : Host.Outcome State Fault Refusal :=
  .next (s.onRing h 0x92 (fun _ => {}) (State.lockCmd h.port false key))

/-- UNLOCK (14 R445). -/
def execUnlock (h : Hdr) (key : Nat) (s : State) : Host.Outcome State Fault Refusal :=
  .next (s.onRing h 0x92 (fun _ => {}) (State.lockCmd h.port true key))

end Sys2Proof.Machine
end

