-- ==== Sys2Proof/Machine/LinkHaps.lean ====
section
/-!
DEFINITION. Happenings on the links between tiles and hub: trigger lines, lanes, the merge and the streams (01 R38; 02 R61 to
R64; 06 R219 to R244; 07 R294; 08 R306, R316).
-/
namespace Sys2Proof.Machine

/-! ## Trigger bus lines (08 R306) -/

/-- A change of line `l` reaches the hub, which sends it to every tile; one on its way from a tile that has left service since
moves no stale line. -/
def State.lineToHub (l : Nat) (s : State) : State :=
  let L := s.lines.getD l {}
  match L.toHub with
  | (v, ts) :: rest =>
    if (s.tile L.tile).lost || L.stale || (s.tile L.tile).link.life = .offline then s
    else
      { s with lines := updAt (fun L => { L with
          state := v, ts := ts, toHub := rest, toTiles := L.toTiles ++ tileNos.map fun t => (t, v, ts) }) l s.lines }
  | [] => s

/-- LINE_CHANGE_HUB. -/
def execLineChangeHub (τ : Tick) (l : Nat) (s : State) : Host.Outcome State Fault Refusal :=
  .next (s.onTick τ (State.lineToHub l))

/-- A change of line `l` reaches tile `t`: its rules and its BUS sequences, unless the line is stale. -/
def State.lineToTile (t l : Nat) (s : State) : State :=
  let L := s.lines.getD l {}
  match L.toTiles.find? fun x => x.1 = t with
  | some (_, v, ts) =>
    if (s.tile t).lost then s
    else
      let s := { s with lines := updAt (fun L => { L with toTiles := L.toTiles.erase (t, v, ts) }) l s.lines }
      let s := s.modLink t fun k => { k with lines := updAt (fun _ => v) l k.lines }
      if L.stale || !(s.tile t).online then s
      else (s.refreshAt t (some (true, l, v)) ts).fireWhere t 2 (fun p => p % 64 = l && edgeParam p v) ts
  | none => s

/-- LINE_CHANGE_TILE. -/
def execLineChangeTile (τ : Tick) (t l : Nat) (s : State) : Host.Outcome State Fault Refusal :=
  .next (s.onTick τ (State.lineToTile t l))

/-! ## Lanes -/

/-- LANE_FAILURE: `lanes` is the mask of the lanes that fail together. -/
def execLaneFailure (τ : Tick) (t lanes : Nat) (s : State) : Host.Outcome State Fault Refusal :=
  .next (s.onTick τ (State.laneFail t lanes))

/-- LINK_RETURN: `lanes` carry frames again. -/
def execLinkReturn (τ : Tick) (t lanes : Nat) (s : State) : Host.Outcome State Fault Refusal :=
  .next (s.onTick τ (State.linkReturn t lanes))

/-- LINK_FRAME_CORRUPTED. -/
def execLinkFrameCorrupted (τ : Tick) (t lane : Nat) (s : State) : Host.Outcome State Fault Refusal :=
  .next (s.onTick τ (State.badFrame t lane))

/-! ## The merge -/

/-- The hub still takes the traffic of tile `t` (08 R320). -/
def Tile.heard (T : Tile) : Bool := !T.lost && T.link.life ≠ .offline

/-- The oldest event of a source arrives at the merge (02 R61): of tile `src`, or of the hub (16). The vitrine of an event's
channel shows it (02 Table 2-3). -/
def State.mergeTakes (src : Nat) (s : State) : State :=
  if src < 16 then
    match popEv (s.tile src).link.sendQ with
    | some (e, rest) =>
      if !(s.tile src).heard then s
      else
        let s := s.modLink src (Link.took rest)
        let s := if e.ch < 32 then s.accessioned src e.ch 2 (e.kind % 256 * 2 ^ 24 + e.payload % 2 ^ 24) e.ts 0 0 else s
        s.arrive e
    | none => s
  else match s.merge.hubOut with
    | e :: es => ({ s with merge := { s.merge with hubOut := es } }).arrive e
    | [] => s

/-- EVENT_ARRIVAL_MERGE. -/
def execEventArrivalMerge (τ : Tick) (src : Nat) (s : State) : Host.Outcome State Fault Refusal :=
  .next (s.onTick τ (State.mergeTakes src))

/-- EVENT_RELEASE. -/
def execEventRelease (τ : Tick) (s : State) : Host.Outcome State Fault Refusal := .next (s.onTick τ State.releaseHeld)

/-- A millisecond without an early release (02 R64). -/
def State.horizonOver (s : State) : State :=
  if s.merge.epi && s.merge.epiLast + ms ≤ s.now then
    ({ s with merge := { s.merge with epi := false } }).endPresent 54 3
  else s

/-- HORIZON_EPISODE_END. -/
def execHorizonEpisodeEnd (τ : Tick) (s : State) : Host.Outcome State Fault Refusal := .next (s.onTick τ State.horizonOver)

/-! ## Streams -/

/-- The oldest result or gap notice of tile `p` reaches its filter pipeline, and every running context (06 R218, R222). -/
def State.pipeTakes (p : Nat) (s : State) : State :=
  match popRes (s.tile p).link.sendQ with
  | some (i, rest) =>
    if !(s.tile p).heard then s
    else forAll (fun c s => s.ctxInput p c i) (List.range 32) ((s.rouse (19 + p)).modLink p (Link.took rest))
  | none => s

/-- PIPELINE_INPUT. -/
def execPipelineInput (τ : Tick) (p : Nat) (s : State) : Host.Outcome State Fault Refusal :=
  .next (s.onTick τ (State.pipeTakes p))

/-- BLOCK_T after its first sample a block closes (06 R244). -/
def State.blockOver (p c : Nat) (s : State) : State :=
  let x := s.ctx p c
  if x.run && !x.r.part.isEmpty && x.blockT ≠ 0 && x.r.partAt + x.blockT ≤ s.now then s.closeBlock p c false else s

/-- BLOCK_TIMEOUT: `x` is the context. -/
def execBlockTimeout (τ : Tick) (p x : Nat) (s : State) : Host.Outcome State Fault Refusal :=
  .next (s.onTick τ (State.blockOver p x))

/-- A waiting block's delivery deadline has passed (07 R294). -/
def State.deliveryPast (p c : Nat) (s : State) : State :=
  match (s.ctx p c).r.wait with
  | some b =>
    if b.deadline ≠ 0 && b.deadline < s.now && !b.dl then
      (s.modCtx p c fun x => { x with r := { x.r with wait := some { b with dl := true } } }).raise (19 + p) 0 c 0
        (sat 0xFFFFFFFF (s.now - b.deadline))
    else s
  | none => s

/-- STREAM_DELIVERY_DEADLINE. -/
def execStreamDeliveryDeadline (τ : Tick) (p x : Nat) (s : State) : Host.Outcome State Fault Refusal :=
  .next (s.onTick τ (State.deliveryPast p x))

end Sys2Proof.Machine
end

