-- ==== Sys2Proof/Machine/OutputHaps.lean ====
section
/-!
DEFINITION. Happenings at outputs, transactions, protections and supplies of a tile (02 R67 to R74; 03 R102 to R116; 04 R130
to R168).
-/
namespace Sys2Proof.Machine

/-! ## Transactions -/

/-- TXN_MEMBER_ARRIVAL. -/
def execTxnMemberArrival (τ : Tick) (p : PortId) (tag t : Nat) (s : State) : Host.Outcome State Fault Refusal :=
  .next (s.onTick τ (State.txnArrive p tag t))

/-- TXN_READY. -/
def execTxnReady (τ : Tick) (p : PortId) (tag t : Nat) (s : State) : Host.Outcome State Fault Refusal :=
  .next (s.onTick τ (State.txnGot p tag t))

/-- TXN_DECISION. -/
def execTxnDecision (τ : Tick) (p : PortId) (tag : Nat) (s : State) : Host.Outcome State Fault Refusal :=
  .next (s.onTick τ (State.txnDecide p tag))

/-- TXN_DECISION_ARRIVAL. -/
def execTxnDecisionArrival (τ : Tick) (p : PortId) (tag t : Nat) (s : State) : Host.Outcome State Fault Refusal :=
  .next (s.onTick τ (State.txnTold p tag t))

/-- TXN_COMMIT. -/
def execTxnCommit (τ : Tick) (p : PortId) (tag t : Nat) (s : State) : Host.Outcome State Fault Refusal :=
  .next (s.onPower τ t (State.txnCommit p tag t))

/-- TXN_ACCESSION_REPORT. -/
def execTxnAccessionReport (τ : Tick) (p : PortId) (tag t : Nat) (s : State) : Host.Outcome State Fault Refusal :=
  .next (s.onTick τ (State.txnReport p tag t))

/-! ## Single actions -/

/-- The action on its way that command (p, ring, cnt) started reaches its tile, over a link that is up (01 R38). -/
def State.actionCame (p : PortId) (ring cnt : Nat) (s : State) : State :=
  match s.transit.find? fun a => a.h.port = p && a.h.ring = ring && a.h.cnt = cnt with
  | some a =>
    if (s.tile (a.g / 32)).lost then s
    else ({ s with transit := s.transit.erase a }).arriveAction a
  | none => s

/-- OUTPUT_ACTION_ARRIVAL. -/
def execOutputActionArrival (τ : Tick) (p : PortId) (ring cnt : Nat) (s : State) : Host.Outcome State Fault Refusal :=
  .next (s.onTick τ (State.actionCame p ring cnt))

/-- OUTPUT_COMMIT. -/
def execOutputCommit (τ : Tick) (t c : Nat) (s : State) : Host.Outcome State Fault Refusal :=
  .next (s.onPower τ t (State.commitDue t c fun _ => true))

/-! ## Protections and diagnoses of the switches -/

/-- SHORT_GND_DETECT. -/
def execShortGndDetect (τ : Tick) (t c : Nat) (s : State) : Host.Outcome State Fault Refusal :=
  .next (s.onPower τ t (State.shortGnd t c))

/-- OVERLOAD_RETRY. -/
def execOverloadRetry (τ : Tick) (t c : Nat) (s : State) : Host.Outcome State Fault Refusal :=
  .next (s.onPower τ t (State.overloadRetry t c))

/-- THERMAL_SHUTDOWN. -/
def execThermalShutdown (τ : Tick) (t c : Nat) (s : State) : Host.Outcome State Fault Refusal :=
  .next (s.onPower τ t (State.thermal t c))

/-- THERMAL_REENABLE. -/
def execThermalReenable (τ : Tick) (t c : Nat) (s : State) : Host.Outcome State Fault Refusal :=
  .next (s.onPower τ t (State.thermalEnd t c))

/-- OVER_DECL. -/
def execOverDecl (τ : Tick) (t c : Nat) (s : State) : Host.Outcome State Fault Refusal :=
  .next (s.onPower τ t (State.overDecl t c))

/-- OPEN_ON. -/
def execOpenOn (τ : Tick) (t c : Nat) (low : Bool) (s : State) : Host.Outcome State Fault Refusal :=
  .next (s.onPower τ t (State.openOn t c low))

/-- OFF_STATE_CHECK. -/
def execOffStateCheck (τ : Tick) (t c : Nat) (mv : Int) (s : State) : Host.Outcome State Fault Refusal :=
  .next (s.onTile τ t (State.offCheck t c mv))

/-- DARK_PULSE. -/
def execDarkPulse (τ : Tick) (t c ua : Nat) (pins : List (Nat × Int)) (s : State) : Host.Outcome State Fault Refusal :=
  .next (s.onPower τ t (State.darkPulse t c ua pins))

/-- PIN_CLAMP: no behaviour is specified for a pin beyond its ratings (15 R453). -/
def execPinClamp (τ : Tick) (t c : Nat) (acting : Bool) (mv : Int) (s : State) : Host.Outcome State Fault Refusal :=
  if pinBeyond mv 0 then .fault .beyondRatings else .next (s.onPower τ t (State.pinClamp t c acting))

/-- SURGE: as PIN_CLAMP, with the clamp's current. -/
def execSurge (τ : Tick) (t c : Nat) (mv : Int) (clampMa : Nat) (s : State) : Host.Outcome State Fault Refusal :=
  if pinBeyond mv clampMa then .fault .beyondRatings else .next (s.onPower τ t (State.surge t c mv clampMa))

/-- SURGE_END. -/
def execSurgeEnd (τ : Tick) (t c : Nat) (s : State) : Host.Outcome State Fault Refusal :=
  .next (s.onPower τ t (State.surgeOver t c))

/-! ## Field supply, rail and analogue channels -/

/-- LPLUS_SAMPLE: in 0.01 V; no behaviour is specified beyond the ratings of L+ (15 R453). -/
def execLplusSample (τ : Tick) (t : Nat) (cv : Int) (s : State) : Host.Outcome State Fault Refusal :=
  if lplusBeyond cv then .fault .beyondRatings else .next (s.onTile τ t (State.lplus t cv))

/-- REENERGISE_SLOT. -/
def execReenergiseSlot (τ : Tick) (t : Nat) (s : State) : Host.Outcome State Fault Refusal :=
  .next (s.onPower τ t (State.reenSlot t))

/-- AO_READBACK. -/
def execAoReadback (τ : Tick) (t c : Nat) (r : Readback) (s : State) : Host.Outcome State Fault Refusal :=
  .next (s.onTile τ t (State.aoReadback t c r))

/-- CRAIL_SAMPLE. -/
def execCrailSample (τ : Tick) (t : Nat) (dv : Nat) (s : State) : Host.Outcome State Fault Refusal :=
  .next (s.onTile τ t (State.crail t dv))

/-- AII_FOLDBACK. -/
def execAiiFoldback (τ : Tick) (t c : Nat) (s : State) : Host.Outcome State Fault Refusal :=
  .next (s.onPower τ t (State.foldback t c))

/-- AII_RETRY. -/
def execAiiRetry (τ : Tick) (t c ua : Nat) (s : State) : Host.Outcome State Fault Refusal :=
  .next (s.onPower τ t (State.foldRetry t c ua))

/-- EXCITATION_CYCLE_CHECK: how far the limit acted in the cycle. -/
def execExcitationCycleCheck (τ : Tick) (t c : Nat) (limited : Limiting) (na : Nat) (s : State) :
    Host.Outcome State Fault Refusal :=
  .next (s.onPower τ t (State.excCycle t c limited na))

/-- MIRROR_PERIOD_START. -/
def execMirrorPeriodStart (τ : Tick) (t c : Nat) (s : State) : Host.Outcome State Fault Refusal :=
  .next (s.onPower τ t (State.mirStart t c))

/-- TILE_TEMP_SAMPLE: both cold-junction sensors and the die, in 0.001 °C. -/
def execTileTempSample (τ : Tick) (t : Nat) (cjcA cjcB tdie : Int) (s : State) : Host.Outcome State Fault Refusal :=
  .next (s.onPower τ t (State.tileTemp t cjcA cjcB tdie))

end Sys2Proof.Machine
end

