-- ==== Sys2Proof/Machine/PortHaps.lean ====
section
/-!
DEFINITION. Happenings at the host ports: doorbells, intake and messages, and the register accesses that have rows of their
own (07 R253 to R291; 14 R441, R442).
-/
namespace Sys2Proof.Machine

/-! ## Rings and links -/

/-- DOORBELL_POLL. -/
def execDoorbellPoll (τ : Tick) (p : PortId) (prods : List Nat) (fails : Bool) (s : State) : Host.Outcome State Fault Refusal :=
  .next (s.onTick τ (State.poll p prods fails))

/-- NUDGE: a write in BAR2 (log 4). -/
def execNudge (τ : Tick) (p : PortId) (offset : Nat) (val : Word) (s : State) : Host.Outcome State Fault Refusal :=
  .next (s.onTick τ (State.bar2Write p offset val))

/-- DESCRIPTOR_FETCH. -/
def execDescriptorFetch (τ : Tick) (p : PortId) (ring : Nat) (d : Desc) (s : State) : Host.Outcome State Fault Refusal :=
  .next (s.onTick τ (State.fetch p ring d))

/-- COMMAND_WAIT_DEADLINE. -/
def execCommandWaitDeadline (τ : Tick) (p : PortId) (ring cnt : Nat) (s : State) : Host.Outcome State Fault Refusal :=
  .next (s.onTick τ (State.waitPast p ring cnt))

/-- MSIX_MESSAGE. -/
def execMsixMessage (τ : Tick) (p : PortId) (ring : Nat) (s : State) : Host.Outcome State Fault Refusal :=
  .next (s.onTick τ (State.message p ring))

/-- RING_ERROR: of an active ring of a running port. -/
def execRingError (τ : Tick) (p : PortId) (ring kind : Nat) (s : State) : Host.Outcome State Fault Refusal :=
  .next (s.onTick τ fun s => if s.portRuns p && ((s.port p).ring ring).active then s.ringError p ring kind else s)

/-- PORT_RESET, by PERST or a Function Level Reset: both have one scope (07 R253). -/
def execPortReset (τ : Tick) (p : PortId) (_perst : Bool) (s : State) : Host.Outcome State Fault Refusal :=
  .next (s.onTick τ (State.resetPort p))

/-- PORT_LIVE_CHANGE: the link, Bus Master Enable, speed, width and power state as they now are. -/
def execPortLiveChange (τ : Tick) (p : PortId) (linkUp busMaster : Bool) (speed width : Nat) (l1 : Bool) (s : State) :
    Host.Outcome State Fault Refusal :=
  .next (s.onTick τ (State.portLive p linkUp busMaster speed width l1))

/-- PCIE_UNCORRECTABLE_ERROR: AER's status goes into CODE (09 Table 9-5). -/
def execPcieUncorrectableError (τ : Tick) (p : PortId) (status : Nat) (s : State) : Host.Outcome State Fault Refusal :=
  .next (s.onTick τ fun s =>
    (s.modPort p fun P => { P with cs := { P.cs with aerStatus := P.cs.aerStatus ||| status } }).raise (portBlk p) 1 0 (status % 65536) 0)

/-! ## Register accesses -/

/-- The register block of a port in BAR0 (14 Table 14-2). -/
def portBase (p : PortId) : Nat := match p with | .ha => 0x10000 | .hb => 0x18000

/-- RING_ENABLE: a write of RING_CFG with EN = 1. -/
def execRingEnable (τ : Tick) (p : PortId) (ring : Nat) (val : Word) (s : State) : Host.Outcome State Fault Refusal :=
  .next (s.onWrite τ p (portBase p + 0x108 + 16 * ring) 1 15 val)

/-- RING_DISABLE: a write of RING_CFG with EN = 0. -/
def execRingDisable (τ : Tick) (p : PortId) (ring : Nat) (val : Word) (s : State) : Host.Outcome State Fault Refusal :=
  .next (s.onWrite τ p (portBase p + 0x108 + 16 * ring) 1 15 val)

/-- PORT_ENABLE: a write of PORT_CTRL. -/
def execPortEnable (τ : Tick) (p : PortId) (val : Word) (s : State) : Host.Outcome State Fault Refusal :=
  .next (s.onWrite τ p (portBase p) 1 15 val)

/-- CHANNEL_REG_WRITE: `reg` 0 CH_MODE, 1 CH_CFG, 2 CH_DIAG. -/
def execChannelRegWrite (τ : Tick) (p : PortId) (t c reg : Nat) (val : Word) (s : State) : Host.Outcome State Fault Refusal :=
  .next (s.onWrite τ p (tileAddr t (16 * c + 4 * reg)) 1 15 val)

/-- SEQ_CFG_ARM: a write of SEQ_CFG with ARM = 1. -/
def execSeqCfgArm (τ : Tick) (p : PortId) (t n : Nat) (val : Word) (s : State) : Host.Outcome State Fault Refusal :=
  .next (s.onWrite τ p (tileAddr t (0x840 + 0x20 * n)) 1 15 val)

/-- SEQ_CFG_DISARM: a write of SEQ_CFG with ARM = 0. -/
def execSeqCfgDisarm (τ : Tick) (p : PortId) (t n : Nat) (val : Word) (s : State) : Host.Outcome State Fault Refusal :=
  .next (s.onWrite τ p (tileAddr t (0x840 + 0x20 * n)) 1 15 val)

/-- REF_ENABLE: a write of CONV_CTRL with REF_EN = 1. -/
def execRefEnable (τ : Tick) (p : PortId) (t : Nat) (val : Word) (s : State) : Host.Outcome State Fault Refusal :=
  .next (s.onWrite τ p (tileAddr t 0x800) 1 15 val)

/-- REF_DISABLE: a write of CONV_CTRL with REF_EN = 0. -/
def execRefDisable (τ : Tick) (p : PortId) (t : Nat) (val : Word) (s : State) : Host.Outcome State Fault Refusal :=
  .next (s.onWrite τ p (tileAddr t 0x800) 1 15 val)

/-- INJ_CFG_WRITE. -/
def execInjCfgWrite (τ : Tick) (p : PortId) (t : Nat) (val : Word) (s : State) : Host.Outcome State Fault Refusal :=
  .next (s.onWrite τ p (tileAddr t 0x80C) 1 15 val)

/-- DO_TEST_WRITE. -/
def execDoTestWrite (τ : Tick) (p : PortId) (t : Nat) (val : Word) (s : State) : Host.Outcome State Fault Refusal :=
  .next (s.onWrite τ p (tileAddr t 0x408) 1 15 val)

/-- RFX_REG_WRITE: `reg` 0 RFX_COND, 1 RFX_QUAL, 2 RFX_THR, 3 RFX_ACT. -/
def execRfxRegWrite (τ : Tick) (p : PortId) (t r reg : Nat) (val : Word) (s : State) : Host.Outcome State Fault Refusal :=
  .next (s.onWrite τ p (tileAddr t (0x2000 + 16 * r + 4 * reg)) 1 15 val)

/-- RFX_LAT_CLEAR: a write of RFX_LAT. -/
def execRfxLatClear (τ : Tick) (p : PortId) (t : Nat) (val : Word) (s : State) : Host.Outcome State Fault Refusal :=
  .next (s.onWrite τ p (tileAddr t 0x2508) 1 15 val)

/-- TRIM_REG_WRITE: `reg` 0 TRIM_OFS, 1 TRIM_GAIN. -/
def execTrimRegWrite (τ : Tick) (p : PortId) (t c reg : Nat) (val : Word) (s : State) : Host.Outcome State Fault Refusal :=
  .next (s.onWrite τ p (tileAddr t (0x600 + 8 * c + 4 * reg)) 1 15 val)

/-- ORDER_HORIZON_WRITE. -/
def execOrderHorizonWrite (τ : Tick) (p : PortId) (val : Word) (s : State) : Host.Outcome State Fault Refusal :=
  .next (s.onWrite τ p 0x120 1 15 val)

/-- TB_NOW_LO_READ. -/
def execTbNowLoRead (τ : Tick) (p : PortId) (s : State) : Host.Outcome State Fault Refusal :=
  .next (s.onTick τ (State.latchNow p))

/-- VIT_CAPTURE: a write of VIT_SEL. -/
def execVitCapture (τ : Tick) (p : PortId) (t : Nat) (val : Word) (s : State) : Host.Outcome State Fault Refusal :=
  .next (s.onWrite τ p (tileAddr t 0x3C00) 1 15 val)

/-- REGISTER_WRITE: any other write in BAR0, of `dwords` words with byte enables `be`. -/
def execRegisterWrite (τ : Tick) (p : PortId) (addr dwords be : Nat) (val : Word) (s : State) : Host.Outcome State Fault Refusal :=
  .next (s.onWrite τ p addr dwords be val)

end Sys2Proof.Machine
end

