-- ==== Sys2Proof/Machine/StartHaps.lean ====
section
/-!
DEFINITION. Happenings at the supplies, resets, start-up and Fallow (12 R405 to R425), and the safe-state net's pin (09 R343,
R344).
-/
namespace Sys2Proof.Machine

/-- POWER_ON. -/
def execPowerOn (_τ : Tick) (lowMs : Nat) (vkaOk : Bool) (s : State) : Host.Outcome State Fault Refusal :=
  .next (s.powerOn lowMs vkaOk)

/-- BROWN_OUT. -/
def execBrownOut (τ : Tick) (s : State) : Host.Outcome State Fault Refusal := .next (s.advance τ).brownOut

/-- PORST_FALL. -/
def execPorstFall (τ : Tick) (s : State) : Host.Outcome State Fault Refusal := .next (s.advance τ).porst

/-- STARTUP: the timebase starts at 0 here (12 Table 12-4). -/
def execStartup (_τ : Tick) (chip recovN tmode : Bool) (vioMv : Nat) (s : State) : Host.Outcome State Fault Refusal :=
  .next (s.startup chip recovN tmode vioMv).finish

/-- BARRIER_TRANSFER_START. -/
def execBarrierTransferStart (τ : Tick) (t : Nat) (s : State) : Host.Outcome State Fault Refusal :=
  .next (s.onTick τ (State.tilePower t))

/-- STARTUP_COMPLETE. -/
def execStartupComplete (τ : Tick) (s : State) : Host.Outcome State Fault Refusal := .next (s.onTick τ State.completeStart)

/-- DEPOT_IMAGE_LOAD_END. -/
def execDepotImageLoadEnd (τ : Tick) (n : Nat) (ok : Bool) (s : State) : Host.Outcome State Fault Refusal :=
  .next (s.onSv τ (State.depotLoaded n ok))

/-- SUPPLY_THRESHOLD: no behaviour is specified beyond the ratings of the rail's pins (15 R453). -/
def execSupplyThreshold (τ : Tick) (rail : Nat) (mv : Int) (s : State) : Host.Outcome State Fault Refusal :=
  if railBeyond rail mv then .fault .beyondRatings else .next (s.onTick τ (State.railSample rail mv))

/-- BARRIER_TRANSFER_LOSS. -/
def execBarrierTransferLoss (τ : Tick) (t : Nat) (s : State) : Host.Outcome State Fault Refusal :=
  .next (s.onTick τ (State.barrierLoss t))

/-- BARRIER_TRANSFER_RESUME. -/
def execBarrierTransferResume (τ : Tick) (t : Nat) (s : State) : Host.Outcome State Fault Refusal :=
  .next (s.onTick τ (State.barrierResume t))

/-- VKA_LOSS. -/
def execVkaLoss (τ : Tick) (s : State) : Host.Outcome State Fault Refusal := .next (s.advance τ).loseVka

/-- FALLOW_ENTRY. -/
def execFallowEntry (_τ : Tick) (s : State) : Host.Outcome State Fault Refusal := .next s.enterFallow

/-- WAKE_CROSSING. -/
def execWakeCrossing (_τ : Tick) (s : State) : Host.Outcome State Fault Refusal := .next s.wake

/-- The level of the FSAFE_N pin while the device does not run (12 R420). -/
def State.fsafePin (level : Bool) (s : State) : State :=
  if s.power = .running then s else { s with dev := { s.dev with fsafe := level } }

/-- FSAFE_FALL. -/
def execFsafeFall (τ : Tick) (s : State) : Host.Outcome State Fault Refusal :=
  .next ((s.fsafePin false).onTick τ State.fsafeFall)

/-- FSAFE_RISE. -/
def execFsafeRise (τ : Tick) (s : State) : Host.Outcome State Fault Refusal :=
  .next ((s.fsafePin true).onTick τ State.fsafeRise)

/-- DEVICE_SCOPE_END. -/
def execDeviceScopeEnd (τ : Tick) (s : State) : Host.Outcome State Fault Refusal := .next (s.onTick τ State.endNet)

end Sys2Proof.Machine
end

