-- ==== Sys2Proof/Machine/StreamCmds.lean ====
section
/-!
DEFINITION. Ring commands on stream contexts, coefficient banks and serial ports (06 R225, R240 to R249; 07 Table 7-7; 11
Table 11-5).
-/
namespace Sys2Proof.Machine

/-- What a command on stream context `arg` needs. -/
def ctxNeeds (arg : Nat) : Cmd := { bad := argBad arg 512, own := [(2, arg)] }

/-- A start that CAPACITY refuses, with what the pipeline's registers show of it (06 R247 to R249). -/
def State.streamFull (p c : Nat) (port : PortId) (s : State) : Option State :=
  let T := s.tile p
  let P := s.pipe p
  let x := s.ctx p c
  let b := P.banks.getD x.bank {}
  let dem := P.committed + T.demand x b
  let mem := P.memUsed + x.memWords b
  let rate := T.streamRate x
  let modP (f : Pipe → Pipe) (s : State) : State := { s with pipes := updAt f p s.pipes }
  let no (f : Pipe → Pipe) : Option State := some ((modP f s).modCtx p c fun x => { x with adm := 2 })
  if 4800 < dem then no fun P => { P with demRef := sat 0xFFFF dem }
  else if 9216 < mem then no fun P => { P with memRef := sat 0xFFFF mem }
  else if 2000 < s.budget port + rate ∨ 3200 < s.budget .ha + s.budget .hb + rate then no id
  else none

/-- STREAM_START (06 R243): ring `ring` of the submitting port takes its blocks. -/
def State.streamStart (h : Hdr) (ring : Nat) (s : State) : State × Option Reply :=
  let p := h.arg / 32
  let c := h.arg % 32
  let x := s.ctx p c
  let q := (s.port h.port).ring ring
  if 64 ≤ ring || !(q.active && q.ty = 3 && q.block = x.blockN) then (s, some (badField 16))
  else if x.run || x.adm ≠ 0 || (s.tile p).ctxBad (s.pipe p) x then (s, some { st := 1 })
  else if x.grid && !((s.tile p).seq x.seqN).active then (s, some { st := 4 })
  else match s.streamFull p c h.port with
    | some s => (s, some { st := 9 })
    | none =>
      let s := s.startCtx p c h.port ring
      let x := s.ctx p c
      (s, some (Reply.ok (payload [(16, 4, x.delay), (20, 2, x.delayHalf), (22, 2, x.lset), (24, 4, s.budget h.port)])))

/-- STREAM_START. -/
def execStreamStart (h : Hdr) (ring : Nat) (s : State) : Host.Outcome State Fault Refusal :=
  .next (s.onRing h 0x50 (fun _ => ctxNeeds h.arg) (State.streamStart h ring))

/-- STREAM_STOP (06 R245). -/
def State.streamStop (h : Hdr) (s : State) : State × Option Reply :=
  let p := h.arg / 32
  let c := h.arg % 32
  if (s.ctx p c).run then (s.stopCtx p c 0 (some h), none) else (s, some (Reply.ok 0))

/-- STREAM_STOP. -/
def execStreamStop (h : Hdr) (s : State) : Host.Outcome State Fault Refusal :=
  .next (s.onRing h 0x51 (fun _ => ctxNeeds h.arg) (State.streamStop h))

/-- STREAM_SOURCE (06 R225): the same code weight and signedness, and for a grid context a slot of its sequence. -/
def State.streamSource (h : Hdr) (n : Nat) (s : State) : State × Option Reply :=
  let p := h.arg / 32
  let c := h.arg % 32
  let x := s.ctx p c
  let T := s.tile p
  let old := T.chan x.r.ch
  let new := T.chan n
  if !x.run || x.ending.isSome then (s, some { st := 4 })
  else if 32 ≤ n || !new.mode.streams || new.weight ≠ old.weight || new.signed ≠ old.signed ||
      (x.grid && ((T.seq x.seqN).slotOf n).isNone) then (s, some (badField 16))
  else
    let s := match x.r.pendSrc with | some (_, g) => s.reply g 0x52 { st := 6 } | none => s
    (s.modCtx p c fun x => { x with r := { x.r with pendSrc := some (n, h) } }, none)

/-- STREAM_SOURCE. -/
def execStreamSource (h : Hdr) (c : Nat) (s : State) : Host.Outcome State Fault Refusal :=
  .next (s.onRing h 0x52 (fun _ => ctxNeeds h.arg) (State.streamSource h c))

/-- BANK_LOAD (06 R240). -/
def State.bankLoad (arg : Nat) (image : List Int) (s : State) : State × Option Reply :=
  let p := arg / 4
  let k := arg % 4
  let put (f : CBank → CBank) (s : State) : State :=
    { s with pipes := updAt (fun P => { P with banks := updAt f k P.banks }) p s.pipes }
  if (s.pipe p).bankUsed k then (s, some { st := 4 })
  else if ({ words := image } : CBank).ok then (put (fun _ => { words := image, valid := true }) s, some (Reply.ok 0))
  else (put (fun b => { b with valid := false }) s, some { st := 1 })

/-- BANK_LOAD. -/
def execBankLoad (h : Hdr) (image : List Int) (s : State) : Host.Outcome State Fault Refusal :=
  .next (s.onRing h 0x53 (fun _ => { bad := argBad h.arg 64, own := [(3, h.arg)], locked := true }) (State.bankLoad h.arg image))

/-- Two banks cannot fade into one another in a context (06 R241). -/
def Ctx.banksDiffer (x : Ctx) (a b : CBank) : Bool :=
  (x.firEn && (a.nf ≠ b.nf || a.anti != b.anti)) || x.hbs.any (fun j => a.m j ≠ b.m j) || (x.resEn && a.t ≠ b.t)

/-- BANK_SELECT (06 R241). -/
def State.bankSelect (h : Hdr) (bank f : Nat) (s : State) : State × Option Reply :=
  let p := h.arg / 32
  let c := h.arg % 32
  let x := s.ctx p c
  let P := s.pipe p
  let b := P.banks.getD bank {}
  if !x.run || x.ending.isSome || x.r.fade.isSome then (s, some { st := 4 })
  else if f = 0 ∨ 1024 < f then (s, some (badField 18))
  else if 4 ≤ bank || (bank ≠ x.bankNow && (!b.valid || x.banksDiffer (P.inForce x) b)) then (s, some (badField 16))
  else if bank = x.bankNow then (s, some (Reply.ok 0))
  else if 4800 < P.committed + x.demand then (s, some { st := 9 })
  else (s.modCtx p c fun x => { x with r := { x.r with fade := some { dst := bank, f := f, i := 1, h := h } } }, none)

/-- BANK_SELECT. -/
def execBankSelect (h : Hdr) (bank f : Nat) (s : State) : Host.Outcome State Fault Refusal :=
  .next (s.onRing h 0x54 (fun _ => ctxNeeds h.arg) (State.bankSelect h bank f))

/-- SP_FRAME (11 R396, R401): ARG16 is 4·n + m. -/
def execSpFrame (h : Hdr) (rec : FrameRec) (resAddr : Nat) (readFails : Bool) (s : State) :
    Host.Outcome State Fault Refusal :=
  .next (s.onRing h 0x60 (fun _ => { bad := argBad h.arg 64, own := [(4, h.arg / 4)] }) (State.queueFrame h rec resAddr readFails))

/-- SP_ABORT (11 R399). -/
def execSpAbort (h : Hdr) (s : State) : Host.Outcome State Fault Refusal :=
  .next (s.onRing h 0x61 (fun _ => { bad := argBad h.arg 16, own := [(4, h.arg)] }) (State.abortFrames h.arg))

end Sys2Proof.Machine
end

