-- ==== Sys2Proof/Machine/TimeHaps.lean ====
section
/-!
DEFINITION. The timebase's SYNC alignment (02 R53 to R57): the alignment edges, the step and what it reaches, and the pin in
lead mode.
-/
namespace Sys2Proof.Machine

/-! ## What a step reaches (02 R56) -/

/-- What is due at a tick, with what it does. -/
abbrev DueAt := Tick × (State → State)

/-- An item put in its place by its tick; equal ticks keep their order. -/
def putDue (d : DueAt) : List DueAt → List DueAt
  | [] => [d]
  | x :: xs => if d.1 < x.1 then d :: x :: xs else x :: putDue d xs

/-- Everything of a list done in the order of its ticks. -/
def runDue (ds : List DueAt) (s : State) : State := forAll (fun (d : DueAt) s => d.2 s) (ds.foldl (fun l d => putDue d l) []) s

/-- The items whose tick lies after `lo` and not after `hi`. -/
def reached (lo hi : Tick) (ds : List DueAt) : List DueAt := ds.filter fun d => lo < d.1 && d.1 ≤ hi

/-- Acts while tile `t` is online. -/
def State.ifOnline (t : Nat) (f : State → State) (s : State) : State := if (s.tile t).online then f s else s

/-- The staged actions of a tile's outputs, at their commit ticks. -/
def Tile.commitDues (t : Nat) (T : Tile) : List DueAt :=
  T.chans.zipIdx.flatMap fun x => x.1.staged.map fun a => (a.commit, State.commitDue t x.2 fun d => d.key.1 ≤ a.commit)

/-- All but the first two TIMER ticks up to `hi`: those between them and the last are dropped (05 R195), and the last comes. -/
def State.timerRest (t n : Nat) (hi : Tick) (s : State) : State :=
  let q := (s.tile t).seq n
  let x := q.nextTick
  if hi < x || !(q.active && q.arm) then s
  else
    let k := (hi - x) / max q.period 1
    let s := s.modSeq t n fun q => { q with
      overrun := sat 0xFFFF (q.overrun + k), timer := if k = 0 then q.timer else x + (k - 1) * max q.period 1 }
    s.timerTrigger t n

/-- The TIMER ticks of a tile up to `hi`. -/
def Tile.timerDues (t : Nat) (hi : Tick) (T : Tile) : List DueAt :=
  T.seqs.zipIdx.flatMap fun x =>
    let q := x.1
    let p := max q.period 1
    let a := q.nextTick
    if q.active && q.arm && q.src = 1 then
      let act := State.ifOnline t (State.timerTrigger t x.2)
      [(a, act), (a + p, act), (max (a + 2 * p) (a + (hi - a) / p * p), State.ifOnline t (State.timerRest t x.2 hi))]
    else []

/-- The triggers that commands carried to a tile's sequences, and the deadlines of its scans. -/
def Tile.seqDues (t : Nat) (T : Tile) : List DueAt :=
  T.seqs.zipIdx.flatMap fun x =>
    x.1.future.map (fun f => (f.1, State.ifOnline t (State.heldTrigger t x.2))) ++
      match x.1.scan with
      | some sc => if x.1.deadline = 0 then [] else [(sc.trig + x.1.deadline, State.ifOnline t (State.missScan t x.2))]
      | none => []

/-- What a tile's copy of the timebase reaches between `lo` and `hi`. -/
def Tile.dues (t : Nat) (lo hi : Tick) (T : Tile) : List DueAt :=
  if T.powered then reached lo hi (T.commitDues t ++ (if T.online then T.timerDues t hi ++ T.seqDues t else [])) else []

/-- The decisions and commit ticks of the transactions. -/
def State.txnDues (s : State) : List DueAt :=
  s.txns.flatMap fun x =>
    (x.d, State.txnDecide x.h.port x.h.tag) ::
      x.tiles.map fun t => (x.c, fun s => if (s.tile t).powered then s.txnCommit x.h.port x.h.tag t else s)

/-- The deadlines of commands that wait, of queued injected conversions and of stream blocks that wait. -/
def State.waitDues (s : State) : List DueAt :=
  (s.fetched.map fun f => (f.desc.deadline, State.waitPast f.port f.ring f.cnt)) ++
    (tileNos.flatMap fun t => (s.tile t).cv.injQ.map fun e =>
      (e.h.deadline, State.ifOnline t (State.injPast t e.h.port e.h.ring e.h.cnt))) ++
    s.pipes.zipIdx.flatMap fun P => P.1.ctxs.zipIdx.flatMap fun x => match x.1.r.wait with
      | some b => [(b.deadline, State.deliveryPast P.2 x.2)]
      | none => []

/-- Everything that the step from state `b` to `s` skips. -/
def State.skipped (b s : State) : List DueAt :=
  (tileNos.flatMap fun t => (b.tile t).dues t (b.tnow t) (s.tnow t)) ++ reached b.now s.now (b.txnDues ++ b.waitDues)

/-- A forward step of the count to `x` (02 R54, R56): the copies of the tiles that hear the hub step with it; what it skips is
reached now, in the order of its ticks, and then the deadlines of scans that it started. -/
def State.stepTo (x : Tick) (s : State) : State :=
  let d := x - s.now
  let s1 := forAll (fun t (z : State) => z.modLink t fun L => { L with
      ofsAt := L.ofsAt + d, ofs := if (s.tile t).lost then L.ofs - d else L.ofs }) tileNos { s with now := x }
  forAll (fun t s => forAll (fun n s => s.ifOnline t (State.missScan t n)) (List.range 8) s) tileNos (runDue (s.skipped s1) s1)

/-! ## Edges -/

/-- The signed distance from the count to the nearest multiple of PERIOD (02 R53); of two equally near the lower one (log
6). -/
def syncDist (now period : Nat) : Int :=
  let r := now % max period 1
  if 2 * r ≤ period then -(r : Int) else (period : Int) - r

/-- That distance as OFFSET holds it (02 Table 2-5). -/
def syncOffset (now period : Nat) : Int := clampInt (-32767) 32767 (syncDist now period)

/-- A rising SYNC edge in follow mode (02 R54, R55, R57). At an edge that steps, OFFSET and ALIGNED are measured after the step
(log 6). -/
def State.syncEdge (s : State) : State :=
  let b := s.tb
  if b.mode ≠ 1 then s
  else
    let load := b.loadHi * 2 ^ 32 + b.loadLo
    let step := !b.edgeSeen && b.stepEn && load % max b.period 1 = 0 && s.now < load
    let s := if step then s.stepTo load else s
    let d := syncDist s.now b.period
    let s := { s with tb := { s.tb with
      edgeSeen := true, lastEdge := s.now, stepped := b.stepped || step, refused := b.refused || (!b.edgeSeen && b.stepEn && !step),
      offset := clampInt (-32767) 32767 d, aligned := d.natAbs ≤ 2, rate := d.sign, slewLeft := d.natAbs, noEdge := false } }
    s.endPresent 54 2

/-- In lead mode the count reaches a multiple of PERIOD: SYNC rises for 1 µs (02 R53). -/
def State.syncLead (s : State) : State :=
  if s.tb.mode = 2 ∧ s.now % max s.tb.period 1 = 0 then
    { s with tb := { s.tb with syncHigh := some s.now, pulses := s.tb.pulses + 1 } }
  else s

/-- The level that the device drives on SYNC in lead mode (02 R53). -/
def State.syncPin (s : State) : Bool :=
  s.tb.mode = 2 && match s.tb.syncHigh with | some x => decide (s.now < x + us) | none => false

/-- No SYNC edge within 1.5 × PERIOD in follow mode (02 R57). -/
def State.syncLost (s : State) : State :=
  let b := s.tb
  if b.mode = 1 ∧ 2 * b.lastEdge + 3 * b.period ≤ 2 * s.now ∧ !b.noEdge then
    ({ s with tb := { b with lost := true, aligned := false, noEdge := true } }).raise 54 2 0 0 0
  else s

/-- SYNC_EDGE. -/
def execSyncEdge (τ : Tick) (s : State) : Host.Outcome State Fault Refusal := .next (s.onTick τ State.syncEdge)

/-- SYNC_LEAD_PULSE. -/
def execSyncLeadPulse (τ : Tick) (s : State) : Host.Outcome State Fault Refusal := .next (s.onTick τ State.syncLead)

/-- SYNC_LOST. -/
def execSyncLost (τ : Tick) (s : State) : Host.Outcome State Fault Refusal := .next (s.onTick τ State.syncLost)

end Sys2Proof.Machine
end

