-- ==== Sys2Proof/Machine/UpdateCmds.lean ====
section
/-!
DEFINITION. Ring commands of the firmware update (10 Table 10-9).
-/
namespace Sys2Proof.Machine

/-- What the session rule refuses (10 R364). -/
def State.sessionBad (h : Hdr) (s : State) : Option Reply := if s.sessionLets h.port then none else some { st := 2 }

/-- What an update command in recovery as well as in service needs. -/
def State.updNeeds (h : Hdr) (s : State) : Cmd := { bad := s.sessionBad h, recov := true }

/-- IMAGE_WRITE (10 R365). -/
def execImageWrite (h : Hdr) (kiln : Bool) (offset len : Nat) (bytes : List Byte) (storeFails : Bool) (s : State) :
    Host.Outcome State Fault Refusal :=
  .next (s.onRing h 0x80 (fun s => { s.updNeeds h with
      bad := (s.sessionBad h).or ((writeBad kiln offset len bytes).map badField) })
    (State.imageWrite h kiln offset len bytes storeFails))

/-- IMAGE_VERIFY (10 R362, R366). -/
def execImageVerify (h : Hdr) (kiln storeFails : Bool) (s : State) : Host.Outcome State Fault Refusal :=
  .next (s.onRing h 0x81 (fun s => s.updNeeds h) (State.imageVerify h kiln storeFails))

/-- The session, and no channel owned by the other port (10 R367, R381). -/
def State.activateBad (h : Hdr) (s : State) : Option Reply := (s.sessionBad h).or (s.peerOwns h.port 0 512)

/-- The trial time is out of range (10 R371). -/
def secsBad (secs : Nat) : Bool := secs ≠ 0 && (secs < 10 || 86400 < secs)

/-- IMAGE_ACTIVATE without RESTART (10 R367 to R369): not with DEFAULTS. -/
def State.liveCmd (h : Hdr) (dflt : Bool) (secs : Nat) (s : State) : State × Option Reply :=
  if s.canActivate && s.tiles.all (fun T => T.link.life = .online) && (dflt || secsBad secs) then (s, some (badField (if dflt then 16 else 20))) else s.activateLive h secs

/-- IMAGE_ACTIVATE in live mode. -/
def execImageActivateLive (h : Hdr) (defaults : Bool) (secs : Nat) (s : State) : Host.Outcome State Fault Refusal :=
  .next (s.onRing h 0x82 (fun s => { bad := s.activateBad h, locked := true }) (State.liveCmd h defaults secs))

/-- IMAGE_ACTIVATE with RESTART (10 R370). -/
def State.restartCmd (h : Hdr) (dflt : Bool) (secs : Nat) (s : State) : State × Option Reply :=
  if s.canActivate && secsBad secs then (s, some (badField 20)) else s.activateRestart h dflt secs

/-- IMAGE_ACTIVATE in restart mode. -/
def execImageActivateRestart (h : Hdr) (defaults : Bool) (secs : Nat) (s : State) : Host.Outcome State Fault Refusal :=
  .next (s.onRing h 0x82 (fun s => { bad := s.activateBad h, recov := true, locked := true }) (State.restartCmd h defaults secs))

/-- IMAGE_CONFIRM (10 R372). -/
def execImageConfirm (h : Hdr) (storeFails : Bool) (s : State) : Host.Outcome State Fault Refusal :=
  .next (s.onRing h 0x83 (fun s => { bad := s.sessionBad h }) (State.confirm storeFails))

/-- IMAGE_REVERT (10 R371, R373). -/
def execImageRevert (h : Hdr) (s : State) : Host.Outcome State Fault Refusal :=
  .next (s.onRing h 0x84 (fun s => { bad := s.sessionBad h }) (State.imageRevert h))

/-- IMAGE_RECOVER (10 R381). -/
def execImageRecover (h : Hdr) (s : State) : Host.Outcome State Fault Refusal :=
  .next (s.onRing h 0x85 (fun s => { bad := s.activateBad h, locked := true }) fun s => (s.imageRecover h, none))

/-- SETTINGS_SAVE (10 R375). -/
def execSettingsSave (h : Hdr) (s : State) : Host.Outcome State Fault Refusal :=
  .next (s.onRing h 0x86 (fun s => { bad := s.sessionBad h }) (State.settingsSave h))

/-- IMAGE_ERASE (10 Table 10-9). -/
def execImageErase (h : Hdr) (s : State) : Host.Outcome State Fault Refusal :=
  .next (s.onRing h 0x87 (fun s => s.updNeeds h) (State.imageErase h))

end Sys2Proof.Machine
end

