-- ==== Sys2Proof/Machine/Dispatch.lean ====
section
/-!
DEFINITION. One arm per command: a direct call of its meaning.
-/
namespace Sys2Proof.Machine

def exec (i : Instr) (s : State) : Host.Outcome State Fault Refusal :=
  match i with
  | .nop h => Sys2Proof.Machine.execNop h s
  | .timeRead h => Sys2Proof.Machine.execTimeRead h s
  | .chMode h mode par carry cfg diag => Sys2Proof.Machine.execChMode h mode par carry cfg diag s
  | .outSet h commit value => Sys2Proof.Machine.execOutSet h commit value s
  | .mirForceOff h commit => Sys2Proof.Machine.execMirForceOff h commit s
  | .mirForceOn h commit => Sys2Proof.Machine.execMirForceOn h commit s
  | .mirRelease h commit => Sys2Proof.Machine.execMirRelease h commit s
  | .outCancel h => Sys2Proof.Machine.execOutCancel h s
  | .chTrimSet h ofs gain => Sys2Proof.Machine.execChTrimSet h ofs gain s
  | .chTrimZero h => Sys2Proof.Machine.execChTrimZero h s
  | .chTrimSpan h ref => Sys2Proof.Machine.execChTrimSpan h ref s
  | .chTrimReset h => Sys2Proof.Machine.execChTrimReset h s
  | .rfxWrite h cond qual thr act => Sys2Proof.Machine.execRfxWrite h cond qual thr act s
  | .rfxEnable h en => Sys2Proof.Machine.execRfxEnable h en s
  | .rfxStatus h => Sys2Proof.Machine.execRfxStatus h s
  | .seqArm h => Sys2Proof.Machine.execSeqArm h s
  | .seqDisarm h => Sys2Proof.Machine.execSeqDisarm h s
  | .seqTrigger h tick => Sys2Proof.Machine.execSeqTrigger h tick s
  | .inject h slot => Sys2Proof.Machine.execInject h slot s
  | .calibrate h conv => Sys2Proof.Machine.execCalibrate h conv s
  | .calibrateExcl h conv => Sys2Proof.Machine.execCalibrateExcl h conv s
  | .streamStart h ring => Sys2Proof.Machine.execStreamStart h ring s
  | .streamStop h => Sys2Proof.Machine.execStreamStop h s
  | .streamSource h c => Sys2Proof.Machine.execStreamSource h c s
  | .bankLoad h image => Sys2Proof.Machine.execBankLoad h image s
  | .bankSelect h bank f => Sys2Proof.Machine.execBankSelect h bank f s
  | .spFrame h rec resAddr readFails => Sys2Proof.Machine.execSpFrame h rec resAddr readFails s
  | .spAbort h => Sys2Proof.Machine.execSpAbort h s
  | .faultAck h mask => Sys2Proof.Machine.execFaultAck h mask s
  | .logRead h log count addr start => Sys2Proof.Machine.execLogRead h log count addr start s
  | .tileOffline h => Sys2Proof.Machine.execTileOffline h s
  | .tileReadmit h => Sys2Proof.Machine.execTileReadmit h s
  | .rotate h newImg => Sys2Proof.Machine.execRotate h newImg s
  | .imageWrite h kiln offset len bytes storeFails => Sys2Proof.Machine.execImageWrite h kiln offset len bytes storeFails s
  | .imageVerify h kiln storeFails => Sys2Proof.Machine.execImageVerify h kiln storeFails s
  | .imageActivateLive h defaults secs => Sys2Proof.Machine.execImageActivateLive h defaults secs s
  | .imageActivateRestart h defaults secs => Sys2Proof.Machine.execImageActivateRestart h defaults secs s
  | .imageConfirm h storeFails => Sys2Proof.Machine.execImageConfirm h storeFails s
  | .imageRevert h => Sys2Proof.Machine.execImageRevert h s
  | .imageRecover h => Sys2Proof.Machine.execImageRecover h s
  | .settingsSave h => Sys2Proof.Machine.execSettingsSave h s
  | .imageErase h => Sys2Proof.Machine.execImageErase h s
  | .catRead h start count addr => Sys2Proof.Machine.execCatRead h start count addr s
  | .catWrite h start count words => Sys2Proof.Machine.execCatWrite h start count words s
  | .lock h key => Sys2Proof.Machine.execLock h key s
  | .unlock h key => Sys2Proof.Machine.execUnlock h key s
  | .claim h cls first => Sys2Proof.Machine.execClaim h cls first s
  | .release h cls first => Sys2Proof.Machine.execRelease h cls first s
  | .handover h cls first => Sys2Proof.Machine.execHandover h cls first s
  | .takeover h cls first => Sys2Proof.Machine.execTakeover h cls first s
  | .ownerQuery h cls first => Sys2Proof.Machine.execOwnerQuery h cls first s
  | .txnSubmit h commit members => Sys2Proof.Machine.execTxnSubmit h commit members s
  | .txnCancel h tag => Sys2Proof.Machine.execTxnCancel h tag s
  | .doorbellPoll tick p prods fails => Sys2Proof.Machine.execDoorbellPoll tick p prods fails s
  | .nudge tick p offset val => Sys2Proof.Machine.execNudge tick p offset val s
  | .descriptorFetch tick p ring d => Sys2Proof.Machine.execDescriptorFetch tick p ring d s
  | .commandWaitDeadline tick p ring cnt => Sys2Proof.Machine.execCommandWaitDeadline tick p ring cnt s
  | .msixMessage tick p ring => Sys2Proof.Machine.execMsixMessage tick p ring s
  | .ringError tick p ring kind => Sys2Proof.Machine.execRingError tick p ring kind s
  | .ringEnable tick p ring val => Sys2Proof.Machine.execRingEnable tick p ring val s
  | .ringDisable tick p ring val => Sys2Proof.Machine.execRingDisable tick p ring val s
  | .portEnable tick p val => Sys2Proof.Machine.execPortEnable tick p val s
  | .portReset tick p perst => Sys2Proof.Machine.execPortReset tick p perst s
  | .portLiveChange tick p linkUp busMaster speed width l1 => Sys2Proof.Machine.execPortLiveChange tick p linkUp busMaster speed width l1 s
  | .channelRegWrite tick p t c reg val => Sys2Proof.Machine.execChannelRegWrite tick p t c reg val s
  | .seqCfgArm tick p t n val => Sys2Proof.Machine.execSeqCfgArm tick p t n val s
  | .seqCfgDisarm tick p t n val => Sys2Proof.Machine.execSeqCfgDisarm tick p t n val s
  | .refEnable tick p t val => Sys2Proof.Machine.execRefEnable tick p t val s
  | .refDisable tick p t val => Sys2Proof.Machine.execRefDisable tick p t val s
  | .refReady tick t dev => Sys2Proof.Machine.execRefReady tick t dev s
  | .injCfgWrite tick p t val => Sys2Proof.Machine.execInjCfgWrite tick p t val s
  | .doTestWrite tick p t val => Sys2Proof.Machine.execDoTestWrite tick p t val s
  | .rfxRegWrite tick p t r reg val => Sys2Proof.Machine.execRfxRegWrite tick p t r reg val s
  | .rfxLatClear tick p t val => Sys2Proof.Machine.execRfxLatClear tick p t val s
  | .trimRegWrite tick p t c reg val => Sys2Proof.Machine.execTrimRegWrite tick p t c reg val s
  | .orderHorizonWrite tick p val => Sys2Proof.Machine.execOrderHorizonWrite tick p val s
  | .tbNowLoRead tick p => Sys2Proof.Machine.execTbNowLoRead tick p s
  | .vitCapture tick p t val => Sys2Proof.Machine.execVitCapture tick p t val s
  | .registerWrite tick p addr dwords be val => Sys2Proof.Machine.execRegisterWrite tick p addr dwords be val s
  | .powerOn tick lowMs vkaOk => Sys2Proof.Machine.execPowerOn tick lowMs vkaOk s
  | .brownOut tick => Sys2Proof.Machine.execBrownOut tick s
  | .porstFall tick => Sys2Proof.Machine.execPorstFall tick s
  | .startup tick chip recovN tmode vioMv => Sys2Proof.Machine.execStartup tick chip recovN tmode vioMv s
  | .barrierTransferStart tick t => Sys2Proof.Machine.execBarrierTransferStart tick t s
  | .startupComplete tick => Sys2Proof.Machine.execStartupComplete tick s
  | .depotImageLoadEnd tick n ok => Sys2Proof.Machine.execDepotImageLoadEnd tick n ok s
  | .supplyThreshold tick rail mv => Sys2Proof.Machine.execSupplyThreshold tick rail mv s
  | .barrierTransferLoss tick t => Sys2Proof.Machine.execBarrierTransferLoss tick t s
  | .barrierTransferResume tick t => Sys2Proof.Machine.execBarrierTransferResume tick t s
  | .vkaLoss tick => Sys2Proof.Machine.execVkaLoss tick s
  | .fallowEntry tick => Sys2Proof.Machine.execFallowEntry tick s
  | .wakeCrossing tick => Sys2Proof.Machine.execWakeCrossing tick s
  | .fsafeFall tick => Sys2Proof.Machine.execFsafeFall tick s
  | .deviceScopeEnd tick => Sys2Proof.Machine.execDeviceScopeEnd tick s
  | .syncEdge tick => Sys2Proof.Machine.execSyncEdge tick s
  | .syncLeadPulse tick => Sys2Proof.Machine.execSyncLeadPulse tick s
  | .syncLost tick => Sys2Proof.Machine.execSyncLost tick s
  | .inputCrossing tick t c level => Sys2Proof.Machine.execInputCrossing tick t c level s
  | .sieveAccession tick t c => Sys2Proof.Machine.execSieveAccession tick t c s
  | .chatterWindowEnd tick t c => Sys2Proof.Machine.execChatterWindowEnd tick t c s
  | .stuckTimeout tick t c => Sys2Proof.Machine.execStuckTimeout tick t c s
  | .dicGateEnd tick t c => Sys2Proof.Machine.execDicGateEnd tick t c s
  | .trimButtonHold tick t c => Sys2Proof.Machine.execTrimButtonHold tick t c s
  | .trimButtonStuck tick t c => Sys2Proof.Machine.execTrimButtonStuck tick t c s
  | .trimCaptureTimeout tick t c => Sys2Proof.Machine.execTrimCaptureTimeout tick t c s
  | .trimSaveTimer tick => Sys2Proof.Machine.execTrimSaveTimer tick s
  | .txnMemberArrival tick p tag t => Sys2Proof.Machine.execTxnMemberArrival tick p tag t s
  | .txnReady tick p tag t => Sys2Proof.Machine.execTxnReady tick p tag t s
  | .txnDecision tick p tag => Sys2Proof.Machine.execTxnDecision tick p tag s
  | .txnDecisionArrival tick p tag t => Sys2Proof.Machine.execTxnDecisionArrival tick p tag t s
  | .txnCommit tick p tag t => Sys2Proof.Machine.execTxnCommit tick p tag t s
  | .txnAccessionReport tick p tag t => Sys2Proof.Machine.execTxnAccessionReport tick p tag t s
  | .outputActionArrival tick p ring cnt => Sys2Proof.Machine.execOutputActionArrival tick p ring cnt s
  | .outputCommit tick t c => Sys2Proof.Machine.execOutputCommit tick t c s
  | .shortGndDetect tick t c => Sys2Proof.Machine.execShortGndDetect tick t c s
  | .overloadRetry tick t c => Sys2Proof.Machine.execOverloadRetry tick t c s
  | .thermalShutdown tick t c => Sys2Proof.Machine.execThermalShutdown tick t c s
  | .thermalReenable tick t c => Sys2Proof.Machine.execThermalReenable tick t c s
  | .overDecl tick t c => Sys2Proof.Machine.execOverDecl tick t c s
  | .openOn tick t c low => Sys2Proof.Machine.execOpenOn tick t c low s
  | .offStateCheck tick t c mv => Sys2Proof.Machine.execOffStateCheck tick t c mv s
  | .darkPulse tick t c ua pins => Sys2Proof.Machine.execDarkPulse tick t c ua pins s
  | .pinClamp tick t c acting mv => Sys2Proof.Machine.execPinClamp tick t c acting mv s
  | .surge tick t c mv clampMa => Sys2Proof.Machine.execSurge tick t c mv clampMa s
  | .surgeEnd tick t c => Sys2Proof.Machine.execSurgeEnd tick t c s
  | .lplusSample tick t cv => Sys2Proof.Machine.execLplusSample tick t cv s
  | .reenergiseSlot tick t => Sys2Proof.Machine.execReenergiseSlot tick t s
  | .aoReadback tick t c r => Sys2Proof.Machine.execAoReadback tick t c r s
  | .crailSample tick t dv => Sys2Proof.Machine.execCrailSample tick t dv s
  | .aiiFoldback tick t c => Sys2Proof.Machine.execAiiFoldback tick t c s
  | .aiiRetry tick t c ua => Sys2Proof.Machine.execAiiRetry tick t c ua s
  | .excitationCycleCheck tick t c limited na => Sys2Proof.Machine.execExcitationCycleCheck tick t c limited na s
  | .mirrorPeriodStart tick t c => Sys2Proof.Machine.execMirrorPeriodStart tick t c s
  | .tileTempSample tick t cjcA cjcB tdie => Sys2Proof.Machine.execTileTempSample tick t cjcA cjcB tdie s
  | .seqTimerTrigger tick t n => Sys2Proof.Machine.execSeqTimerTrigger tick t n s
  | .heldTriggerRelease tick t n => Sys2Proof.Machine.execHeldTriggerRelease tick t n s
  | .slotStart tick t n => Sys2Proof.Machine.execSlotStart tick t n s
  | .conversionEnd tick t conv x => Sys2Proof.Machine.execConversionEnd tick t conv x s
  | .rangingReattempt tick t conv => Sys2Proof.Machine.execRangingReattempt tick t conv s
  | .dmdResult tick t d => Sys2Proof.Machine.execDmdResult tick t d s
  | .scanDeadline tick t n => Sys2Proof.Machine.execScanDeadline tick t n s
  | .speculativeScanStart tick t n => Sys2Proof.Machine.execSpeculativeScanStart tick t n s
  | .specConfirmTimeout tick t n => Sys2Proof.Machine.execSpecConfirmTimeout tick t n s
  | .injectStart tick t conv => Sys2Proof.Machine.execInjectStart tick t conv s
  | .injectDeadline tick t p ring cnt => Sys2Proof.Machine.execInjectDeadline tick t p ring cnt s
  | .calPeriodStart tick t => Sys2Proof.Machine.execCalPeriodStart tick t s
  | .calStep tick t conv coef bad => Sys2Proof.Machine.execCalStep tick t conv coef bad s
  | .refCompare tick t dev => Sys2Proof.Machine.execRefCompare tick t dev s
  | .lineChangeHub tick l => Sys2Proof.Machine.execLineChangeHub tick l s
  | .lineChangeTile tick t l => Sys2Proof.Machine.execLineChangeTile tick t l s
  | .watchdogService tick t => Sys2Proof.Machine.execWatchdogService tick t s
  | .watchdogExpiry tick t => Sys2Proof.Machine.execWatchdogExpiry tick t s
  | .laneFailure tick t lanes => Sys2Proof.Machine.execLaneFailure tick t lanes s
  | .linkReturn tick t lanes => Sys2Proof.Machine.execLinkReturn tick t lanes s
  | .eventArrivalMerge tick src => Sys2Proof.Machine.execEventArrivalMerge tick src s
  | .eventRelease tick => Sys2Proof.Machine.execEventRelease tick s
  | .horizonEpisodeEnd tick => Sys2Proof.Machine.execHorizonEpisodeEnd tick s
  | .pipelineInput tick p => Sys2Proof.Machine.execPipelineInput tick p s
  | .blockTimeout tick p x => Sys2Proof.Machine.execBlockTimeout tick p x s
  | .streamDeliveryDeadline tick p x => Sys2Proof.Machine.execStreamDeliveryDeadline tick p x s
  | .rotationLoadEnd tick ok => Sys2Proof.Machine.execRotationLoadEnd tick ok s
  | .rotationPrecopyEnd tick snapOk => Sys2Proof.Machine.execRotationPrecopyEnd tick snapOk s
  | .rotationGapStart tick => Sys2Proof.Machine.execRotationGapStart tick s
  | .rotationHandover tick => Sys2Proof.Machine.execRotationHandover tick s
  | .rotationGapTimeout tick => Sys2Proof.Machine.execRotationGapTimeout tick s
  | .repairHandover tick t => Sys2Proof.Machine.execRepairHandover tick t s
  | .tileOfflineComplete tick t => Sys2Proof.Machine.execTileOfflineComplete tick t s
  | .readmissionComplete tick t ok lanes => Sys2Proof.Machine.execReadmissionComplete tick t ok lanes s
  | .sramScrub tick bank row single => Sys2Proof.Machine.execSramScrub tick bank row single s
  | .sramDoubleBitError tick bank row item => Sys2Proof.Machine.execSramDoubleBitError tick bank row item s
  | .railAdjust tick k margin => Sys2Proof.Machine.execRailAdjust tick k margin s
  | .marginRecovery tick k => Sys2Proof.Machine.execMarginRecovery tick k s
  | .retentionEntry tick k => Sys2Proof.Machine.execRetentionEntry tick k s
  | .powerReportRenewal tick draws => Sys2Proof.Machine.execPowerReportRenewal tick draws s
  | .presentEnd tick k src => Sys2Proof.Machine.execPresentEnd tick k src s
  | .selfchkCompare tick k diff => Sys2Proof.Machine.execSelfchkCompare tick k diff s
  | .netCheck tick => Sys2Proof.Machine.execNetCheck tick s
  | .aliveGateService tick => Sys2Proof.Machine.execAliveGateService tick s
  | .aliveGateTimeout tick => Sys2Proof.Machine.execAliveGateTimeout tick s
  | .hubTempSample tick tj => Sys2Proof.Machine.execHubTempSample tick tj s
  | .stormWindowEnd tick => Sys2Proof.Machine.execStormWindowEnd tick s
  | .plogMirrorWrite tick fails => Sys2Proof.Machine.execPlogMirrorWrite tick fails s
  | .sessionTimeout tick => Sys2Proof.Machine.execSessionTimeout tick s
  | .activationSvSwitch tick ok => Sys2Proof.Machine.execActivationSvSwitch tick ok s
  | .trialExpiry tick => Sys2Proof.Machine.execTrialExpiry tick s
  | .spFrameStart tick n => Sys2Proof.Machine.execSpFrameStart tick n s
  | .spFrameEnd tick n words edges => Sys2Proof.Machine.execSpFrameEnd tick n words edges s
  | .svLockstepMismatch tick => Sys2Proof.Machine.execSvLockstepMismatch tick s
  | .fsafeRise tick => Sys2Proof.Machine.execFsafeRise tick s
  | .linkFrameCorrupted tick t lane => Sys2Proof.Machine.execLinkFrameCorrupted tick t lane s
  | .sckrStrayEdge tick n => Sys2Proof.Machine.execSckrStrayEdge tick n s
  | .pcieUncorrectableError tick p status => Sys2Proof.Machine.execPcieUncorrectableError tick p status s
  | .aliveEdge tick => Sys2Proof.Machine.execAliveEdge tick s

end Sys2Proof.Machine
end

