-- ==== Sys2Proof/Safety.lean ====
section
/-!
DEFINITION. The words in which statements about the machine are made: when a ring command may act, what a state must hold
for the rest of a step to add nothing, and bundles of state for frames.
-/
namespace Sys2Proof.Machine

/-! ## When a command acts -/

/-- The device runs, outside the grave hold and with start-up COMPLETE (12 R409, R419; 09 R339). -/
def State.inService (s : State) : Bool := s.power = .running && !s.dev.grave && s.complete

/-- The state at a ring command's tick, with the command fetched. -/
def State.fetchedAt (h : Hdr) (op : Nat) (s : State) : State := (s.advance h.at_).taken h op

/-- The state in which a ring command of opcode `op` acts: at its tick, in execution and no longer among those that wait to
begin, its margin to its deadline kept, and the block that executes it at work. -/
def State.begins (h : Hdr) (op : Nat) (s : State) : State :=
  (((s.fetchedAt h op).begun h).cmdMargin h op).rouse (((s.fetchedAt h op).engOf op h.arg).getD 54)

/-- A command of the hub may act: the device is in service, the command's turn has come (07 R264, R266), its port owns every
resource of `own` as ownership stood before this tick (07 R268, R282), its deadline has not passed (07 R266), and where it is
locked by SETUP_LOCK the lock is off (14 R447). -/
def State.lets (h : Hdr) (op : Nat) (own : List (Nat × Nat)) (lock : Bool) (s : State) : Bool :=
  s.inService && (s.fetchedAt h op).turn h op && (own.all fun x => decide ((s.advance h.at_).owner x.1 x.2 = some h.port)) &&
    !(s.advance h.at_).past h && !(lock && (s.advance h.at_).locked)

/-- At tick `τ` tile `t` is in service with an engine that takes commands (01 R37; 08 R310, R320). -/
def State.serves (τ : Tick) (t : Nat) (s : State) : Bool :=
  !s.engineless t && (s.tile t).link.life = .online && (s.tile t).bound && !(s.advance τ).holdsBack t

/-- The state in which a happening at tile `t` acts: at its tick, with the tile's engine block at work (08 R323). -/
def State.atTile (τ : Tick) (t : Nat) (s : State) : State := (s.advance τ).rouse (35 + t)

/-- Nothing follows a command within its step: no reaction waits, no repair waits, and no live activation or revert is under
way. -/
def State.quiet (s : State) : Bool :=
  s.dev.todo.isEmpty && s.rot.repairs.isEmpty && s.upd.stage ≠ .activating && s.upd.stage ≠ .reverting

/-! ## Commands by what they may change -/

end Sys2Proof.Machine

namespace Sys2Proof

/-- The happenings that act while the device does not run: supplies, reset, start-up, and the wake and FSAFE pins. -/
def Instr.whileStopped : Instr → Bool
  | .powerOn _ _ _ | .brownOut _ | .porstFall _ | .startup _ _ _ _ _ | .vkaLoss _ | .fallowEntry _ | .wakeCrossing _
  | .fsafeFall _ | .fsafeRise _ => true
  | _ => false

/-- The commands that write registers of BAR0. -/
def Instr.writes : Instr → Bool
  | .ringEnable _ _ _ _ | .ringDisable _ _ _ _ | .portEnable _ _ _ | .channelRegWrite _ _ _ _ _ _ | .seqCfgArm _ _ _ _ _
  | .seqCfgDisarm _ _ _ _ _ | .refEnable _ _ _ _ | .refDisable _ _ _ _ | .injCfgWrite _ _ _ _ | .doTestWrite _ _ _ _
  | .rfxRegWrite _ _ _ _ _ _ | .rfxLatClear _ _ _ _ | .trimRegWrite _ _ _ _ _ _ | .orderHorizonWrite _ _ _
  | .vitCapture _ _ _ _ | .registerWrite _ _ _ _ _ _ | .catWrite _ _ _ _ => true
  | _ => false

/-- The commands that restart the device, restore its settings, or may do so. -/
def Instr.restarts : Instr → Bool
  | .powerOn _ _ _ | .brownOut _ | .porstFall _ | .startup _ _ _ _ _ | .startupComplete _ | .fallowEntry _
  | .imageActivateRestart _ _ _ | .imageRevert _ | .imageRecover _ | .trialExpiry _ => true
  | _ => false

/-- The commands that may change settings. -/
def Instr.sets (i : Instr) : Bool :=
  i.writes || i.restarts || match i with
    | .chMode _ _ _ _ _ _ | .rfxWrite _ _ _ _ _ | .rfxEnable _ _ | .seqArm _ => true
    | _ => false

/-- A happening whose measured value lies within the absolute maximum ratings of its pins (15 R453). -/
def Instr.withinRatings : Instr → Bool
  | .pinClamp _ _ _ _ mv => !Machine.pinBeyond mv 0
  | .surge _ _ _ mv ma => !Machine.pinBeyond mv ma
  | .lplusSample _ _ cv => !Machine.lplusBeyond cv
  | .supplyThreshold _ rail mv => !Machine.railBeyond rail mv
  | _ => true

/-- The happenings of rotations and repairs, after which commands that waited for an engine are executed (01 R37). -/
def Instr.resumes : Instr → Bool
  | .rotationLoadEnd _ _ | .rotationPrecopyEnd _ _ | .rotationGapStart _ | .rotationHandover _ | .rotationGapTimeout _
  | .repairHandover _ _ | .readmissionComplete _ _ _ _ => true
  | _ => false

/-- The commands that may change lock, ownership, supplies, hub temperature, power or, beyond its advance, the hub count. -/
def Instr.steers (i : Instr) : Bool :=
  i.writes || i.restarts || match i with
    | .lock _ _ | .unlock _ _ | .claim _ _ _ | .release _ _ _ | .handover _ _ _ | .takeover _ _ _ | .syncEdge _
    | .supplyThreshold _ _ _ | .hubTempSample _ _ | .vkaLoss _ | .wakeCrossing _ => true
    | _ => false

end Sys2Proof

namespace Sys2Proof.Machine

/-! ## Bundles of state -/

/-- The bytes of the store and the identity words. -/
def Persist.kept (p : Persist) : List Host.Cell × Nat × Nat × Nat × Nat × Nat :=
  (p.cells, p.revId, p.hwType, p.pciVendor, p.pciSubsys, p.unitId)

/-- MODE, PAR, CH_CFG and CH_DIAG of a channel. -/
def Chan.setting (c : Chan) : Mode × Nat × Word × Word := (c.mode, c.par, c.cfg, c.diag)
/-- The four registers of a rule. -/
def Rule.setting (r : Rule) : Word × Word × Word × Word := (r.cond, r.qual, r.thr, r.act)
/-- The registers of a sequence. -/
def Seq.setting (q : Seq) : Word × Nat × Nat × Nat × Nat × List Word :=
  (q.cfg, q.period, q.phase, q.deadline, q.specTol, q.slots)
/-- The writable fields of a tile's converter registers, REF_EN apart. -/
def ConvUnit.setting (u : ConvUnit) : Bool × Bool × Nat × Nat × Nat × Nat :=
  (u.align, u.calAuto, u.calDt, u.calPeriod, u.injGap, u.injW)
/-- What software sets on a tile. -/
def Tile.settings (T : Tile) :=
  (T.chans.map Chan.setting, T.rules.map Rule.setting, T.seqs.map Seq.setting, T.cv.setting, T.chatN, T.chatW, T.tpWidth,
    T.tpPeriod, T.mirs, T.cjcFixed, T.saf.timeout)
/-- The five registers of a stream context. -/
def Ctx.setting (x : Ctx) := (x.src, x.struct, x.res, x.det, x.deliv)
/-- What software sets on a pipeline. -/
def Pipe.settings (P : Pipe) := P.ctxs.map Ctx.setting
/-- CLASS and the reactions of a fault source. -/
def Src.setting (x : Src) := (x.cls, x.react)
/-- What software sets on a fault block. -/
def FBlk.settings (b : FBlk) := (b.srcs.map Src.setting, b.vecHa, b.vecHb, b.esc2, b.esc3, b.esc4)
/-- What software sets by the configuration registers of tiles, pipelines, fault blocks, timebase, Archive and merge. -/
def State.settings (s : State) :=
  (s.tiles.map Tile.settings, s.pipes.map Pipe.settings, s.blks.map FBlk.settings, s.tb.mode, s.tb.stepEn, s.tb.period,
    s.scaleEn, s.archKind, s.merge.horizon)

/-- SETUP_LOCK, ownership in force, supplies, hub temperature, the hub count and the state of power. -/
def State.control (s : State) : Lock × Owners × Supply × Therm × Tick × Power :=
  (s.lock, s.own.tab, s.sup, s.therm, s.now, s.power)

/-- What a step answers when it answers a state. -/
def answer (o : Host.Outcome State Fault Refusal) (P : State → Prop) : Prop :=
  match o with
  | .next v => P v
  | _ => True

/-! ## Safe runs -/

/-- What a safe run keeps: the store in its canonical form, and no reaction left waiting between commands. -/
def State.sound (s : State) : Bool := Memory.wf s.per.cells && s.dev.todo.isEmpty

end Sys2Proof.Machine
end

