-- ==== Sys2Proof/Certificates/Slice0/Obligations.lean ====
section
/-!
DEFINITION. The statements about the machine that provers take up: what each command does in the machine, what it leaves
alone, and the invariants of every step. OBLIGATIONS.json lists them with the rules of the specification they rest on.
-/

section

open Sys2Proof Sys2Proof.Machine

/-- A step runs the command at the front of the queue with the rest of the queue. For every command c and state s: a step
of s with c at the front of its queue is exec of c on s with the queue's rest. The queue is the model's own (log 1).
(The queue of commands is the model's form of the block's input, log entry 1.) Rests on 07_host_ports_rings.md R266. -/
def Obligations.StepRunsFrontCommand : Prop :=
  ∀ (c : Instr) (cs : List Instr) (s : State),
    step { s with pending := c :: cs } = exec c { s with pending := cs }

/-- With an empty queue a step is one idle tick: the count advances by one, or slews by one tick in 5,000, and nothing
else changes. A step of a state with an empty queue answers the state itself while the device does not run. While it
runs, the hub count advances by one tick; in follow mode with an offset to correct, every 5,000th idle tick instead
gains a tick (two counts) where the count lags and omits one where it leads, and the tick corrected is taken off those
left, except while SYNC is lost; nothing but the count and the slewing counters changes (DESIGN CHOICE of log 1: the
idle step is one tick). (That an idle step counts one tick is the model's choice, log entry 1.) Rests on
02_accession_time_order.md R50; 02_accession_time_order.md R55; 02_accession_time_order.md R57. -/
def Obligations.IdleStepCountsOneTick : Prop :=
  ∀ s : State, s.pending = [] →
    let b := s.tb
    let at_ (now cnt left : Nat) : State := { s with now := now, tb := { b with slewCnt := cnt, slewLeft := left } }
    (s.power ≠ .running → step s = .next s) ∧
    (s.power = .running →
      (b.mode ≠ 1 ∨ b.slewLeft = 0 → step s = .next (at_ (s.now + 1) (min 4999 (b.slewCnt + 1)) b.slewLeft)) ∧
      (b.mode = 1 → b.slewLeft ≠ 0 → b.slewCnt < 4999 → step s = .next (at_ (s.now + 1) (b.slewCnt + 1) b.slewLeft)) ∧
      (b.mode = 1 → b.slewLeft ≠ 0 → 4999 ≤ b.slewCnt →
        step s = .next (at_ (if 0 < b.rate then s.now + 2 else s.now) 0 (if b.noEdge = true then b.slewLeft else b.slewLeft - 1))))

/-- Every command within the ratings answers a state, with the queue it was given; one beyond them faults. Whatever the
state: a command answers a next state whose queue is the queue that exec was given (its effect is on everything but
the queue), with the one exception of a happening that brings a voltage or current beyond the absolute maximum ratings
of its pins, for which the spec states no behaviour: it ends in the fault of that name. (The queue is the model's, log
entry 1.) Rests on 07_host_ports_rings.md R266; 15_electrical_package.md R453. -/
def Obligations.CommandsLeaveQueue : Prop :=
  ∀ (i : Instr) (s : State),
    (i.withinRatings = true → ∃ v, exec i s = .next v ∧ v.pending = s.pending) ∧
    (i.withinRatings = false → exec i s = .fault .beyondRatings)

/-- While the device does not run, only its supplies, its reset, its start-up and its wake and FSAFE pins act on it.
Unless the device runs (it is held in reset, in Fallow or off), every command but POWER_ON, BROWN_OUT, PORST_FALL,
STARTUP, VKA_LOSS, FALLOW_ENTRY, WAKE_CROSSING, FSAFE_FALL and FSAFE_RISE leaves the whole state as it is, or brings a
stress beyond the ratings. (Where the spec leaves a choice the reading is the model's: log entry 1.) Rests on
12_supplies_startup_fallow.md R409; 12_supplies_startup_fallow.md R421. -/
def Obligations.StoppedDeviceKeepsItsState : Prop :=
  ∀ (i : Instr) (s : State), s.power ≠ .running → i.whileStopped = false →
    exec i s = .next s ∨ exec i s = .fault .beyondRatings

/-- With no reaction, no repair and no live activation or revert waiting, the end of a step adds nothing. What follows a
command within its step (reactions BLK and CHIP of its occurrences, a repair that waits for an engine, the next
rotation of a live activation or revert) is nothing when none of them waits. (Where the spec leaves a choice the
reading is the model's: log entry 46.) Rests on 09_faults_safe_state_archive.md Table 9-4;
08_engines_reflexes_power.md R312; 10_firmware_update_recovery.md R369. -/
def Obligations.EndOfStepAddsNothingWhenQuiet : Prop :=
  ∀ s : State, s.quiet = true → s.finish = s

/-- Every step from a state in which no reaction waits answers such a state. If no reaction BLK, CHIP or NMI waits in a
state, none waits in the state that a step answers: the reactions of a command's occurrences are taken within its own
step. (Where the spec leaves a choice the reading is the model's: log entry 46.) Rests on
09_faults_safe_state_archive.md R331; 09_faults_safe_state_archive.md Table 9-4. -/
def Obligations.NoReactionWaitsBetweenCommands : Prop :=
  ∀ s : State, s.dev.todo = [] → answer (step s) fun v => v.dev.todo = []

/-- Every step keeps the store in its canonical form. If the store's cells rise strictly in address and none holds what an
unlisted byte reads as, the same is true in the state that a step answers. (That an unlisted byte reads as 0xFF is the
choice of log 7.) Rests on 01_hub_tiles_engines.md Table 1-8; 10_firmware_update_recovery.md R365;
10_firmware_update_recovery.md R362. -/
def Obligations.StoreStaysCanonical : Prop :=
  ∀ s : State, Memory.wf s.per.cells = true → answer (step s) fun v => Memory.wf v.per.cells = true

/-- The state after reset is sound, and its registers have the reset values of the tables. State.reset has a store in
canonical form and no reaction waiting, so the invariants of StoreStaysCanonical and NoReactionWaitsBetweenCommands
begin there; its count is 0, its horizon 5,000, TB_SYNC_PERIOD 100,000, ARCH_KIND 0xFFFFFFFB, SETUP_LOCK clear;
nothing is owned; each port is disabled with DB_POLL 20, all subscriptions and 64 disabled rings; each tile has its
watchdog at 10 ms, DI_CHATTER at 20 and 1,000, DO_TEST at 300 and 10, REF_EN clear with CAL_DT 50, eight disarmed
sequences of period 100,000 and every channel OFF with gain 0x400000. (The contents of the store, of which the
canonical form is that of an empty list, are the model's choice of log entry 3.) (Where the spec leaves a choice the
reading is the model's: log entry 3.) Rests on 01_hub_tiles_engines.md Table 1-8; 02_accession_time_order.md Table
2-5; 03_switching_channels.md Table 3-1; 03_switching_channels.md Table 3-9; 05_conversion_sequencing.md Table 5-7;
05_conversion_sequencing.md Table 5-8; 07_host_ports_rings.md Table 7-3; 09_faults_safe_state_archive.md Table 9-10;
09_faults_safe_state_archive.md Table 9-16; 12_supplies_startup_fallow.md R417; 14_register_catalogue.md Table 14-3. -/
def Obligations.ResetIsSoundAndHoldsTheRegistersResetValues : Prop :=
  State.reset.sound = true ∧ State.reset.now = 0 ∧ State.reset.merge.horizon = 5000 ∧ State.reset.tb.period = 100000 ∧
    State.reset.archKind = 0xFFFFFFFB ∧ State.reset.lock.locked = false ∧
    (∀ cls n, State.reset.owner cls n = none) ∧
    (∀ p : PortId, let P := State.reset.port p
      P.enable = false ∧ P.live = false ∧ P.dbPoll = 20 ∧ P.subSrc = 0x1FFFF ∧ P.subKind = 0xFFFFFFFF ∧
        P.rings.length = 64 ∧ ∀ q ∈ P.rings, q.en = false ∧ q.block = 1) ∧
    State.reset.tiles.length = 16 ∧
    ∀ T ∈ State.reset.tiles, T.saf.timeout = 10 ∧ T.chatN = 20 ∧ T.chatW = 1000 ∧ T.tpWidth = 300 ∧ T.tpPeriod = 10 ∧
      T.cv.refEn = false ∧ T.cv.calDt = 50 ∧ T.seqs.length = 8 ∧ T.chans.length = 32 ∧
      (∀ q ∈ T.seqs, q.arm = false ∧ q.period = 100000) ∧ ∀ c ∈ T.chans, c.mode = .off ∧ c.trimGain = 0x400000

/-- No command but IMAGE_WRITE and IMAGE_VERIFY changes a byte of the store or the identity words. Whatever the state and
whatever command other than IMAGE_WRITE and IMAGE_VERIFY, its reactions, restarts and reverts included: every byte of
the store reads as before, and the revision, hardware type, PCI Express and unit identities are as before. Rests on
01_hub_tiles_engines.md Table 1-8; 10_firmware_update_recovery.md Table 10-9; 14_register_catalogue.md R443. -/
def Obligations.OnlyImageCommandsWriteTheStore : Prop :=
  ∀ (i : Instr) (s : State), (∀ h k o n bs f, i ≠ .imageWrite h k o n bs f) → (∀ h k f, i ≠ .imageVerify h k f) →
    answer (exec i s) fun v =>
      (∀ a, Memory.read v.per.cells a = Memory.read s.per.cells a) ∧
        v.per.revId = s.per.revId ∧ v.per.hwType = s.per.hwType ∧ v.per.pciVendor = s.per.pciVendor ∧
        v.per.pciSubsys = s.per.pciSubsys ∧ v.per.unitId = s.per.unitId

/-- IMAGE_WRITE stores the bytes it carries at its offset in the standby bank or the kiln, and no others. On an
IMAGE_WRITE that the device admits (in service, the session free or its own, offset and length in range, no update
under way, a store in canonical form that takes the bytes): byte a of the store reads as the carried byte when a lies
in the run of LEN bytes from the bank's or the kiln's base plus OFFSET, and as before anywhere else; STAGE is WRITING,
and the completion is OK. Rests on 10_firmware_update_recovery.md R365; 10_firmware_update_recovery.md Table 10-9. -/
def Obligations.ImageWriteStoresItsBytesAndNoOthers : Prop :=
  ∀ (h : Hdr) (kiln : Bool) (offset len : Nat) (bytes : List Byte) (s : State), s.lets h 0x80 [] false = true → Memory.wf s.per.cells = true →
    (s.advance h.at_).sessionBad h = none → writeBad kiln offset len bytes = none → s.upd.stage.busy = false →
    ∃ u : State, exec (.imageWrite h kiln offset len bytes false) s = .next (u.reply h 0x80 (Reply.ok 0)).finish ∧
      u.upd.stage = .writing ∧
      ∀ a, Memory.read u.per.cells a =
        (let base := (if kiln then kilnBase else bankBase (s.advance h.at_).standby) + offset
         if base ≤ a ∧ a < base + len then bytes.getD (a - base) 0 else Memory.read s.per.cells a)

/-- Settings change only by register writes, CH_MODE, RFX_WRITE, RFX_ENABLE, SEQ_ARM, CAT_WRITE, commands that waited, and
restarts. Whatever the state and whatever command other than those named by Instr.sets (writes of BAR0 registers,
CH_MODE, RFX_WRITE, RFX_ENABLE, SEQ_ARM, CAT_WRITE, and the commands that restart or restore: POWER_ON, BROWN_OUT,
PORST_FALL, STARTUP, STARTUP_COMPLETE, FALLOW_ENTRY, IMAGE_ACTIVATE with RESTART, IMAGE_REVERT, IMAGE_RECOVER,
TRIAL_EXPIRY): the command's own effect leaves mode, parameters, configuration and diagnosis registers of all 512
channels, all rules, all sequence registers, converter fields, stream context registers, fault classes and reactions,
vectors, timebase mode, Archive selection and order horizon as they were; only reactions that follow it may restart
the device. A row that binds an engine or ends a hold-back leaves them so too, and then executes the commands that
waited for it, if any. Rests on 14_register_catalogue.md R442; 07_host_ports_rings.md Table 7-7;
12_supplies_startup_fallow.md R417. -/
def Obligations.OnlySettingCommandsChangeSettings : Prop :=
  ∀ (i : Instr) (s : State), i.sets = false → answer (exec i s) fun v =>
    ∃ u : State, u.settings = s.settings ∧ (v = u ∨ v = u.finish ∨ (i.resumes = true ∧ v = u.runWaiting.finish))

/-- Lock, ownership, supplies, temperature and power change only by their own commands; the hub count never falls.
Whatever the state and whatever command other than those named by Instr.steers (ownership requests, LOCK, SYNC_EDGE,
BAR0 writes, CAT_WRITE, supply and temperature samples, and the commands that restart the device): the command's own
effect leaves SETUP_LOCK with its key and count, the owner of every resource, the supply flags, the hub temperature
and the state of power as they were, and the hub count does not decrease. (The commands that waited for an engine and
are then executed are outside this statement: each is one of the commands it covers.) Rests on
14_register_catalogue.md R445; 07_host_ports_rings.md R281; 02_accession_time_order.md R50;
12_supplies_startup_fallow.md Table 12-7. -/
def Obligations.OnlyTheirCommandsChangeLockOwnersAndSupplies : Prop :=
  ∀ (i : Instr) (s : State), i.steers = false → answer (exec i s) fun v =>
    ∃ u : State, (v = u ∨ v = u.finish ∨ (i.resumes = true ∧ v = u.runWaiting.finish)) ∧ s.now ≤ u.now ∧
      u.control = { s with now := u.now }.control

/-- A completion takes its reserved slot of the completion ring named at its fetch, and nothing else changes but its own
port. The completion of a command: it is no longer in execution, and its reservation in the completion ring named at
its fetch ends. Unless SILENT suppresses an OK, while the port runs and that ring is an active completion ring, one
entry is written at its next slot with the hub count, the command's tag, opcode, status, reason, index, payload, ring
and count, the ring's count grows by one and goes to its CONS word; with no free slot the entry is kept until there is
one. Where the port does not run or the ring is no active completion ring, none is written. The other port and the
rest of the state are as before. (Where the spec leaves a choice the reading is the model's: log entry 5.) Rests on
07_host_ports_rings.md R265; 07_host_ports_rings.md R258; 07_host_ports_rings.md R261; 07_host_ports_rings.md R293;
07_host_ports_rings.md Table 7-8; 07_host_ports_rings.md Table 7-5. -/
def Obligations.CompletionIsWrittenToItsRing : Prop :=
  ∀ (h : Hdr) (op : Nat) (r : Reply) (s : State),
    let x := s.inFlight h
    let c : Completion := { ts := s.now, tag := h.tag, opcode := op, status := r.st, reason := r.rs, index := r.ix, payload := r.pl, ring := h.ring, cnt := h.cnt }
    let v := ({ s with running := s.running.filter fun x => !isCmd h x.port x.ring x.cnt } : State).modPort h.port fun P =>
      P.modRing x.cq fun q => { q with reserved := q.reserved - b2n x.held }
    let q := (v.port h.port).ring x.cq
    (h.silent = true ∧ r.st = 0 → s.reply h op r = v) ∧
    (¬ (h.silent = true ∧ r.st = 0) →
      (s.portRuns h.port = false ∨ q.active = false ∨ q.ty ≠ 1 → s.reply h op r = v) ∧
      (s.portRuns h.port = true → q.active = true → q.ty = 1 →
        (q.free 1 = true → s.reply h op r = v.modPort h.port fun P => { P.modRing x.cq (fun q => { q with cons := q.cons + 1, unsig := true }) with
          out := P.out ++ [.completion (P.slot x.cq) c] ++ [(P.modRing x.cq fun q => { q with cons := q.cons + 1, unsig := true }).consWrite x.cq] }) ∧
        (q.free 1 = false → s.reply h op r = v.modPort h.port fun P => { P with owed := P.owed ++ [(x.cq, c)] })))

/-- A ring command waits for its turn, is refused by operands, ownership, phase, deadline, lock, service in that order, or
waits for an engine. Of every ring command, by what it needs (its operands' fault, the resources it acts on, its tile,
whether it acts before COMPLETE and under SETUP_LOCK): in the grave hold nothing happens, and until its turn has come
it is fetched and nothing more. At its turn bad operands complete with their status; else the first resource that its
port does not own completes with NOT_OWNER, reason OWNER and that resource; else a phase in which it does not act
completes with NOT_READY; else a deadline that has passed completes with DEADLINE_MISSED and raises the ring command
deadline fault; else the set lock completes with LOCKED; else a tile out of service or without an engine completes
with NOT_READY, and nothing of its effect happens (an ownership request that is refused is still a request of its
tick). One that nothing refuses, whose tile has no engine bound or is held back for a rotation, waits, kept with its
operands. (Where the spec leaves a choice the reading is the model's: log entry 19.) Rests on 07_host_ports_rings.md
R264; 07_host_ports_rings.md R266; 07_host_ports_rings.md R268; 12_supplies_startup_fallow.md R419;
14_register_catalogue.md R447; 08_engines_reflexes_power.md R310; 08_engines_reflexes_power.md R320;
09_faults_safe_state_archive.md R339; 01_hub_tiles_engines.md R37. -/
def Obligations.RefusedCommandsCompleteInCheckOrder : Prop :=
  ∀ (h : Hdr) (op : Nat) (c : Cmd) (act : State → State × Option Reply) (s : State),
    let a := s.taken h op
    let asked : State := match c.ask with
      | some x => { a.begun h with own := { (a.begun h).own.atTick (a.begun h).now with reqs := ((a.begun h).own.atTick (a.begun h).now).reqs ++ [x] } }
      | none => a.begun h
    (s.dev.grave = true → s.runCmd h op c act = s) ∧
    (s.dev.grave = false → a.turn h op = false → s.runCmd h op c act = a) ∧
    (s.dev.grave = false → a.turn h op = true →
      (∀ r, c.bad = some r → r.st ≠ 5 → s.runCmd h op c act = asked.reply h op r) ∧
      (c.bad = none →
        (∀ x, (c.own.find? fun x => decide (s.owner x.1 x.2 ≠ some h.port)) = some x →
          s.runCmd h op c act = asked.reply h op { st := 2, rs := 4, ix := x.2 }) ∧
        ((∀ x ∈ c.own, s.owner x.1 x.2 = some h.port) →
          (s.phaseLets c = false → s.runCmd h op c act = asked.reply h op { st := 4 }) ∧
          (s.phaseLets c = true → s.past h = true → s.runCmd h op c act =
            (asked.raiseCmd h (asked.engOf op h.arg)).reply h op { st := 5 }) ∧
          (s.phaseLets c = true → s.past h = false → c.locked = true → s.locked = true →
            s.runCmd h op c act = asked.reply h op { st := 10 }) ∧
          (s.phaseLets c = true → s.past h = false → (c.locked && s.locked) = false → ∀ t, c.tile = some t →
            ((s.engineless t || !c.needs.contains (s.tile t).link.life) = true →
              s.runCmd h op c act = asked.reply h op { st := 4 }) ∧
            ((s.engineless t || !c.needs.contains (s.tile t).link.life) = false → (s.tile t).bound = false ∨ s.holdsBack t = true →
              s.runCmd h op c act = { a with fetched := a.fetched.map fun f => if isCmd h f.port f.ring f.cnt then
                { f with waiting := true, cmd := c.cmd, tile := c.tile } else f })))))

/-- NOP, TIME_READ, OWNER_QUERY and RFX_STATUS complete with OK and what they read, and change nothing else. In service,
at their turn: NOP completes with OK; TIME_READ with the hub count and bits 31 to 28 of TB_STAT; OWNER_QUERY (class,
first and count in range) with two bits for each resource, as ownership stood before this tick; RFX_STATUS of a tile
in service with its armed rules and its reflex latency. Nothing but the completion, the hub count, the command's own
records (its fetch, its deadline margin, the block that executed it at work) changes. (Where the spec leaves a choice
the reading is the model's: log entry 19.) Rests on 07_host_ports_rings.md Table 7-7; 08_engines_reflexes_power.md
Table 8-7. -/
def Obligations.QueriesOnlyComplete : Prop :=
  ∀ (h : Hdr) (s : State),
    (s.lets h 0x00 [] false = true → exec (.nop h) s = .next ((s.begins h 0x00).reply h 0x00 (Reply.ok 0)).finish) ∧
    (s.lets h 0x01 [] false = true →
      let b := s.begins h 0x01
      exec (.timeRead h) s = .next (b.reply h 0x01 (Reply.ok (payload [(16, 8, b.now),
        (24, 1, fld (b.readWord h.port 0x118) 31 28)]))).finish) ∧
    (s.lets h 0xA4 [] false = true → ∀ cls first, ownBad cls first h.arg 48 = none →
      let b := s.begins h 0xA4
      exec (.ownerQuery h cls first) s = .next (b.reply h 0xA4
        (Reply.ok ((List.range h.arg).foldl (fun n k => n + (match b.owner cls (first + k) with
          | none => 0
          | some q => q.code + 1) <<< (2 * k)) 0))).finish) ∧
    (s.lets h 0x1A [] false = true → h.arg < 16 → s.serves h.at_ h.arg = true →
      let b := s.begins h 0x1A
      exec (.rfxStatus h) s = .next (b.reply h 0x1A
        (Reply.ok (payload [(16, 8, (b.tile h.arg).armedMask), (24, 2, (b.tile h.arg).rfxLat)]))).finish)

/-- CLAIM, RELEASE, HANDOVER and TAKEOVER, granted, move exactly the resources of their range that the rules name;
refused, none. At their turn, in service, with class, first and count in range. For the first ownership request of a
tick (where HB's finds none of HA in the queue): CLAIM of a range in which no resource belongs to the other port makes
every unowned one the claimant's; RELEASE makes those of the port unowned; HANDOVER of a range that the port owns
whole passes it to the other port; TAKEOVER, while the other port is not live and has not been for 10 ms, makes the
other port's resources the claimant's. Each completes with OK, and every other resource keeps its owner. In any tick,
a CLAIM whose range holds a resource that the port may not have, as the requests decided before it leave them,
completes with CONTENDED or NOT_OWNER with the first such resource; a HANDOVER of a resource that the port does not
own with NOT_OWNER; a TAKEOVER while the other port is live or was within 10 ms with NOT_READY; and none of them
changes an owner. (Where the spec leaves a choice the reading is the model's: log entry 2.) Rests on
07_host_ports_rings.md R281; 07_host_ports_rings.md R284; 07_host_ports_rings.md R285; 07_host_ports_rings.md R286;
07_host_ports_rings.md R287; 07_host_ports_rings.md R268. -/
def Obligations.OwnershipRequestsMoveTheirRange : Prop :=
  ∀ (h : Hdr) (cls first : Nat) (s : State), ownBad cls first h.arg 512 = none →
    let hit (i : Nat) : Prop := first ≤ i ∧ i < first + h.arg
    let moved (u : State) (f : Option PortId → Prop) (v : Option PortId) : Prop :=
      (∀ i, i < (s.own.tab.getD cls []).length → hit i → f (s.own.tab.of cls i) → u.own.tab.of cls i = v) ∧
      (∀ c i, ¬ (c = cls ∧ hit i ∧ f (s.own.tab.of cls i)) → u.own.tab.of c i = s.own.tab.of c i)
    let firstAsked (op : Nat) : Prop := s.own.tick ≠ some (s.begins h op).now ∧ (h.port = .ha ∨ ∀ c ∈ s.pending, ownReqOf c = none)
    (s.lets h 0xA0 [] false = true →
      let b := s.begins h 0xA0
      let o := b.judges h.port
      let bad (i : Nat) : Bool := match (o.view h.port).of cls i with
        | some x => x ≠ h.port
        | none => o.changed h.port.peer cls i
      (firstAsked 0xA0 → (∀ k < h.arg, s.own.tab.of cls (first + k) ≠ some h.port.peer) →
        ∃ u : State, exec (.claim h cls first) s = .next (u.reply h 0xA0 (Reply.ok 0)).finish ∧
          moved u (fun o => o = none) (some h.port)) ∧
      (∀ k, ((List.range h.arg).find? fun k => bad (first + k)) = some k →
        exec (.claim h cls first) s = .next (({ b with own := (b.own.atTick b.now).add { port := h.port, cls := cls, first := first, count := h.arg } }
          : State).reply h 0xA0 { st := if o.changed h.port.peer cls (first + k) || (o.start.of cls (first + k) = some h.port.peer &&
            b.asks h.port.peer cls (first + k)) then 3 else 2, rs := 4, ix := first + k }).finish)) ∧
    (s.lets h 0xA1 [] false = true → firstAsked 0xA1 →
      ∃ u : State, exec (.release h cls first) s = .next (u.reply h 0xA1 (Reply.ok 0)).finish ∧
        moved u (fun o => o = some h.port) none) ∧
    (s.lets h 0xA2 [] false = true → firstAsked 0xA2 → (∀ k < h.arg, s.own.tab.of cls (first + k) = some h.port) →
      ∃ u : State, exec (.handover h cls first) s = .next (u.reply h 0xA2 (Reply.ok 0)).finish ∧
        moved u (fun o => o = some h.port) (some h.port.peer)) ∧
    (s.lets h 0xA3 [] false = true →
      let b := s.begins h 0xA3
      (firstAsked 0xA3 → (b.port h.port.peer).live = false → 10 ≤ b.downMs h.port.peer →
        ∃ u : State, exec (.takeover h cls first) s = .next (u.reply h 0xA3 (Reply.ok 0)).finish ∧
          moved u (fun o => o = some h.port.peer) (some h.port)) ∧
      ((b.port h.port.peer).live = true ∨ b.downMs h.port.peer < 10 →
        exec (.takeover h cls first) s = .next (({ b with own := (b.own.atTick b.now).add { port := h.port, cls := cls, first := first, count := h.arg } }
          : State).reply h 0xA3 { st := 4 }).finish))

/-- LOCK with a key sets SETUP_LOCK, and UNLOCK clears it only with that key; the rest of the tick sees the lock as it
stood. At their turn, in service, judged against the lock v as the LOCKs decided before in the tick leave it (HA's
before HB's): LOCK with a key that is not 0 on a lock that is clear stores key and port, clears FAILS and completes
with OK; with key 0 it completes with BAD_PARAM at byte 20, and on a lock that is set with LOCKED. UNLOCK on a clear
lock completes with OK; with the stored key, outside the time-out of eight wrong keys, it clears lock and key and
completes with OK; with a wrong key it changes nothing but FAILS and the time of the attempt, and within the time-out
nothing, and completes with LOCKED. What it leaves is what the port's next LOCK of the tick is judged against where no
other LOCK stands in the queue, and is the lock in force where it is the tick's only one; and in the tick of the
change every other command sees the lock as it stood before it. (Where the spec leaves a choice the reading is the
model's: log entry 2.) Rests on 14_register_catalogue.md R445; 14_register_catalogue.md R446. -/
def Obligations.LockAndUnlockByKey : Prop :=
  ∀ (h : Hdr) (key : Nat) (s : State), s.lets h 0x92 [] false = true →
    let b := s.begins h 0x92
    let v := b.lockSeen h.port
    let locked : Reply := { st := 10, pl := 1 }
    let ends (i : Instr) (unlock : Bool) (w : LockSt) (r : Reply) : Prop :=
      (v.judge b.now { port := h.port, unlock := unlock, key := key }).1 = w ∧
      ∃ l : Lock, exec i s = .next (({ b with lock := l } : State).reply h 0x92 r).finish ∧
        ({ b with lock := l } : State).locked = b.locked ∧
        (b.lock.chg ≠ some b.now → (h.port = .ha ∨ ∀ c ∈ b.pending, ∀ g k, c ≠ .lock g k ∧ c ≠ .unlock g k) → l.toLockSt = w ∧ l.view b.now h.port = w)
    (key ≠ 0 → v.locked = false →
      ends (.lock h key) false { locked := true, key := key, port := h.port, fails := 0, lastWrong := none } (Reply.ok 1)) ∧
    (key = 0 → ends (.lock h key) false v { badField 20 with pl := b2n v.locked }) ∧
    (key ≠ 0 → v.locked = true → ends (.lock h key) false v locked) ∧
    (v.locked = false → ends (.unlock h key) true v (Reply.ok 0)) ∧
    (v.locked = true →
      let out : Prop := 8 ≤ v.fails ∧ ∃ x, v.lastWrong = some x ∧ b.now < x + sec
      (out → ends (.unlock h key) true v locked) ∧
      (¬ out → key = v.key → ends (.unlock h key) true { v with locked := false, key := 0 } (Reply.ok 0)) ∧
      (¬ out → key ≠ v.key →
        ends (.unlock h key) true { v with fails := min 255 (v.fails + 1), lastWrong := some b.now } locked))

/-- FAULT_ACK clears LATCHED and COUNT of the named sources without an occurrence in its tick, and completes with what it
cleared. At its turn, in service, for a block of the hub or of a tile whose link is up: FAULT_ACK acknowledges, one
after another, the sources of its mask that are latched and have no occurrence at the block's present tick or later,
clearing LATCHED and COUNT of each and nothing else of its record (shown for the hub's blocks), ends what waited for
the acknowledgement at a tile (orphaned actions, the watchdog's scope) and the safe-state net, and completes with OK,
the mask of those and the mask of the sources present. (Where the spec leaves a choice the reading is the model's: log
entry 38.) Rests on 09_faults_safe_state_archive.md R328; 09_faults_safe_state_archive.md Table 9-17. -/
def Obligations.FaultAckClearsNamedLatchedSources : Prop :=
  ∀ (h : Hdr) (mask : Nat) (s : State), s.lets h 0x70 [] false = true → h.arg < 55 →
    (35 ≤ h.arg ∧ h.arg ≤ 50 → (s.tile (h.arg - 35)).lost = false) →
    let b := s.begins h 0x70
    let is := b.ackable h.arg mask
    let v := forAll (State.ackOne h.arg) is b
    let t := h.arg - 35
    let w := (if 35 ≤ h.arg ∧ h.arg ≤ 50 then (if is.contains 8 then v.endOrphans t else v).endWatchdog t else v).endNet
    exec (.faultAck h mask) s = .next (w.reply h 0x70 (Reply.ok (payload [(16, 2, is.foldl (fun n i => n + 1 <<< i) 0),
        (18, 2, presentMask (w.blk h.arg).srcs)]))).finish ∧
    (∀ i, i ∈ is ↔ i < 16 ∧ mask.testBit i = true ∧ ((b.blk h.arg).src i).latched = true ∧ ((b.blk h.arg).src i).last < b.bnow h.arg) ∧
    (∀ k i (u : State), k < 35 ∨ 50 < k → (State.ackOne k i u).blks =
      (u.modSrc k i fun x => { x with latched := false, count := 0 }).blks)

/-- LOG_READ and CAT_READ write what they read to host memory and complete; the device keeps its state. In service:
LOG_READ of a log 0 to 5, of 1 to 512 entries, to an aligned address, writes the entries from START that the stratum
or persistent ring still holds, and completes with the first, how many and how many were overwritten, SHORT when there
are fewer than asked; CAT_READ with sound operands writes the words of the registers as the port sees them as far as
their block reaches (TB_NOW_HI with the count that a TB_NOW_LO among them latches) and completes with their count and
the next address. Only the port's writes, the completion and (where TB_NOW_LO is read) the port's latched count
change. (Where the spec leaves a choice the reading is the model's: log entries 5 and 37.) Rests on
09_faults_safe_state_archive.md Table 9-17; 14_register_catalogue.md R449. -/
def Obligations.LogAndCatalogueReadsWriteHostMemory : Prop :=
  ∀ (h : Hdr) (s : State),
    let write (w : HostWrite) (u : State) : State := u.modPort h.port fun P => { P with out := P.out ++ [w] }
    (∀ log count addr start, s.lets h 0x71 [] false = true → log < 6 → 1 ≤ count → count ≤ 512 → addr % 64 = 0 →
      let A := s.arch.getD log {}
      let l := s.per.plog
      let x := if log < 4 then logFrom (A.entries.map ArchEntry.bytes) A.next start count
        else if log = 4 then logFrom (l.s0.map LogRec.bytes) (l.next0 % 2 ^ 32) start count
        else logFrom (l.s1.map LogRec.bytes) (l.next1 % 2 ^ 32) start count
      exec (.logRead h log count addr start) s = .next ((write (.entries addr x.2.1) (s.begins h 0x71)).reply h 0x71
        { st := if x.2.1.length < count then 7 else 0,
          pl := payload [(16, 4, x.1), (20, 2, x.2.1.length), (24, 4, x.2.2)] }).finish) ∧
    (∀ start count addr, s.lets h 0x90 [] false = true → catBad start count addr = none →
      let b := s.begins h 0x90
      let n := (catReach start count).1
      let short := (catReach start count).2
      let b' := if start ≤ 0x100 ∧ 0x100 < start + 4 * n then b.latchNow h.port else b
      exec (.catRead h start count addr) s = .next ((write (.words addr (b'.catWords h.port start n)) b').reply h 0x90
        { st := if short then 7 else 0, ix := if short then n else 0,
          pl := payload [(16, 2, n), (20, 4, start + 4 * n)] }).finish)

/-- CAT_WRITE writes its words one after another as register writes of its port, and is LOCKED whole under SETUP_LOCK. In
service, with sound operands: CAT_WRITE that reaches an RWL register under SETUP_LOCK completes with LOCKED and writes
nothing; otherwise, on no register of the other port's block, its words are put one after another, and when every word
is accepted it completes with OK (SHORT when its block ends before COUNT), with the count written and the next
address. (Where the spec leaves a choice the reading is the model's: log entry 21.) Rests on 14_register_catalogue.md
R450; 14_register_catalogue.md R447. -/
def Obligations.CatalogueWriteActsAsRegisterWrites : Prop :=
  ∀ (h : Hdr) (start count : Nat) (words : List Word) (s : State), s.lets h 0x91 [] false = true → catBad start count 0 = none →
    let b := s.begins h 0x91
    let n := (catReach start count).1
    let short := (catReach start count).2
    let as := (List.range n).map fun i => start + 4 * i
    (b.locked = true → as.any isRwl = true →
      exec (.catWrite h start count words) s = .next (b.reply h 0x91
        { st := 10, pl := payload [(16, 2, 0), (18, 1, 0), (20, 4, start + 4 * 0)] }).finish) ∧
    (b.locked = false → as.any (otherPort h.port) = false → ∀ u k, catPut h.port start (words.take n) 0 b = (u, k, none) →
      exec (.catWrite h start count words) s = .next (u.reply h 0x91
        { st := if short then 7 else 0, ix := if short then n else 0,
          pl := payload [(16, 2, k), (18, 1, 0), (20, 4, start + 4 * k)] }).finish)

/-- TXN_SUBMIT stages a sound transaction without completing it, and TXN_CANCEL marks one that is not decided. In service:
TXN_SUBMIT whose members are all owned by the port, whose count, commit tick (0.1 ms to 10 s ahead), tag and members
are sound, with fewer than 32 transactions staged, appends the transaction in fetch order and gives no completion yet;
TXN_CANCEL of a staged transaction of the port that is undecided before its decision tick marks it cancelled and
completes with OK. Rests on 02_accession_time_order.md R71; 02_accession_time_order.md R76; 07_host_ports_rings.md
R270. -/
def Obligations.TransactionsAreQueuedAndCancelled : Prop :=
  ∀ (h : Hdr) (s : State),
    (∀ commit members, s.lets h 0xA8 (memberOwn members) false = true →
      let b := s.begins h 0xA8
      1 ≤ h.arg → h.arg ≤ 512 → members.length = h.arg →
      b.txn h.port h.tag = none → b.badMember members = none → b.now + 10000 ≤ commit → commit ≤ b.now + 10 * sec →
      s.txns.length < 32 →
      exec (.txnSubmit h commit members) s = .next ({ (b.margin 54 2 (commit - (b.now + 10000))) with
        order := s.order + 1, txns := s.txns ++ [{ h := h, c := commit, members := members, order := s.order }] }
          : State).finish) ∧
    (∀ tag x, s.lets h 0xA9 [] false = true →
      let b := s.begins h 0xA9
      b.txn h.port tag = some x → x.decided = none → b.now < x.d →
      exec (.txnCancel h tag) s = .next ((b.modTxn h.port tag fun x => { x with cancelled := true }).reply h 0xA9
        (Reply.ok 0)).finish)

/-- OUT_SET and MIR_FORCE send one action in fetch order to the tile without completing; OUT_CANCEL withdraws those of its
port. In service, on a channel that the port owns on a tile in service: OUT_SET with a value within the channel's
limit, and the three MIR_FORCE commands, on a channel that is not DOP, put one action with its value and commit tick
at the end of those on their way and give no completion yet; OUT_CANCEL removes the actions of its port on the
channel, staged or on their way, each of which completes with ABORTED, and completes with their number. (Where the
spec leaves a choice the reading is the model's: log entry 22.) Rests on 02_accession_time_order.md R67;
02_accession_time_order.md R68; 03_switching_channels.md R100; 04_measuring_channels.md R168; 07_host_ports_rings.md
Table 7-7. -/
def Obligations.OutputActionsGoToTheirTile : Prop :=
  ∀ (h : Hdr) (s : State), h.arg < 512 → s.serves h.at_ (h.arg / 32) = true →
    let ch := s.chan (h.arg / 32) (h.arg % 32)
    let sent (kind value commit op : Nat) : State := { s.begins h op with
      order := s.order + 1,
      transit := s.transit ++ [⟨h, kind, h.arg, value, commit, s.order, op⟩] }
    (ch.mode ≠ .dop → ∀ commit,
      (∀ value, s.lets h 0x11 [(0, h.arg)] false = true → value ≤ ch.outMax → exec (.outSet h commit value) s = .next (sent 0 value commit 0x11).finish) ∧
      (s.lets h 0x12 [(0, h.arg)] false = true → exec (.mirForceOff h commit) s = .next (sent 1 0 commit 0x12).finish ∧
      exec (.mirForceOn h commit) s = .next (sent 1 1 commit 0x12).finish ∧
      exec (.mirRelease h commit) s = .next (sent 1 2 commit 0x12).finish)) ∧
    (s.lets h 0x13 [(0, h.arg)] false = true →
     let mine (a : Action) : Bool := a.g = h.arg && a.h.port = h.port
     let gone := ch.staged.filter mine ++ s.transit.filter mine
     exec (.outCancel h) s = .next ((forAll (State.abortAction (h.arg / 32) (h.arg % 32)) gone
       (State.modChan (h.arg / 32) (h.arg % 32) (fun x => { x with staged := x.staged.filter fun a => !mine a })
         { s.begins h 0x13 with transit := s.transit.filter fun a => !mine a })).reply h 0x13
           (Reply.ok (payload [(16, 2, gone.length)]))).finish)

/-- CH_TRIM SET and RESET change the trim at once; ZERO and SPAN wait for a result for one second at most. In service and
without SETUP_LOCK, on a channel that the port owns on a tile in service: CH_TRIM SET with an offset and gain in
range, in a mode with trim, and RESET (offset 0, gain 1) change the trim of that channel and of no other, start the 10
s save timer, and complete with OK, the trim and the tile's tick; ZERO and SPAN on a measuring channel add a capture
that ends 1 s later at the latest, and give no completion yet. (Where the spec leaves a choice the reading is the
model's: log entry 27.) Rests on 04_measuring_channels.md R172; 13_mode_combinations.md Table 13-2;
07_host_ports_rings.md Table 7-7. -/
def Obligations.TrimCommandsSetOrWait : Prop :=
  ∀ (h : Hdr) (s : State), s.lets h 0x14 [(0, h.arg)] true = true → h.arg < 512 → s.serves h.at_ (h.arg / 32) = true →
    let b := s.begins h 0x14
    let t := h.arg / 32
    let c := h.arg % 32
    let ch := b.chan t c
    (∀ ofs gain, ch.mode.trimmable = true → ch.ofsOk (sext 24 ofs) = true → gainOk gain = true →
      let u := b.trimChange t c (sext 24 ofs) gain
      exec (.chTrimSet h ofs gain) s = .next (u.reply h 0x14 (u.trimReply t c)).finish) ∧
    (ch.mode.trimmable = true → ch.ofsOk 0 = true →
      let u := b.trimChange t c 0 0x400000
      exec (.chTrimReset h) s = .next (u.reply h 0x14 (u.trimReply t c)).finish) ∧
    (ch.mode.isMeas = true →
      exec (.chTrimZero h) s = .next (b.modChan t c fun x =>
        { x with caps := x.caps ++ [{ h := some h, span := false, ref := 0, till := b.tnow t + sec }] }).finish) ∧
    (∀ ref, ch.mode.isMeas = true →
      exec (.chTrimSpan h ref) s = .next (b.modChan t c fun x =>
        { x with caps := x.caps ++ [{ h := some h, span := true, ref := if ch.signed then sext 24 ref else ref, till := b.tnow t + sec }] }).finish) ∧
    (∀ ofs gain,
      let u := b.trimChange t c ofs gain
      u.upd.savePend = true ∧ u.upd.saveAt = some (b.now + 10 * sec) ∧
      (t < b.tiles.length → c < (b.tile t).chans.length → (u.chan t c).trimOfs = ofs ∧ (u.chan t c).trimGain = gain) ∧
      (∀ k i, (k, i) ≠ (t, c) → (u.chan k i).trimOfs = (b.chan k i).trimOfs ∧ (u.chan k i).trimGain = (b.chan k i).trimGain))

/-- An admitted CH_MODE gives its channel the mode, PAR, configuration and diagnosis asked for, changes no other setting,
and completes with OK. In service and without SETUP_LOCK, on channels that the port owns on a tile in service, with a
mode code and a PAR that exist: CH_MODE that admission accepts completes with OK and the register; of all settings of
the device exactly mode, PAR, CH_CFG and CH_DIAG of its channel are then as commanded (its own words with CARRY; the
mode's Reset values without CARRY on a change of mode; the old words with a new PAR otherwise). One that admission
refuses completes with its code, reason ADM, and changes no setting. (Where the spec leaves a choice the reading is
the model's: log entry 21.) Rests on 03_switching_channels.md R82; 03_switching_channels.md R83;
04_measuring_channels.md R122; 07_host_ports_rings.md Table 7-7. -/
def Obligations.ModeCommandSetsExactlyItsChannel : Prop :=
  ∀ (h : Hdr) (mode par : Nat) (carry : Bool) (cfg diag : Word) (m : Mode) (s : State),
    s.lets h 0x10 ((s.advance h.at_).modeOwns h.arg mode par carry cfg diag) true = true → h.arg < 512 →
    s.serves h.at_ (h.arg / 32) = true → Mode.ofCode mode = some m → par < 3 →
    let b := s.begins h 0x10
    let t := h.arg / 32
    let c := h.arg % 32
    let n := (b.chan t c).commanded m par carry cfg diag
    let x := b.chWrite t c n true true
    let pl := payload [(16, 4, (x.1.readWord .ha (tileAddr t (16 * c))).toNat)]
    (x.2 = 0 → exec (.chMode h mode par carry cfg diag) s = .next (x.1.reply h 0x10 (Reply.ok pl)).finish ∧
      x.1.settings = (b.modChan t c fun ch =>
        { ch with mode := n.mode, par := n.par, cfg := n.cfg, diag := n.diag }).settings) ∧
    (x.2 ≠ 0 → exec (.chMode h mode par carry cfg diag) s = .next (x.1.reply h 0x10
        { st := if x.2 ≤ 2 then 9 else 1, rs := 5, ix := h.arg, pl := pl }).finish ∧ x.1.settings = b.settings)

/-- RFX_WRITE and RFX_ENABLE write the registers of their rule and no other setting, and complete with OK. In service, on
a rule whose channel the port owns on a tile in service: RFX_WRITE (without SETUP_LOCK, with sound words and no line
already driven) and RFX_ENABLE (with no line already driven) make the rule's registers the words carried, or its old
ones with ENABLE as asked; of all settings of the device nothing else changes, and the command completes with OK.
(Where the spec leaves a choice the reading is the model's: log entries 21 and 33.) Rests on
08_engines_reflexes_power.md R299; 08_engines_reflexes_power.md R308; 08_engines_reflexes_power.md Table 8-7. -/
def Obligations.RuleCommandsWriteExactlyTheirRule : Prop :=
  ∀ (h : Hdr) (s : State), h.arg < 1024 → s.serves h.at_ (h.arg / 64) = true →
    let t := h.arg / 64
    let i := h.arg % 64
    let only (b u : State) (r : Rule) : Prop := u.settings = (b.modTile t fun T => { T with
      rules := updAt (fun x => { x with cond := r.cond, qual := r.qual, thr := r.thr, act := r.act }) i T.rules }).settings
    (∀ cond qual thr act, s.lets h 0x18 (ruleOwns t (ruleOf cond qual thr act)) true = true →
      let b := s.begins h 0x18
      opsBad 0x18 (payload [(16, 4, cond.toNat), (20, 4, qual.toNat), (24, 4, thr.toNat), (28, 4, act.toNat)]) = none →
      ruleBad (ruleOf cond qual thr act) = none → b.lineClash t i (ruleOf cond qual thr act) = false →
      exec (.rfxWrite h cond qual thr act) s = .next ((b.putRule t i (ruleOf cond qual thr act)).reply h 0x18
        (Reply.ok 0)).finish ∧ only b (b.putRule t i (ruleOf cond qual thr act)) (ruleOf cond qual thr act)) ∧
    (∀ en, s.lets h 0x19 (ruleOwns t (((s.advance h.at_).tile t).rules.getD i {})) false = true →
      let b := s.begins h 0x19
      let old := (b.tile t).rules.getD i {}
      let r := { old with cond := if en then old.cond ||| 0x80000000#32 else old.cond &&& 0x7FFFFFFF#32 }
      b.lineClash t i r = false →
      let u := b.putRule t i r
      exec (.rfxEnable h en) s = .next (u.reply h 0x19 (Reply.ok (payload [(16, 1,
        b2n ((u.tile t).rules.getD i {}).armed + 2 * ((u.tile t).rules.getD i {}).why)]))).finish ∧ only b u r)

/-- SEQ_ARM arms an admitted sequence afresh, SEQ_TRIGGER triggers it now or waits for its tick, SEQ_DISARM lets it run
out. In service, on a sequence that the port owns on a tile in service: SEQ_ARM of a sequence that is not active and
that admission accepts makes it armed and active with its counters, held triggers and history cleared, recomputes the
tile's worst cases, and completes with OK and its worst-case length; of one already armed it completes with OK and
changes nothing; SEQ_TRIGGER of an armed sequence with a future tick adds that tick to those it waits for, in order of
ticks, and gives no completion yet, and with tick 0 or a past one triggers it and completes with OK and its fate, but
up to the tick of the arm, when no trigger acts, with NOT_READY; SEQ_DISARM disarms it and completes when the scan in
progress ends, at once for one that is not active. (Where the spec leaves a choice the reading is the model's: log
entry 29.) Rests on 05_conversion_sequencing.md R189; 05_conversion_sequencing.md R193; 07_host_ports_rings.md Table
7-7. -/
def Obligations.SequenceCommandsArmTriggerAndDisarm : Prop :=
  ∀ (h : Hdr) (s : State), h.arg < 128 → s.serves h.at_ (h.arg / 8) = true →
    let t := h.arg / 8
    let n := h.arg % 8
    let q := (s.tile t).seq n
    let worst (u : State) : Reply := Reply.ok (payload [(16, 4, ((u.tile t).seq n).worst)])
    let lets (op : Nat) : Prop := s.lets h op [(1, h.arg)] false = true
    (lets 0x30 → q.active = true → q.arm = true → exec (.seqArm h) s = .next ((s.begins h 0x30).reply h 0x30 (worst (s.begins h 0x30))).finish) ∧
    (lets 0x30 → q.active = false → (s.tile t).seqAdmit n { q with arm := true, active := true } = 0 →
      let b := s.begins h 0x30
      let u := (b.modSeq t n fun _ => { q with
        arm := true, active := true, adm := 0, overrun := 0, scans := 0, scan := none, held := none, lastTrig := none,
        future := [], hist := [], specWait := 0, since := false, noticeAt := none, armAt := b.tnow t, disarmH := [] }).modTile t
          Tile.setWorst
      exec (.seqArm h) s = .next (u.reply h 0x30 (worst u)).finish) ∧
    (∀ tick : Nat, lets 0x32 → q.active = true → q.arm = true →
      let b := s.begins h 0x32
      b.tnow t < tick →
      exec (.seqTrigger h tick) s = .next (b.modSeq t n fun q => { q with future := insertFuture (tick, h) q.future }).finish) ∧
    (∀ tick : Nat, lets 0x32 → q.active = true → q.arm = true →
      let b := s.begins h 0x32
      tick ≤ b.tnow t → b.tnow t ≤ q.armAt →
      exec (.seqTrigger h tick) s = .next (b.reply h 0x32 { st := 4 }).finish) ∧
    (∀ tick : Nat, lets 0x32 → q.active = true → q.arm = true →
      let b := s.begins h 0x32
      tick ≤ b.tnow t → q.armAt < b.tnow t →
      let x := b.fire t n (if tick = 0 then b.tnow t else tick)
      exec (.seqTrigger h tick) s = .next (x.1.reply h 0x32 (Reply.ok (payload [(16, 1, x.2.getD 0)]))).finish) ∧
    (lets 0x31 → q.active = false → exec (.seqDisarm h) s = .next ((s.begins h 0x31).reply h 0x31 (Reply.ok 0)).finish) ∧
    (lets 0x31 → q.active = true → exec (.seqDisarm h) s = .next ((s.begins h 0x31).disarmSeq t n [h]).finish)

/-- INJECT joins its tile's queue of at most four, and CALIBRATE starts or joins a calibration. In service on a tile in
service whose reference is ready: INJECT on a channel that the port owns (or on a tile's internal input) with a sound
slot word that fits the injection window, with fewer than four waiting, is put at the end of the tile's queue;
CALIBRATE without EXCL starts a background calibration of both converters or joins the one under way; CALIBRATE with
EXCL, with the tile's eight sequences owned and none of them armed on its converters, abandons a background
calibration (whose commands complete with ABORTED) and starts an exclusive one that counts the injected conversions
before it. None of them completes yet. (Where the spec leaves a choice the reading is the model's: log entry 31.)
Rests on 05_conversion_sequencing.md R205; 05_conversion_sequencing.md R207; 05_conversion_sequencing.md R208. -/
def Obligations.ConverterCommandsAreQueued : Prop :=
  ∀ (h : Hdr) (s : State),
    (∀ slot i, s.lets h 0x33 (if h.arg < 512 then [(0, h.arg)] else []) false = true → h.arg < 528 →
      let t := if h.arg < 512 then h.arg / 32 else h.arg - 512
      s.serves h.at_ t = true → opsBad 0x33 slot.toNat = none → (s.tile t).cv.refReady = true →
      injTarget h.arg slot = some (t, i) → (s.tile t).slotOk i slot = true →
      (s.tile t).slotWorst i slot ≤ (s.tile t).cv.injW * us → (s.tile t).cv.injQ.length < 4 →
      exec (.inject h slot) s = .next ((s.begins h 0x33).modCv t fun u => { u with
        injQ := u.injQ ++ [{ h := h, input := i, slot := slot }] }).finish) ∧
    (∀ conv, s.lets h 0x34 [] false = true → h.arg < 16 → s.serves h.at_ h.arg = true → (s.tile h.arg).cv.refReady = true →
      exec (.calibrate h conv) s = .next ((s.begins h 0x34).modCv h.arg fun u =>
        if u.cal.busy then { u with cal := { u.cal with hdrs := u.cal.hdrs ++ [h] } }
        else { u with cal := { u.cal with
          busy := true, excl := false, convs := 3, stepsP := 0, stepsF := 0, dueP := (s.begins h 0x34).tnow h.arg, dueF := (s.begins h 0x34).tnow h.arg, before := 0, hdrs := [h], bad := false } }).finish) ∧
    (∀ conv, s.lets h 0x34 ((List.range 8).map fun n => (1, 8 * h.arg + n)) false = true → h.arg < 16 → s.serves h.at_ h.arg = true →
      conv % 4 ≠ 0 → (s.tile h.arg).cv.refReady = true → ((s.tile h.arg).cv.cal.busy && (s.tile h.arg).cv.cal.excl) = false →
      (s.tile h.arg).armedSeqs.any (fun x => (conv.testBit 0 && x.2.uses 0) || (conv.testBit 1 && x.2.uses 1)) = false →
      let v := forAll (fun g u => u.reply g 0x34 { st := 6 }) (s.tile h.arg).cv.cal.hdrs (s.begins h 0x34)
      exec (.calibrateExcl h conv) s = .next
        (v.modCv h.arg fun u =>
          { u with cal := { u.cal with
            busy := true, excl := true, convs := conv % 4, stepsP := 0, stepsF := 0, dueP := v.tnow h.arg, dueF := v.tnow h.arg,
            before := u.injQ.length + u.injRunning, hdrs := [h], bad := false } }).finish)

/-- STREAM_START starts a sound context within the budgets, STREAM_STOP ends it, STREAM_SOURCE asks for its switch. In
service, on a context that the port owns: STREAM_START of a context that does not run, is sound, names an active data
ring of its block size, has its grid sequence armed and fits computation, memory and rate, starts it and completes
with OK, its delay, half delay, settling count and the rate budget left; STREAM_STOP of a running context begins its
stop with reason 0, and of one that does not run completes with OK at once; STREAM_SOURCE of a running context to a
channel of the same code weight and signedness (and in its grid's sequence) is kept until it takes effect, in place of
one kept before, which completes with ABORTED, and gives no completion yet. (Where the spec leaves a choice the
reading is the model's: log entry 14.) Rests on 06_filter_pipelines.md R243; 06_filter_pipelines.md R245;
06_filter_pipelines.md R225; 06_filter_pipelines.md R247; 06_filter_pipelines.md R249. -/
def Obligations.StreamCommandsStartStopAndSwitch : Prop :=
  ∀ (h : Hdr) (s : State), h.arg < 512 →
    let p := h.arg / 32
    let c := h.arg % 32
    let x := s.ctx p c
    let T := s.tile p
    let lets (op : Nat) : Prop := s.lets h op [(2, h.arg)] false = true
    (∀ ring, lets 0x50 →
      let b := s.begins h 0x50
      ring < 64 → ((b.port h.port).ring ring).active = true → ((b.port h.port).ring ring).ty = 3 →
      ((b.port h.port).ring ring).block = x.blockN → x.run = false → x.adm = 0 → T.ctxBad (b.pipe p) x = false →
      (x.grid = true → (T.seq x.seqN).active = true) → b.streamFull p c h.port = none →
      let u := b.startCtx p c h.port ring
      exec (.streamStart h ring) s = .next (u.reply h 0x50 (Reply.ok (payload [(16, 4, (u.ctx p c).delay),
        (20, 2, (u.ctx p c).delayHalf), (22, 2, (u.ctx p c).lset), (24, 4, u.budget h.port)]))).finish) ∧
    (lets 0x51 → x.run = true → exec (.streamStop h) s = .next ((s.begins h 0x51).stopCtx p c 0 (some h)).finish) ∧
    (lets 0x51 → x.run = false → exec (.streamStop h) s = .next ((s.begins h 0x51).reply h 0x51 (Reply.ok 0)).finish) ∧
    (∀ n, lets 0x52 → x.run = true → x.ending = none → n < 32 → (T.chan n).mode.streams = true →
      (T.chan n).weight = (T.chan x.r.ch).weight → (T.chan n).signed = (T.chan x.r.ch).signed →
      (x.grid = true → ((T.seq x.seqN).slotOf n).isSome = true) →
      let b := match x.r.pendSrc with | some y => (s.begins h 0x52).reply y.2 0x52 { st := 6 } | none => s.begins h 0x52
      exec (.streamSource h n) s = .next (b.modCtx p c fun x => { x with r := { x.r with pendSrc := some (n, h) } }).finish)

/-- BANK_LOAD makes an unused bank the sound image it carries and valid; BANK_SELECT begins a cross-fade to a bank that
fits. In service: BANK_LOAD (bank owned, no SETUP_LOCK) of a bank that no running context uses stores a sound image,
marks it valid and completes with OK, and an unsound image makes the bank invalid and completes with BAD_PARAM;
BANK_SELECT (context owned) on a running context without a fade, of its own bank, completes with OK, and of another
valid bank of the same shape with a fade of 1 to 1024 samples and capacity for both begins the fade and gives no
completion yet. (Where the spec leaves a choice the reading is the model's: log entry 14.) Rests on
06_filter_pipelines.md R240; 06_filter_pipelines.md R241; 07_host_ports_rings.md R267. -/
def Obligations.BankCommandsLoadAndFade : Prop :=
  ∀ (h : Hdr) (s : State),
    (∀ image, s.lets h 0x53 [(3, h.arg)] true = true → h.arg < 64 →
      let b := s.begins h 0x53
      (b.pipe (h.arg / 4)).bankUsed (h.arg % 4) = false →
      let put (f : CBank → CBank) : State := { b with
        pipes := updAt (fun P => { P with banks := updAt f (h.arg % 4) P.banks }) (h.arg / 4) b.pipes }
      exec (.bankLoad h image) s = .next (if ({ words := image } : CBank).ok
        then (put fun _ => { words := image, valid := true }).reply h 0x53 (Reply.ok 0)
        else (put fun x => { x with valid := false }).reply h 0x53 { st := 1 }).finish) ∧
    (∀ bank f, s.lets h 0x54 [(2, h.arg)] false = true → h.arg < 512 →
      let b := s.begins h 0x54
      let p := h.arg / 32
      let c := h.arg % 32
      let x := b.ctx p c
      let P := b.pipe p
      x.run = true → x.ending = none → x.r.fade = none → 1 ≤ f → f ≤ 1024 → bank < 4 →
      (bank = x.bankNow → exec (.bankSelect h bank f) s = .next (b.reply h 0x54 (Reply.ok 0)).finish) ∧
      (bank ≠ x.bankNow → (P.banks.getD bank {}).valid = true → x.banksDiffer (P.inForce x) (P.banks.getD bank {}) = false →
        P.committed + x.demand ≤ 4800 → exec (.bankSelect h bank f) s = .next (b.modCtx p c fun x => { x with
          r := { x.r with fade := some { dst := bank, f := f, i := 1, h := h } } }).finish))

/-- SP_FRAME queues a frame of an enabled port; SP_ABORT drops the waiting frames with ABORTED and ends the running one.
In service, on a serial port that the host port owns: SP_FRAME on an enabled port puts its frame at the end of the
port's queue and gives no completion yet; SP_ABORT empties the queue, each of whose frames completes with ABORTED in
order, marks the frame in progress to end now if an edge of it is still to come, and completes with OK and the number
of frames it ended. (Where the spec leaves a choice the reading is the model's: log entry 40.) Rests on
11_serial_ports.md R396; 11_serial_ports.md R399; 11_serial_ports.md R401. -/
def Obligations.SerialCommandsQueueAndAbortFrames : Prop :=
  ∀ (h : Hdr) (s : State),
    (∀ rec resAddr fails, s.lets h 0x60 [(4, h.arg / 4)] false = true → h.arg < 64 → (s.sps.getD (h.arg / 4) {}).en = true →
      exec (.spFrame h rec resAddr fails) s = .next ((s.begins h 0x60).modSp (h.arg / 4) fun p => { p with
        wait := p.wait ++ [{ h := h, sel := h.arg % 4, fr := rec, resAddr := resAddr, fails := fails }] }).finish) ∧
    (s.lets h 0x61 [(4, h.arg)] false = true → h.arg < 16 →
      let b := s.begins h 0x61
      let p := s.sps.getD h.arg {}
      let hit := match p.cur with
        | some f => f.abortAt.isNone && decide (b.now ≤ f.lastEdge (recTotal f.fr))
        | none => false
      let stopped := b.modSp h.arg fun p => { p with
        wait := [], cur := if hit then p.cur.map fun f => { f with abortAt := some b.now } else p.cur }
      exec (.spAbort h) s = .next ((forAll (fun (f : Frame) u => u.reply f.h 0x60 { st := 6, pl := payload [(19, 1, 2)] })
        p.wait stopped).reply h 0x61 (Reply.ok (payload [(16, 1, p.wait.length + b2n hit)]))).finish)

/-- TILE_OFFLINE begins the way out of service, TILE_READMIT the way back, and ROTATE a rotation onto a fit engine. In
service, where the other port owns no channel of the tile: TILE_OFFLINE of a tile in service ends a rotation of it
before its gap, sets LIFE to going offline with the command waiting for its end, and takes the tile down in the safe-
state scope of service; ROTATE, with an image to run, no rotation under way and an engine fit for it, starts one.
TILE_READMIT of an offline tile with an engine resets its logic and sets LIFE to readmitting with the command waiting.
None of them completes yet. (Where the spec leaves a choice the reading is the model's: log entries 34 and 35.) Rests
on 08_engines_reflexes_power.md R309; 08_engines_reflexes_power.md R320; 08_engines_reflexes_power.md R321. -/
def Obligations.ServiceCommandsTakeTheirTile : Prop :=
  ∀ (h : Hdr) (s : State), h.arg < 16 →
    ((s.advance h.at_).peerOwns h.port (32 * h.arg) 32 = none → s.serves h.at_ h.arg = true →
      (s.lets h 0x78 [] false = true → exec (.tileOffline h) s = .next (((((s.begins h 0x78).abortRot h.arg).modLink h.arg fun L =>
        { L with life := .offlining, lifeH := L.lifeH ++ [h] }).takeDown h.arg true { k := 35 + h.arg, nosrc := true })).finish) ∧
      ∀ newImg img, s.lets h 0x88 [] false = true →
        let b := s.begins h 0x88
        b.rotImage h.arg newImg = some img → s.rot.busy = false → (b.pickEng (some img)).isSome = true →
        exec (.rotate h newImg) s = .next (b.startRot h.arg img (some h)).finish ∧
        (b.startRot h.arg img (some h)).rot.busy = true ∧ (b.startRot h.arg img (some h)).rot.tile = h.arg ∧
        (b.startRot h.arg img (some h)).rot.h = some h) ∧
    (s.lets h 0x79 [] false = true → s.engineless h.arg = false → (s.tile h.arg).bound = true →
      (s.advance h.at_).holdsBack h.arg = false → (s.tile h.arg).link.life = .offline →
      let b := s.begins h 0x79
      exec (.tileReadmit h) s = .next ((((b.modTile h.arg (Tile.logicReset (b.tnow h.arg))).modLink h.arg fun L =>
        { L with life := .readmitting, lifeH := L.lifeH ++ [h] }).refresh h.arg)).finish)

/-- IMAGE_VERIFY, IMAGE_ERASE, IMAGE_CONFIRM and SETTINGS_SAVE change STAGE, records and settings halves as the update
rules say. In service with the session free or the port's own: IMAGE_VERIFY with no update under way, of an image in
the standby bank that passes every check, writes its VERIFIED record, sets STAGE to VERIFIED and completes with OK; of
one that fails a check it sets STAGE to what it is without a download, records the check and completes with its
status; IMAGE_ERASE outside activation, trial and revert empties the standby record but for floor and revoked keys and
ends the session; IMAGE_CONFIRM outside a trial, and SETTINGS_SAVE while saving is barred, complete with NOT_READY and
change nothing; SETTINGS_SAVE otherwise, with settings that could be read, writes a settings half and completes with
OK and its sequence number; IMAGE_CONFIRM of the image in trial makes it the running ACTIVE bank with the next GEN,
ends session and trial and completes with OK. (Where the spec leaves a choice the reading is the model's: log entries
41 and 42.) Rests on 10_firmware_update_recovery.md R362; 10_firmware_update_recovery.md R366;
10_firmware_update_recovery.md R372; 10_firmware_update_recovery.md R375; 10_firmware_update_recovery.md Table 10-9. -/
def Obligations.ImageIsVerifiedConfirmedErased : Prop :=
  ∀ (h : Hdr) (s : State), (s.advance h.at_).sessionBad h = none →
    let lets (op : Nat) : Prop := s.lets h op [] false = true
    let src (o : State) : Nat := bankBase o.standby
    let pl (o : State) (c : Nat) : Nat := payload [(16, 1, c), (20, 4, o.storeNat (src o + 12) 4), (24, 2, o.storeNat (src o + 16) 2),
      (26, 1, o.storeNat (src o + 40) 1)]
    (lets 0x81 → s.upd.stage.busy = false →
      let o := (s.begins h 0x81).openSession h.port
      o.checkImage (src o) false = 0 →
      exec (.imageVerify h false false) s = .next (({ o.verifiedRec with upd := { o.verifiedRec.upd with
        stage := .verified, lastCheck := 0, idleAt := some o.verifiedRec.now } } : State).reply h 0x81 (Reply.ok (pl o 0))).finish) ∧
    (lets 0x81 → s.upd.stage.busy = false → ∀ c,
      let o := (s.begins h 0x81).openSession h.port
      o.checkImage (src o) false = c → c ≠ 0 →
      exec (.imageVerify h false false) s = .next (({ o with upd := { o.upd with
        stage := o.restStage, lastCheck := c,
        idleAt := if o.restStage = .idle then some o.now else none } } : State).reply h 0x81
          { st := checkStatus c, pl := pl o c }).finish) ∧
    (lets 0x87 → s.upd.stage ≠ .activating → s.upd.stage ≠ .trial → s.upd.stage ≠ .reverting →
      let b := s.begins h 0x87
      let e := b.modRec b.standby fun r => { floor := r.floor, revoked := r.revoked }
      exec (.imageErase h) s = .next (({ e with upd := { e.upd with
        stage := e.restStage, session := none, idleAt := none } } : State).reply h 0x87 (Reply.ok 0)).finish) ∧
    (lets 0x83 → s.upd.stage ≠ .trial → ∀ f, exec (.imageConfirm h f) s = .next ((s.begins h 0x83).reply h 0x83 { st := 4 }).finish) ∧
    (lets 0x83 → s.upd.stage = .trial → s.trialBank.isSome = true → ∃ u, exec (.imageConfirm h false) s =
      .next (State.reply h 0x83 (Reply.ok 0) u).finish ∧ u.upd.stage = .idle ∧ s.trialBank = some u.upd.runBank ∧
        u.upd.session = none ∧ u.upd.trialEnd = none ∧ u.upd.lastOutcome = 1) ∧
    (lets 0x86 → (s.begins h 0x86).saveBarred = true → exec (.settingsSave h) s = .next ((s.begins h 0x86).reply h 0x86 { st := 4 }).finish) ∧
    (lets 0x86 → (s.begins h 0x86).saveBarred = false → s.start.setSrc ≠ 3 →
      let o := (s.begins h 0x86).openSession h.port
      let w := o.saveSettings o.upd.runBank
      exec (.settingsSave h) s = .next (w.reply h 0x86 (Reply.ok (payload [(16, 4,
        match w.newest with | some (_, x) => x.seq | none => 0)]))).finish)

/-- IMAGE_ACTIVATE begins a trial live or by a restart, IMAGE_REVERT ends it, and IMAGE_RECOVER restarts into recovery. In
service without SETUP_LOCK, with the session free or own and no channel owned by the other port, with a verified image
in the standby bank whose stored digests match: live IMAGE_ACTIVATE (every tile online, parts that fit, a usable
engine, no DEFAULTS, a trial time in range) marks the bank TRIAL, sets STAGE to ACTIVATING and loads the supervisor
part without completing; with RESTART it marks the bank TRIAL for the next boot, completes with OK and restarts;
IMAGE_RECOVER completes with OK and restarts into recovery. IMAGE_REVERT (session free or own) of a trial or an
activation goes back with cause 2, and outside both completes with NOT_READY. (Where the spec leaves a choice the
reading is the model's: log entry 41.) Rests on 10_firmware_update_recovery.md R367; 10_firmware_update_recovery.md
R369; 10_firmware_update_recovery.md R370; 10_firmware_update_recovery.md R371; 10_firmware_update_recovery.md R373;
10_firmware_update_recovery.md R381. -/
def Obligations.ActivationRestartRevertAndRecovery : Prop :=
  ∀ (h : Hdr) (s : State), (s.advance h.at_).sessionBad h = none →
    ((s.advance h.at_).peerOwns h.port 0 512 = none →
      (s.lets h 0x85 [] true = true → exec (.imageRecover h) s = .next (State.chipRestart
        { (s.begins h 0x85).reply h 0x85 (Reply.ok 0) with start := { s.start with wantRecovery := true } }).finish) ∧
      ∀ dflt secs, s.lets h 0x82 [] true = true →
        let b := s.begins h 0x82
        secsBad secs = false → b.canActivate = true → b.digestsMatch b.standby = true →
        (b.tiles.any (fun T => T.link.life ≠ .online) = false → b.liveFits (bankBase b.standby) (bankBase s.upd.runBank) = true →
          engNos.any (fun n => (b.engine n).usable) = true →
          let r := (b.openSession h.port).modRec b.standby fun r => { r with st := .trial, nextBoot := false }
          exec (.imageActivateLive h false secs) s = .next (State.loadDepot b.standby { r with upd := { r.upd with
            stage := .activating, act := some h, liveTrial := true, rotated := 0, svDone := false,
            trialSecs := trialTime secs, trialEnd := none, idleAt := none } }).finish) ∧
        (let r := b.modRec b.standby fun r => { r with st := .trial, nextBoot := true }
         exec (.imageActivateRestart h dflt secs) s = .next ((({ r with upd := { r.upd with
            defaults := dflt, trialSecs := trialTime secs } } : State).reply h 0x82 (Reply.ok 0)).chipRestart).finish)) ∧
    (s.lets h 0x84 [] false = true →
      let b := s.begins h 0x84
      (s.upd.stage = .trial ∨ s.upd.stage = .activating →
        exec (.imageRevert h) s = .next ((b.openSession h.port).revert 2 (some h)).finish) ∧
      (s.upd.stage ≠ .trial → s.upd.stage ≠ .activating → exec (.imageRevert h) s = .next (b.reply h 0x84 { st := 4 }).finish))

/-- A BAR0 write of one whole word reaches its register; a partial or wide one, one of another port's block, or one of an
RWL field out of place is counted. While the device runs: a register write that is not of one whole word, that names
no register or the other port's block, or that reaches an RWL register under SETUP_LOCK or before COMPLETE is
discarded, which the port's CAT_STAT counts with its address, and does nothing else; any other is put into its
register. The writes with rows of their own (ring, port, channel, sequence, converter, injection, output test, rule,
reflex latency, trim, horizon and vitrine registers) are such writes of one whole word at the address that the
catalogue gives the register. (Where the spec leaves a choice the reading is the model's: log entry 20.) Rests on
14_register_catalogue.md R442; 14_register_catalogue.md R441; 14_register_catalogue.md Table 14-2;
14_register_catalogue.md R447. -/
def Obligations.RegisterWritesReachTheirRegisterOrAreCounted : Prop :=
  ∀ (τ : Nat) (p : PortId) (w : Word) (s : State), s.power = .running →
    let b := s.advance τ
    let at_ (a : Nat) : Host.Outcome State Fault Refusal := .next (b.barWrite p a 1 15 w).finish
    (∀ a n be, n ≠ 1 ∨ be ≠ 15 ∨ (blockOf a).isNone = true ∨ otherPort p a = true ∨ (isRwl a = true ∧ b.rwl = false) →
      exec (.registerWrite τ p a n be w) s = .next (b.modPort p fun P => { P with
        catDisc := satInc 0xFFF P.catDisc, catLast := a % 2 ^ 20 }).finish) ∧
    (∀ a, (blockOf a).isNone = false → otherPort p a = false → (isRwl a = true → b.rwl = true) →
      exec (.registerWrite τ p a 1 15 w) s = .next (b.poke p a w).1.finish) ∧
    (∀ r, exec (.ringEnable τ p r w) s = at_ (portBase p + 0x108 + 16 * r) ∧
      exec (.ringDisable τ p r w) s = at_ (portBase p + 0x108 + 16 * r)) ∧
    exec (.portEnable τ p w) s = at_ (portBase p) ∧
    (∀ t c reg, exec (.channelRegWrite τ p t c reg w) s = at_ (0x20000 + 0x4000 * t + 16 * c + 4 * reg) ∧
      exec (.trimRegWrite τ p t c reg w) s = at_ (0x20000 + 0x4000 * t + 0x600 + 8 * c + 4 * reg) ∧
      exec (.rfxRegWrite τ p t c reg w) s = at_ (0x20000 + 0x4000 * t + 0x2000 + 16 * c + 4 * reg)) ∧
    (∀ t n, exec (.seqCfgArm τ p t n w) s = at_ (0x20000 + 0x4000 * t + 0x840 + 0x20 * n) ∧
      exec (.seqCfgDisarm τ p t n w) s = at_ (0x20000 + 0x4000 * t + 0x840 + 0x20 * n)) ∧
    (∀ t, exec (.refEnable τ p t w) s = at_ (0x20000 + 0x4000 * t + 0x800) ∧
      exec (.refDisable τ p t w) s = at_ (0x20000 + 0x4000 * t + 0x800) ∧
      exec (.injCfgWrite τ p t w) s = at_ (0x20000 + 0x4000 * t + 0x80C) ∧
      exec (.doTestWrite τ p t w) s = at_ (0x20000 + 0x4000 * t + 0x408) ∧
      exec (.rfxLatClear τ p t w) s = at_ (0x20000 + 0x4000 * t + 0x2508) ∧
      exec (.vitCapture τ p t w) s = at_ (0x20000 + 0x4000 * t + 0x3C00)) ∧
    exec (.orderHorizonWrite τ p w) s = at_ 0x120

/-- Accepted writes of converter, injection, output test, rule, latency, trim and horizon registers set exactly the fields
they name. While the device runs, complete and without SETUP_LOCK, on tile, channel and rule numbers that exist:
CONV_CTRL sets REF_EN and the converter fields and clears readiness with REF_EN (and with REF_EN cleared while it is
held, sets REF_REFUSED alone); INJ_CFG that the worst cases allow sets gap (at least 100) and window; DO_TEST within
the heat limit sets width and period; a sound rule word is put into its register; RFX_LAT with bit 31 clears the
latency; a trim register in range changes the trim; ORDER_HORIZON sets the horizon between 1000 and 100000 ticks and
releases what is then due. (Where the spec leaves a choice the reading is the model's: log entry 20.) Rests on
05_conversion_sequencing.md Table 5-7; 05_conversion_sequencing.md R199; 03_switching_channels.md Table 3-9;
08_engines_reflexes_power.md R299; 04_measuring_channels.md R172; 02_accession_time_order.md R63. -/
def Obligations.TileRegisterWritesSetTheirFields : Prop :=
  ∀ (τ : Nat) (p : PortId) (w : Word) (s : State), s.power = .running → (s.advance τ).rwl = true →
    let b := s.advance τ
    (∀ t, t < 16 →
      let u := (b.tile t).cv
      let set (en : Bool) : State := b.modCv t fun u => { u with
        refEn := en, align := bit w 30, calAuto := bit w 29, calDt := max 10 (fld w 23 16), calPeriod := fld w 15 0,
        refReady := u.refReady && en, refFault := u.refFault && en,
        badCnt := if en = u.refEn then u.badCnt else 0, goodCnt := if en = u.refEn then u.goodCnt else 0 }
      (bit w 31 = true → exec (.refEnable τ p t w) s = .next ((set true).refresh t).finish) ∧
      (bit w 31 = false → u.refEn = true → (b.tile t).refHeld = true →
        exec (.refDisable τ p t w) s = .next (b.modCv t fun u => { u with refRefused := true }).finish) ∧
      (bit w 31 = false → u.refEn = true → (b.tile t).refHeld = false →
        exec (.refDisable τ p t w) s = .next (((set false).endPresent (35 + t) 6).refresh t).finish) ∧
      ((b.tile t).worstAll (b.tile t).armedSeqs (max 100 (fld w 31 16)) (fld w 15 0) = true →
        exec (.injCfgWrite τ p t w) s = .next ((b.modCv t fun u =>
          { u with injGap := max 100 (fld w 31 16), injW := fld w 15 0 }).modTile t Tile.setWorst).finish) ∧
      (({ b.tile t with tpWidth := clampNat 100 1000 (fld w 25 16), tpPeriod := max 1 (fld w 9 0) } : Tile).heat ≤ 6000 →
        exec (.doTestWrite τ p t w) s = .next (b.modTile t fun T =>
          { T with tpWidth := clampNat 100 1000 (fld w 25 16), tpPeriod := max 1 (fld w 9 0) }).finish) ∧
      (bit w 31 = true → exec (.rfxLatClear τ p t w) s = .next (b.modTile t fun T => { T with rfxLat := 0 }).finish) ∧
      (∀ r reg, r < 64 → reg < 4 →
        let x := ((b.tile t).rules.getD r {}).put reg w
        ruleBad x = none → b.lineClash t r x = false →
        exec (.rfxRegWrite τ p t r reg w) s = .next (b.putRule t r x).finish) ∧
      (∀ c, c < 32 →
        ((b.chan t c).ofsOk (sext 24 (fld w 23 0)) = true → exec (.trimRegWrite τ p t c 0 w) s =
          .next (b.trimChange t c (sext 24 (fld w 23 0)) (b.chan t c).trimGain).finish) ∧
        (gainOk (fld w 23 0) = true → exec (.trimRegWrite τ p t c 1 w) s =
          .next (b.trimChange t c (b.chan t c).trimOfs (fld w 23 0)).finish))) ∧
    exec (.orderHorizonWrite τ p w) s = .next (State.releaseHeld { b with merge := { b.merge with
      horizon := clampNat 1000 100000 w.toNat } }).finish

/-- SEQ_CFG arms, disarms or configures its sequence; RING_CFG and PORT_CTRL enable and disable; VIT_SEL and TB_NOW_LO
capture. While the device runs, with numbers in range: SEQ_CFG (complete, without SETUP_LOCK) with ARM arms a sequence
that is not active as SEQ_ARM does, without ARM disarms an armed one, and on one that is not active stores sound
configuration bits; RING_CFG of the port's own ring enables or disables it, PORT_CTRL sets ENABLE; VIT_SEL with
CAPTURE stores the captured item in the port's own copy; a read of TB_NOW_LO latches the hub count for the port.
(Where the spec leaves a choice the reading is the model's: log entry 20.) Rests on 05_conversion_sequencing.md R189;
07_host_ports_rings.md R258; 07_host_ports_rings.md Table 7-3; 02_accession_time_order.md R49;
02_accession_time_order.md R52. -/
def Obligations.SequenceAndPortRegisterWrites : Prop :=
  ∀ (τ : Nat) (p : PortId) (w : Word) (s : State), s.power = .running →
    let b := s.advance τ
    (b.rwl = true → ∀ t n, t < 16 → n < 8 →
      let q := (b.tile t).seq n
      let cfg := w &&& 0x07FFFFFF#32
      (bit w 31 = true → q.active = false →
        exec (.seqCfgArm τ p t n w) s = .next (b.armSeq t n cfg).1.finish) ∧
      (bit w 31 = false → q.active = true → q.arm = true →
        exec (.seqCfgDisarm τ p t n w) s = .next (b.disarmSeq t n []).finish) ∧
      (bit w 31 = false → q.active = false → seqCodesBad cfg = false →
        exec (.seqCfgDisarm τ p t n w) s = .next (b.modSeq t n fun q => { q with cfg := cfg, adm := 0 }).finish)) ∧
    (b.rwl = true → ∀ r, r < 64 →
      (bit w 31 = true → exec (.ringEnable τ p r w) s = .next (b.ringEnable p r w).finish) ∧
      (bit w 31 = false → exec (.ringDisable τ p r w) s = .next (b.ringDisable p r w).finish) ∧
      (bit w 31 = false → ((b.port p).ring r).en = true → ((b.port p).ring r).ty ≠ 1 →
        b.ringDisable p r w = b.modPort p fun P => P.modRing r fun q => { q with en := false }) ∧
      (((b.port p).ring r).en = true → b.ringEnable p r w = b)) ∧
    (b.rwl = true → exec (.portEnable τ p w) s = .next (b.portCtrl p w).finish) ∧
    (∀ t, t < 16 → bit w 31 = true → exec (.vitCapture τ p t w) s = .next (b.modTile t fun T => match p with
      | .ha => { T with vitHa := b.capture t w }
      | .hb => { T with vitHb := b.capture t w }).finish) ∧
    exec (.tbNowLoRead τ p) s = .next (b.modPort p fun P => { P with
      tbHi := b.now / 2 ^ 32 % 2 ^ 32, tbLo := b.now % 2 ^ 32 }).finish

/-- A poll takes producer counts, a nudge asks for one, and a fetch takes one descriptor of the ring whose turn it is.
While the device runs: a poll that is due on a running port (its interval has passed or a nudge asked for it) sets
when the next is due, takes the producer counts of the rings up to the highest enabled one in order and then writes
what found room, and one whose read fails stops polling with the doorbell fault; a nudge in the first 4 KiB of BAR2 of
an enabled port makes a poll due. A grant of the ring whose turn it is, not twice in turn to one intake while the
other has a descriptor ready, counts its descriptor as consumed, writes the count to its CONS word, reserves a slot in
the completion ring of that moment, and keeps the command for execution, or completes it at once with BAD_PARAM at the
first byte that is not as the tables have it. (Where the spec leaves a choice the reading is the model's: log entries
16 and 19.) Rests on 07_host_ports_rings.md R260; 07_host_ports_rings.md R261; 07_host_ports_rings.md R262;
07_host_ports_rings.md R264; 07_host_ports_rings.md R265; 07_host_ports_rings.md R289. -/
def Obligations.IntakeTakesProducersAndDescriptors : Prop :=
  ∀ (τ : Nat) (p : PortId) (s : State), s.power = .running →
    let b := s.advance τ
    (∀ prods, b.portRuns p = true → (b.port p).dbErr = false → (b.port p).pollAgain = true ∨ (b.port p).pollAt ≤ b.now →
      let a := b.modPort p fun P => { P with
        pollAgain := false, pollAt := if P.pollAt ≤ b.now then b.now + P.dbPoll * us / 10 else P.pollAt }
      exec (.doorbellPoll τ p prods false) s = .next
        ((forAll (fun (x : Nat × Nat) u => u.takeProd p x.2 x.1) (prods.take (b.port p).pollWords).zipIdx a).pump.pumpStreams).finish ∧
      exec (.doorbellPoll τ p prods true) s = .next
        ((a.modPort p fun P => { P with dbErr := true }).raise (portBlk p) 2 0 0 0).finish) ∧
    (∀ offset val, offset < 0x1000 → exec (.nudge τ p offset val) s = .next (b.modPort p fun P =>
      { P with pollAgain := P.pollAgain || (P.enable && !P.dbErr) }).finish) ∧
    (∀ r d, b.portRuns p = true → (b.port p).turn = some r →
      (b.portRuns p.peer = false ∨ (b.port p.peer).turn = none ∨ b.lastGrant ≠ some p) →
      let q := (b.port p).ring r
      let f : Fetched := { port := p, ring := r, cnt := q.cons, desc := d, tile := opTile d.opcode d.arg, cq := q.cq, at_ := b.now }
      let takes (P : Port) : Port := { ((P.modRing r fun q => { q with cons := q.cons + 1 }).modRing q.cq fun c =>
        { c with reserved := c.reserved + 1 }) with rr := r }
      let a := b.modPort p fun P => { takes P with out := P.out ++ [(takes P).consWrite r] }
      let v := ({ a with fetched := a.fetched ++ [f], lastGrant := some p } : State).rouse (portBlk p)
      (descBad d = none → descWrong d = none → exec (.descriptorFetch τ p r d) s = .next v.finish) ∧
      (∀ i, descBad d = some i → exec (.descriptorFetch τ p r d) s = .next
        ((v.begun (f.hdr v.now)).reply (f.hdr v.now) d.opcode { st := 1, rs := 8, ix := i }).finish))

/-- A waiting command's deadline completes it with DEADLINE_MISSED, an unsignalled ring sends its vector, and a ring error
stops its ring. While the device runs: when the deadline of a command that waits for an engine has passed, the command
leaves the waiting ones, raises the ring command deadline fault and completes with DEADLINE_MISSED; a ring of a live
port other than a command ring, with something unsignalled and its message gap over, sends its vector, and so does a
fault block, of the hub or of a tile with its link, that owes a message it has not sent before; an error on an active
ring of a running port marks the ring stopped with its kind and raises the port's RING source; an uncorrectable PCIe
error is logged in the port's AER status and raises its link source with that status. (Where the spec leaves a choice
the reading is the model's: log entry 44.) Rests on 01_hub_tiles_engines.md R37; 07_host_ports_rings.md R266;
07_host_ports_rings.md R291; 07_host_ports_rings.md R258; 09_faults_safe_state_archive.md Table 9-5. -/
def Obligations.WaitsMessagesAndRingErrors : Prop :=
  ∀ (τ : Nat) (p : PortId) (s : State), s.power = .running →
    let b := s.advance τ
    (∀ r n f, (b.fetched.find? fun f => f.port = p && f.ring = r && f.cnt = n && f.waiting) = some f →
      b.past (f.hdr b.now) = true → exec (.commandWaitDeadline τ p r n) s = .next
        (((b.begun (f.hdr b.now)).raiseCmd (f.hdr b.now) (b.engOf f.desc.opcode f.desc.arg)).reply (f.hdr b.now)
          f.desc.opcode { st := 5 }).finish) ∧
    (∀ r, r < 64 → (b.port p).live = true → ((b.port p).ring r).unsig = true → ((b.port p).ring r).ty ≠ 0 →
      (((b.port p).ring r).lastMsg = none ∨ ∃ x, ((b.port p).ring r).lastMsg = some x ∧
        x + ((b.port p).ring r).gap * us ≤ b.now) →
      exec (.msixMessage τ p r) s = .next ((b.modPort p fun P => P.modRing r fun q =>
        { q with unsig := false, lastMsg := some b.now }).msix p ((b.port p).ring r).vec).finish) ∧
    (∀ k, b.unseen k = false → (match p with | .ha => (b.blk k).owedHa | .hb => (b.blk k).owedHb) = true →
      (match p with | .ha => (b.blk k).sentHa | .hb => (b.blk k).sentHb) = none →
      exec (.msixMessage τ p (64 + k)) s = .next (b.faultMsi k p).finish) ∧
    (∀ r kind, b.portRuns p = true → ((b.port p).ring r).active = true → exec (.ringError τ p r kind) s = .next
      ((b.modPort p fun P => P.modRing r fun q => { q with err := true, errKind := kind }).raise (51 + p.code) 0 r kind 0).finish) ∧
    (∀ status, exec (.pcieUncorrectableError τ p status) s = .next
      ((b.modPort p fun P => { P with cs := { P.cs with aerStatus := P.cs.aerStatus ||| status } }).raise (51 + p.code) 1 0
        (status % 65536) 0).finish)

/-- A port reset clears its own port, and LIVE is link, Bus Master Enable and ENABLE together. While the device runs: a
port reset, PERST or Function Level Reset alike, leaves the port disabled and not live, its link down and its
configuration space, MSI-X entries, staged events, subscriptions and rings at their reset values but for the
reservations of commands in flight, and the other port as it was; and after a change of link, Bus Master Enable,
speed, width or power state the port's LIVE bit is set exactly when link, Bus Master Enable and ENABLE all are, with
every ring disabled when LIVE fell, and the other port's LIVE as it was. (Where the spec leaves a choice the reading
is the model's: log entry 44.) Rests on 07_host_ports_rings.md R253; 07_host_ports_rings.md R288;
07_host_ports_rings.md R258; 07_host_ports_rings.md Table 7-3. -/
def Obligations.PortResetAndLiveFollowTheLink : Prop :=
  ∀ (τ : Nat) (p : PortId) (s : State), s.power = .running →
    (∀ perst, ∃ u : State, exec (.portReset τ p perst) s = .next u.finish ∧
      (u.port p).enable = false ∧ (u.port p).live = false ∧ (u.port p).busMaster = false ∧
      (u.port p).linkUp = false ∧ (u.port p).cs = {} ∧
      (u.port p).rings = ((s.port p).rings.map fun q => ({ reserved := q.reserved } : Ring)) ∧ (u.port p).msix = List.replicate 64 {} ∧
      (u.port p).pba = List.replicate 64 false ∧ (u.port p).staging = [] ∧ (u.port p).dropCnt = 0 ∧
      (u.port p).subSrc = 0x1FFFF ∧ (u.port p).subKind = 0xFFFFFFFF ∧ u.port p.peer = s.port p.peer) ∧
    (∀ linkUp busMaster speed width l1, ∃ u : State,
      exec (.portLiveChange τ p linkUp busMaster speed width l1) s = .next u.finish ∧
      (u.port p).linkUp = linkUp ∧ (u.port p).busMaster = busMaster ∧ (u.port p).enable = (s.port p).enable ∧
      (u.port p).live = (linkUp && busMaster && (s.port p).enable) ∧ (u.port p.peer).live = (s.port p.peer).live)

/-- A power-on, brown-out, fall of PORST_N and Fallow entry reset everything but the store, the keep-alive domain and the
grave hold. From every state: a power-on holds the device in reset, counts a boot, clears the grave hold when VCORE
lay low for 100 ms or more, and loses RET, WAKE_CNT and FALLOW if VKA did not stay in range; while the device runs a
brown-out and a fall of PORST_N hold it in reset with cause 4 and 1; Fallow entry leaves only the keep-alive domain,
with WAKE_CNT 0; each of them leaves the store and the identity as they were and ownership, SETUP_LOCK, the tiles,
pipelines, engines, fault blocks and rings of both ports at their reset values. A crossing on WAKE counts in Fallow
and does nothing outside it; the loss of VKA marks rail 4 and empties the keep-alive registers. (Where the spec leaves
a choice the reading is the model's: log entry 43.) Rests on 12_supplies_startup_fallow.md R409;
12_supplies_startup_fallow.md R410; 12_supplies_startup_fallow.md R411; 12_supplies_startup_fallow.md R423;
12_supplies_startup_fallow.md R425; 12_supplies_startup_fallow.md Table 12-3. -/
def Obligations.ResetsKeepStoreAndKeepAliveDomain : Prop :=
  ∀ (τ : Nat) (s : State),
    let gone (u : State) : Prop := u.own = {} ∧ u.lock = {} ∧ u.tiles = State.reset.tiles ∧ u.pipes = State.reset.pipes ∧
      u.engines = State.reset.engines ∧ u.blks = State.reset.blks ∧ u.ha.rings = State.reset.ha.rings ∧
      u.hb.rings = State.reset.hb.rings ∧ u.fetched = [] ∧ u.txns = [] ∧ u.per.kept = s.per.kept
    (∀ lowMs vkaOk, ∃ u : State, exec (.powerOn τ lowMs vkaOk) s = .next u ∧ u.power = .held ∧ gone u ∧
      u.per.plog.boots = (s.per.plog.boots + 1) % 2 ^ 32 ∧ u.dev.grave = (s.dev.grave && decide (lowMs < 100)) ∧
      (vkaOk = true → u.per.ka = s.per.ka) ∧
      (vkaOk = false → u.per.ka.ret = List.replicate 64 0 ∧ u.per.ka.wakeCnt = 0 ∧ u.per.ka.fallow = false)) ∧
    (s.power = .running → ∃ u : State, exec (.brownOut τ) s = .next u ∧ u.power = .held ∧ gone u ∧ u.per.nextCause = 4 ∧
      u.per.ka = s.per.ka ∧ u.dev.grave = s.dev.grave) ∧
    (s.power = .running → ∃ u : State, exec (.porstFall τ) s = .next u ∧ u.power = .held ∧ gone u ∧ u.per.nextCause = 1 ∧
      u.per.ka = s.per.ka ∧ u.dev.grave = s.dev.grave) ∧
    (s.power ≠ .fallow → ∃ u : State, exec (.fallowEntry τ) s = .next u ∧ u.power = .fallow ∧ gone u ∧
      u.per.ka = { s.per.ka with wakeCnt := 0 }) ∧
    (s.power = .fallow → exec (.wakeCrossing τ) s = .next { s with per := { s.per with ka := { s.per.ka with
      wakeCnt := min 0xFFFF (s.per.ka.wakeCnt + 1) } } }) ∧
    (s.power ≠ .fallow → exec (.wakeCrossing τ) s = .next s) ∧
    (∃ u : State, exec (.vkaLoss τ) s = .next u ∧ u.per.ka.ret = List.replicate 64 0 ∧ u.per.ka.wakeCnt = 0 ∧
      u.per.ka.fallow = false ∧ u.per.ka.lostNow = true ∧ (4 < s.sup.ok.length → u.sup.ok.getD 4 true = false) ∧
      u.tiles = s.tiles ∧ u.per.kept = s.per.kept ∧ (s.power ≠ .fallow → u.power = s.power))

/-- Start-up samples VIO, TMODE and RECOV_N, selects a bank, powers the tiles, restores settings and completes. Of a
device that waits for its start-up (held in reset, or restarting by itself): TMODE leads to the test phase; outside
the grave hold a recovery request leads to recovery with STAGE RECOVERY and outcome 8, and otherwise, with no trial
record in the store and an ACTIVE bank whose digests match, that bank is booted; the count starts at 0. While the
device runs before COMPLETE, the start of a tile's barrier transfer powers it, in the net scope if the net is
asserted; completion in the tile phase restores the settings source, sets PHASE, SET_SRC and DONE_MS, and loads the
Depot with the running image; and, outside the grave hold, the end of a Depot load leaves the engine idle with that
image, or raises the store source when it fails. (Where the spec leaves a choice the reading is the model's: log entry
43.) Rests on 12_supplies_startup_fallow.md R416; 12_supplies_startup_fallow.md R417; 12_supplies_startup_fallow.md
R420; 12_supplies_startup_fallow.md R413; 10_firmware_update_recovery.md R378; 10_firmware_update_recovery.md R381;
08_engines_reflexes_power.md R314. -/
def Obligations.StartUpBootsThenConfiguresTilesThenCompletes : Prop :=
  ∀ (τ : Nat) (s : State),
    (∀ chip recov mv, (s.power = .held ∨ s.power = .running ∧ s.start.phase = .rom) → (chip = true ↔ s.per.nextCause = 2) →
      let a := s.atP.takeVio mv
      let b := a.lowFsafe
      (a.now = 0 ∧ a.power = .running ∧ a.start.cause = s.per.nextCause) ∧
      exec (.startup τ chip recov true mv) s = .next ({ a with start := { a.start with phase := .test } } : State).finish ∧
      (b.dev.grave = false → (recov = true ∨ b.start.wantRecovery = true) →
        exec (.startup τ chip recov false mv) s = .next ({ b with
          start := { b.start with phase := .recovery, wantRecovery := false },
          upd := { b.upd with stage := .recovery, lastOutcome := 8, defaults := false, trialSecs := 0 } } : State).finish) ∧
      (b.dev.grave = false → recov = false → b.start.wantRecovery = false → b.per.recA.st ≠ .trial → b.per.recB.st ≠ .trial →
        ∀ k, b.bootActive = (some k, false) → exec (.startup τ chip recov false mv) s = .next (b.boot k false).finish ∧
          (b.boot k false).start.phase = .tiles ∧ (b.boot k false).upd.runBank = k ∧ (b.boot k false).per = b.per)) ∧
    (s.power = .running →
      let b := s.advance τ
      (∀ t, b.start.phase ≠ .complete → (b.tile t).powered = false →
        let u := b.modTile t fun T => { T with powered := true }
        (b.dev.netOn = false → exec (.barrierTransferStart τ t) s = .next u.finish) ∧
        (b.dev.netOn = true → exec (.barrierTransferStart τ t) s =
          .next (u.enterScope t fun f => { f with net := true }).finish)) ∧
      (b.start.phase = .tiles → exec (.startupComplete τ) s = .next b.completeStart.finish) ∧
      (∀ n, b.dev.grave = false → (b.engine n).st = .loading → b.freeEng n = true →
        exec (.depotImageLoadEnd τ n true) s = .next (b.loaded n .idle 31).finish ∧
        exec (.depotImageLoadEnd τ n false) s = .next ((b.modEngine n fun e => { e with
          st := .idle, tile := 31, want := none }).raise 54 7 0 (Config.storeArea 0) 0).finish))

/-- A supply crossing, the FSAFE_N pin, the end of the device scope and a lost or returning barrier transfer act as the
spec says. While the device runs: a rail sample within the ratings sets SUP_STAT and raises SUPPLY with the rail as
CODE where the rail leaves its limits (VKA never), and one beyond the ratings of the pins has no specified effect; a
fall of FSAFE_N sets FSAFE_SEEN, raises its source and asserts the net; its rise ends the source; the net ends 1 ms
after the pin went high with no condition left; a lost barrier transfer of a powered tile is a loss of its link, ends
its staged actions with FAULTED, its scans, injections and streams and its part in transactions, makes the lines it
drives stale, resets its logic and leaves it unpowered; and its resumption powers the tile in the scope of its block,
outputs off, and begins its re-admission. (Where the spec leaves a choice the reading is the model's: log entries 18,
38 and 39.) Rests on 12_supplies_startup_fallow.md R405; 12_supplies_startup_fallow.md R414;
12_supplies_startup_fallow.md R415; 15_electrical_package.md R453; 09_faults_safe_state_archive.md R343;
09_faults_safe_state_archive.md R344; 01_hub_tiles_engines.md R31. -/
def Obligations.SupplySafeNetAndBarrierHappenings : Prop :=
  ∀ (τ : Nat) (s : State), s.power = .running →
    let b := s.advance τ
    (∀ rail mv, railBeyond rail mv = true → exec (.supplyThreshold τ rail mv) s = .fault .beyondRatings) ∧
    (∀ rail mv, railBeyond rail mv = false →
      let a : State := { b with sup := { b.sup with
        ok := updAt (fun _ => railOk b.sup.vio33 rail mv) rail b.sup.ok,
        seen := updAt (fun x => x || !railOk b.sup.vio33 rail mv) rail b.sup.seen,
        viso := if rail = 3 then (clampInt 0 65535 mv).toNat else b.sup.viso } }
      (rail = 4 ∨ b.sup.ok.getD rail true = railOk b.sup.vio33 rail mv →
        exec (.supplyThreshold τ rail mv) s = .next a.finish) ∧
      (rail ≠ 4 → b.sup.ok.getD rail true = true → railOk b.sup.vio33 rail mv = false →
        exec (.supplyThreshold τ rail mv) s = .next (a.raise 54 9 0 rail 0).finish) ∧
      (rail ≠ 4 → b.sup.ok.getD rail true = false → railOk b.sup.vio33 rail mv = true → (a.sup.ok.take 4).all id = true →
        exec (.supplyThreshold τ rail mv) s = .next (a.endPresent 54 9).finish)) ∧
    (b.dev.fsafe = true → exec (.fsafeFall τ) s = .next
      ((({ b with dev := { b.dev with fsafe := false, fsafeSeen := true } } : State).raise 54 0 0 0 0).assertNet 54 0).finish) ∧
    (b.dev.fsafe = false → exec (.fsafeRise τ) s = .next
      (({ b with dev := { b.dev with fsafe := true, highSince := b.now } } : State).endPresent 54 0).finish) ∧
    (b.dev.netOn = true → b.net = false → b.dev.highSince + ms ≤ b.now → exec (.deviceScopeEnd τ) s = .next
      ((forAll (fun t u => u.leaveScope t fun f => { f with net := false }) tileNos
        ({ b with dev := { b.dev with netOn := false } } : State)).netEvent 4).finish) ∧
    (∀ t, (b.tile t).powered = true →
      let as := ((b.loseSight t).tile t).chans.flatMap Chan.staged
      let a := (b.loseSight t).modTile t fun T => { T with chans := T.chans.map fun ch => { ch with staged := [] } }
      let v := forAll (fun (x : Action) u => u.reply x.h x.opcode { st := 8, rs := 2, ix := x.g }) as a
      let w := ((v.txnLost t).abandonSeqs t).abortInj t 6
      let u := (w.stopWhere t 1 Ctx.grid).stopWhere t 2 fun x => !x.grid
      exec (.barrierTransferLoss τ t) s = .next
        ((u.staleLines t true).modTile t fun T => { (T.logicReset u.now) with
          powered := false, link := { T.link with sendQ := [], dropping := false } }).finish) ∧
    (∀ t, (b.tile t).powered = false → exec (.barrierTransferResume τ t) s = .next
      ((((b.modTile t fun T => { T with powered := true }).enterBlock t false { k := 35 + t, nosrc := true }).modTile t fun T => { T with
        chans := T.chans.map fun ch => { ch with o := { ch.o with lvl3 := none, post := none, hold := 0 } } }).startReadmit t none).finish)

/-- A comparator crossing starts or cancels the Sieve, its accession makes the level, and gates, chatter windows and the
stuck time end as said. While the device runs, with the tile powered and online: a crossing to a new level starts the
Sieve, or takes back one that the Sieve still judges, which is discarded (before the first level the Sieve then starts
anew), a crossing to the level held does nothing, and at a tile out of service it moves only the comparator, and a
counting channel notes the edges of its kind; when the level has been held for the Sieve time the input accessions it,
as its first level, as a level with its edge, or under chatter detection; the end of a DIC gate accessions the result,
restarts the gate and sends its VALUE event; the end of a chatter window reports the rate and starts the next; and an
input at its active level for the stuck time shows the diagnostic with its notice. (Where the spec leaves a choice the
reading is the model's: log entries 15 and 25.) Rests on 03_switching_channels.md R87; 03_switching_channels.md R88;
03_switching_channels.md R90; 03_switching_channels.md R93; 03_switching_channels.md R96;
12_supplies_startup_fallow.md R418. -/
def Obligations.InputsCrossSieveCountAndWatch : Prop :=
  ∀ (τ t c : Nat) (s : State), s.power = .running → (s.tile t).powered = true →
    let b := s.atTile τ t
    let ch := b.chan t c
    let now := b.tnow t
    (∀ l, (b.tile t).online = false → ch.mode.isLvl = true →
      exec (.inputCrossing τ t c l) s = .next (b.modDi t c fun d => { d with comp := l }).finish) ∧
    ((b.tile t).online = true →
      (exec (.inputCrossing τ t c ch.di.comp) s = .next b.finish) ∧
      (∀ l, ch.mode.isLvl = true → ch.mode ≠ .dic → l ≠ ch.di.comp →
        let a := if ch.di.pend = true ∧ ch.di.crossed = true then b.discard t c 0 6 else b
        exec (.inputCrossing τ t c l) s = .next (a.modDi t c fun d =>
          { d with comp := l, pend := !(d.pend && d.first), crossed := true, crossAt := now }).finish) ∧
      (∀ l, ch.mode = .dic → l ≠ ch.di.comp → (ch.di.pend = false ∨ ch.di.crossed = false) → ch.dic.lastEdge = none →
        let u := b.modDi t c fun d => { d with comp := l, pend := !(d.pend && d.first), crossed := true, crossAt := now }
        let up := l != ch.invert
        (ch.cnt = 2 ∨ ch.cnt = 1 ∧ up = false ∨ ch.cnt = 0 ∧ up = true → exec (.inputCrossing τ t c l) s = .next
          (u.modDic t c fun d => { d with lastEdge := some now }).finish) ∧
        (ch.cnt = 1 ∧ up = true ∨ ch.cnt = 0 ∧ up = false → exec (.inputCrossing τ t c l) s = .next u.finish)) ∧
      (ch.mode.isLvl = true → ch.di.pend = true → ch.di.crossAt + max ch.sieveT 1 ≤ now →
        let lvl := ch.di.comp != ch.invert
        let a := (b.modDi t c fun d => { d with pend := false, crossed := false, sieve := d.comp }).accessioned t c 0 (b2n lvl) now 0 0
        (ch.di.first = false → exec (.sieveAccession τ t c) s = .next (a.firstLevel t c).finish) ∧
        (ch.di.first = true → (ch.mode = .trim ∨ ch.valid = true ∧ ch.ratio = false ∧ (ch.mode = .di → ch.chatEn = false)) →
          exec (.sieveAccession τ t c) s = .next (a.accLevel t c lvl true true).finish) ∧
        (ch.di.first = true → ch.mode = .di → ch.chatEn = true → ch.ratio = false →
          exec (.sieveAccession τ t c) s = .next (a.chatLevel t c lvl).finish)) ∧
      (ch.mode = .dic → ch.dic.gateStart + ch.stuckT * ms ≤ now → ch.diagP.testBit 3 = false → b.streamed t c = false →
        let v := (ch.dic.result ch.cnt).1
        let a := ((b.modDic t c fun d => { d with gateStart := now, rises := 0, highs := 0, highSum := 0 }).modMeas t c
          fun m => { m with has := true, x := v, y := v, ts := now }).accessioned t c 0 v now 0 0
        ((ch.dic.result ch.cnt).2 && ch.valid) = true → (a.streamed t c = false) → (a.chan t c).diagP.testBit 3 = false →
          exec (.dicGateEnd τ t c) s = .next
            (((a.emit t c 3 (payload [(16, 4, v), (20, 1, 1)])).modTile t (Tile.feedMirrors c v)).refresh t).finish) ∧
      (ch.mode = .di → ch.di.chatRun = true → ch.di.chatter = false → ch.di.chatStart + (b.tile t).chatW * ms ≤ now →
        exec (.chatterWindowEnd τ t c) s = .next
          ((b.modDi t c fun d => { d with
            chatRate := sat 0xFFFF d.chatCount, chatStart := d.chatStart + (b.tile t).chatW * ms,
            chatQuiet := if ch.di.chatCount ≤ (b.tile t).chatN / 2 then ch.di.chatQuiet + 1 else 0 }).modDi t c
              fun d => { d with chatCount := 0 }).finish) ∧
      (ch.mode = .di → ch.di.first = true → ch.di.level = true → ch.stuckT ≠ 0 → ch.diagP.testBit 1 = false →
        ch.di.riseAt + ch.stuckT * sec ≤ now →
        exec (.stuckTimeout τ t c) s = .next ((b.setDiag t c 1 true).notice t c (32 * t + c) 2).finish))

/-- A trim button held for 3 s acts, one held for 60 s is stuck, an overdue capture ends, and the save timer saves. While
the device runs: at an online tile, one button of a TRIM pair held alone throughout for 3 s, or both together, acts
once as ZERO, SPAN or RESET; a button held for more than 60 s is stuck with its diagnostic, TRIM event and notice;
every trim capture of a channel whose time is over ends with NOT_READY; and the trim save, when pending, due and not
barred, writes a settings half. (Where the spec leaves a choice the reading is the model's: log entry 27.) Rests on
04_measuring_channels.md R172; 04_measuring_channels.md R173; 10_firmware_update_recovery.md R375. -/
def Obligations.TrimButtonsCapturesAndTheSaveTimer : Prop :=
  ∀ (τ t c : Nat) (s : State), s.power = .running →
    let b := s.atTile τ t
    let now := b.tnow t
    let B := (b.chan t c).btn
    let d := s.advance τ
    ((b.tile t).online = true → (b.tile t).trimLower c = some c →
      (B.done = false → ∀ k,
        (k = 3 ∧ (∃ x, B.zeroStuck = false ∧ B.zeroAt = some x ∧ B.spanAt = none ∧ B.both = false ∧ x + 3 * sec ≤ now) ∨
         k = 4 ∧ (∃ x, B.spanStuck = false ∧ B.spanAt = some x ∧ B.zeroAt = none ∧ B.both = false ∧ x + 3 * sec ≤ now) ∨
         k = 5 ∧ (∃ x y, B.zeroStuck = false ∧ B.spanStuck = false ∧ B.zeroAt = some x ∧ B.spanAt = some y ∧
           max x y + 3 * sec ≤ now)) →
        exec (.trimButtonHold τ t c) s = .next
          ((b.modChan t c fun ch => { ch with btn := { ch.btn with done := true } }).buttonAct t c k).finish) ∧
      (∀ x, B.zeroAt = some x → B.zeroStuck = false → x + 60 * sec < now →
        exec (.trimButtonStuck τ t c) s = .next
          (((((b.modChan t c fun ch => { ch with btn := { ch.btn with zeroStuck := true } }).setDiag t c 0 true).emit t c 0x0B
            (payload [(16, 1, 7)])).notice t c (32 * t + c) 6)).finish)) ∧
    (exec (.trimCaptureTimeout τ t c) s = .next
      (forAll (fun k u => u.endCapture t c k 4) ((d.chan t c).caps.filter fun k => decide (k.till ≤ d.tnow t))
        (d.modChan t c fun ch => { ch with caps := (d.chan t c).caps.filter fun k => decide (d.tnow t < k.till) })).finish) ∧
    (∀ x, d.upd.saveAt = some x → x ≤ d.now → d.dev.grave = false → d.upd.savePend = true → d.saveBarred = false →
      d.start.setSrc ≠ 3 → exec (.trimSaveTimer τ) s = .next (d.saveSettings d.upd.runBank).finish) ∧
    (d.upd.savePend = false ∨ d.saveBarred = true → exec (.trimSaveTimer τ) s = .next d.finish)

/-- An edge on SYNC in FOLLOW steps or measures the count, LEAD pulses each period, and a missing edge is a loss. While
the device runs: in FOLLOW an edge on SYNC, being the first with STEP_EN and a load value ahead that is a multiple of
the period, steps the count to the load value, with everything that the step skips, and marks the step, and otherwise
leaves the count; in both it records the edge, the offset to the nearest multiple, ALIGNED (at most 2 ticks) and the
ticks to slew with their sign, and ends the loss source; in another mode it does nothing. In LEAD each multiple of the
period drives SYNC high for 1 µs and counts the pulse. In FOLLOW, one and a half periods after the last edge the loss
is marked and its source raised, once until the next edge. (Where the spec leaves a choice the reading is the model's:
log entry 17.) Rests on 02_accession_time_order.md R53; 02_accession_time_order.md R54; 02_accession_time_order.md
R55; 02_accession_time_order.md R56; 02_accession_time_order.md R57. -/
def Obligations.SyncPinSetsCountsAndLosesTheTimebase : Prop :=
  ∀ (τ : Nat) (s : State), s.power = .running →
    let b := s.advance τ
    let load := b.tb.loadHi * 2 ^ 32 + b.tb.loadLo
    (b.tb.mode ≠ 1 → exec (.syncEdge τ) s = .next b.finish) ∧
    (b.tb.mode = 1 → b.tb.edgeSeen = false → b.tb.stepEn = true → load % max b.tb.period 1 = 0 → b.now < load →
      let u := b.stepTo load
      let d := syncDist u.now b.tb.period
      exec (.syncEdge τ) s = .next (({ u with
        tb := { u.tb with
          edgeSeen := true, lastEdge := u.now, stepped := true, refused := b.tb.refused, offset := clampInt (-32767) 32767 d,
          aligned := decide (d.natAbs ≤ 2), rate := d.sign, slewLeft := d.natAbs, noEdge := false } } : State).endPresent 54 2).finish) ∧
    (b.tb.mode = 1 → (b.tb.edgeSeen = true ∨ b.tb.stepEn = false ∨ load % max b.tb.period 1 ≠ 0 ∨ load ≤ b.now) →
      let d := syncDist b.now b.tb.period
      exec (.syncEdge τ) s = .next (({ b with
        tb := { b.tb with
          edgeSeen := true, lastEdge := b.now, offset := clampInt (-32767) 32767 d, aligned := decide (d.natAbs ≤ 2),
          rate := d.sign, slewLeft := d.natAbs, noEdge := false,
          refused := b.tb.refused || (!b.tb.edgeSeen && b.tb.stepEn) } } : State).endPresent 54 2).finish) ∧
    (b.tb.mode = 2 → b.now % max b.tb.period 1 = 0 →
      let u : State := { b with tb := { b.tb with syncHigh := some b.now, pulses := b.tb.pulses + 1 } }
      exec (.syncLeadPulse τ) s = .next u.finish ∧ u.syncPin = true ∧ ∀ n, b.now + us ≤ n → ({ u with now := n } : State).syncPin = false) ∧
    (b.tb.mode ≠ 2 → exec (.syncLeadPulse τ) s = .next b.finish) ∧
    (b.tb.mode = 1 → 2 * b.tb.lastEdge + 3 * b.tb.period ≤ 2 * b.now → b.tb.noEdge = false →
      exec (.syncLost τ) s = .next
        (({ b with tb := { b.tb with lost := true, aligned := false, noEdge := true } } : State).raise 54 2 0 0 0).finish) ∧
    (b.tb.mode ≠ 1 ∨ b.tb.noEdge = true ∨ 2 * b.now < 2 * b.tb.lastEdge + 3 * b.tb.period → exec (.syncLost τ) s = .next b.finish)

/-- A transaction is pre-checked at its tiles, decided at D, told, committed or discarded at C, and completes when all
have reported. While the device runs, for a staged transaction: its members arrive at a member tile that is not lost
and the tile answers; the answer reaches an undecided transaction, which keeps the margin to D at the last READY; at D
or after it is decided COMMIT exactly when every member tile is READY and it is not cancelled; the decision reaches a
tile that is not lost; at C on a powered tile its members are accessioned when it holds COMMIT, discarded when it
holds another decision, and go to safe state when it holds none; and a report is taken, and when none is missing the
transaction is removed and completes with what the rules say. Without such a transaction none of these rows does
anything. (Where the spec leaves a choice the reading is the model's: log entry 32.) Rests on
02_accession_time_order.md R71; 02_accession_time_order.md R72; 02_accession_time_order.md R73;
02_accession_time_order.md R74; 02_accession_time_order.md R76; 02_accession_time_order.md Table 2-8;
12_supplies_startup_fallow.md R414. -/
def Obligations.TransactionIsAskedDecidedCommittedAndReported : Prop :=
  ∀ (τ tag t : Nat) (p : PortId) (s : State), s.power = .running →
    let b := s.advance τ
    let k := s.atTile τ t
    ((b.tile t).powered = false → exec (.txnCommit τ p tag t) s = .next b.finish) ∧
    (b.txn p tag = none → exec (.txnMemberArrival τ p tag t) s = .next b.finish ∧ exec (.txnReady τ p tag t) s = .next b.finish ∧
      exec (.txnDecision τ p tag) s = .next b.finish ∧ exec (.txnDecisionArrival τ p tag t) s = .next b.finish ∧
      ((b.tile t).powered = true → exec (.txnCommit τ p tag t) s = .next k.finish) ∧ exec (.txnAccessionReport τ p tag t) s = .next b.finish) ∧
    (∀ x, b.txn p tag = some x →
      (x.tiles.contains t = true → x.arrived.contains t = false → (b.tile t).lost = false →
        exec (.txnMemberArrival τ p tag t) s = .next (b.modTxn p tag fun x => { x with
          arrived := x.arrived ++ [t],
          answers := if x.got.any (fun a => a.1 = t) then x.answers
            else x.answers ++ [(b.tile t).txnAnswer t (x.on t)] }).finish) ∧
      (∀ a, x.answers.find? (fun a => decide (a.1 = t)) = some a → x.decided = none → (b.tile t).lost = false →
        let u := b.modTxn p tag fun x => { x with
          answers := x.answers.filter (fun b => decide (b.1 ≠ t)), got := x.got ++ [a] }
        ∀ y, u.txn p tag = some y → exec (.txnReady τ p tag t) s =
          .next (if y.allReady && decide (u.now < y.d) then u.margin 54 2 (y.d - u.now) else u).finish) ∧
      (x.decided = none → x.d ≤ b.now →
        let ok := x.allReady && !x.cancelled
        let a := (b.modTxn p tag fun x => { x with decided := some ok }).holdPulses x.c x.members
        (ok = true ∨ x.cancelled = true ∨ x.refusal.isSome = true → exec (.txnDecision τ p tag) s = .next a.finish) ∧
        (ok = false → x.cancelled = false → x.refusal = none → exec (.txnDecision τ p tag) s =
          .next (a.raise 54 4 0 (tag % 65536) (sat 0xFFFFFFFF (a.now - x.d))).finish)) ∧
      (x.decided.isSome = true → x.arrived.contains t = true → x.held.contains t = false → x.ended.contains t = false →
        (b.tile t).lost = false →
        exec (.txnDecisionArrival τ p tag t) s = .next (b.modTxn p tag fun x => { x with held := x.held ++ [t] }).finish) ∧
      ((b.tile t).powered = true → x.arrived.contains t = true → x.ended.contains t = false → x.lost.contains t = false →
        x.c ≤ k.tnow t →
        (x.held.contains t = true → x.decided = some true → exec (.txnCommit τ p tag t) s = .next
          ((forAll (State.txnMember x) (x.on t) k).modTxn p tag fun y => { y with ended := y.ended ++ [t] }).finish) ∧
        (x.held.contains t = true → x.decided ≠ some true → exec (.txnCommit τ p tag t) s = .next (forAll
          (fun (m : Member) u => u.discard t (m.g % 32) 3 5) (x.on t)
          (k.modTxn p tag fun y => { y with ended := y.ended ++ [t] })).finish) ∧
        (x.held.contains t = false → exec (.txnCommit τ p tag t) s = .next ((k.modTxn p tag fun y => { y with
          ended := y.ended ++ [t], orphans := y.orphans ++ [t] }).txnOrphan x t).finish)) ∧
      (x.ended.contains t = true → x.reported.contains t = false → (b.tile t).lost = false →
        let a := b.modTxn p tag fun x => { x with reported := x.reported ++ [t] }
        ∀ y, a.txn p tag = some y →
          (y.ovr a = false → exec (.txnAccessionReport τ p tag t) s = .next a.finish) ∧
          (y.ovr a = true → exec (.txnAccessionReport τ p tag t) s = .next (State.reply y.h 0xA8 y.reply
            { a with txns := a.txns.filter fun z => !(decide (z.h.port = p ∧ z.h.tag = tag)) }).finish)))

/-- An output action that arrives is late, refused, accessioned or staged; and short circuit, overload, overheating and
overload declaration act. While the device runs: a single action in transit that reaches a tile whose link is up is
discarded with the deadline fault and DEADLINE_MISSED when its commit tick has passed, refused with FAULTED and the
reason of its pre-check, accessioned at once with OK without a commit tick, or staged with the margin to its commit
tick; at a powered tile the commanded actions due, those of transactions among them, are accessioned in the order of
R68. A switch that runs in limit shows SHORT_GND and is held off with a retry in 100 ms, or latched; the retry
releases it; overheating shows THERMAL and marks the group hot, and its end clears it; more load than declared shows
OVER_DECL and latches the switch off. (Where the spec leaves a choice the reading is the model's: log entries 22 and
23.) Rests on 02_accession_time_order.md R67; 02_accession_time_order.md R68; 02_accession_time_order.md R80;
03_switching_channels.md R101; 03_switching_channels.md R102; 03_switching_channels.md R103; 03_switching_channels.md
R104; 03_switching_channels.md Table 3-10. -/
def Obligations.ActionsArriveCommitAndSwitchesProtectThemselves : Prop :=
  ∀ (τ t c : Nat) (s : State), s.power = .running →
    let b := s.advance τ
    (∀ p ring cnt a, (b.transit.find? fun a => a.h.port = p && a.h.ring = ring && a.h.cnt = cnt) = some a →
      (b.tile (a.g / 32)).lost = false →
      let e : State := { b with transit := b.transit.erase a }
      let u := a.g / 32
      let k := a.g % 32
      let why := (e.tile u).preCheck k a.kind a.value
      (a.commit ≠ 0 → a.commit < e.tnow u → exec (.outputActionArrival τ p ring cnt) s = .next
        (((e.discard u k 1 6).raiseCh (35 + u) 10 k a.g 0 (sat 0xFFFFFFFF (e.tnow u - a.commit))).reply a.h a.opcode { st := 5 }).finish) ∧
      (a.commit = 0 ∨ e.tnow u ≤ a.commit →
        (why ≠ 0 → exec (.outputActionArrival τ p ring cnt) s = .next
          ((e.discard u k 1 4).reply a.h a.opcode { st := 8, rs := why, ix := 32 * u + k }).finish) ∧
        (why = 0 → a.commit = 0 → exec (.outputActionArrival τ p ring cnt) s = .next
          ((((e.modChan u k fun ch => { ch with staged := ch.staged.filter fun x => decide (x ≠ a) }).accessionOut u k a.kind
            a.value 0 a.h.port.code 0 a.h.tag).reply a.h a.opcode (Reply.ok 0)).refresh u).finish) ∧
        (why = 0 → a.commit ≠ 0 → exec (.outputActionArrival τ p ring cnt) s = .next
          ((e.margin (35 + u) 3 (a.commit - e.tnow u)).modChan u k fun ch => { ch with staged := stageAction a ch.staged }).finish))) ∧
    (let b := s.atTile τ t
      let T := b.tile t
      let l := T.lead c
      let now := b.tnow t
      T.powered = true →
      (exec (.outputCommit τ t c) s = .next (forAll (State.commitDueOne t c) (b.dues t c) b).finish) ∧
      ((T.chan l).mode = .dout ∨ (T.chan l).mode = .mir → T.runs l now = true →
        exec (.shortGndDetect τ t c) s = .next (((b.setDiag t c 0 true).protect t l fun o =>
          if (T.chan l).retryEn && decide (o.retries < 3) then { o with retryAt := some (now + 100 * ms) }
          else { o with latch := true }).refresh t).finish ∧
        exec (.overDecl τ t c) s = .next
          (((b.setDiag t c 7 true).protect t l fun o => { o with latch := true }).refresh t).finish) ∧
      ((T.chan l).mode ≠ .dout → (T.chan l).mode ≠ .mir ∨ T.runs l now = false →
        exec (.shortGndDetect τ t c) s = .next b.finish ∧ exec (.overDecl τ t c) s = .next b.finish) ∧
      (∀ x, (b.chan t l).o.retryAt = some x → x ≤ now → (b.chan t l).o.prot = true → (b.chan t l).o.latch = false →
        exec (.overloadRetry τ t c) s = .next
          (((b.modOut t l fun o => { o with retryAt := none }).endProt t l true).refresh t).finish) ∧
      (∀ k, (T.chan c).mode.thermalBit = some k →
        ((T.chan l).mode = .dout ∨ (T.chan l).mode = .mir → exec (.thermalShutdown τ t c) s = .next
          ((((b.setDiag t c k true).modOut t l fun o => { o with hot := true }).protect t l fun o =>
            if (T.chan l).retryEn && decide (o.retries < 3) then o else { o with latch := true }).refresh t).finish) ∧
        ((T.chan l).mode.isAo = true → T.safe l = false → exec (.thermalShutdown τ t c) s = .next
          ((((b.setDiag t c k true).modOut t l fun o => { o with hot := true }).modOut t l fun o =>
            { o with prot := true }).refresh t).finish) ∧
        ((T.chan l).mode.isOut = false → exec (.thermalShutdown τ t c) s = .next ((b.setDiag t c k true).refresh t).finish ∧
          ((((b.setDiag t c k false).tile t).chan l).o.hot = false →
            exec (.thermalReenable τ t c) s = .next ((b.setDiag t c k false).refresh t).finish))) ∧
      ((T.chan c).mode.thermalBit = none → exec (.thermalShutdown τ t c) s = .next b.finish ∧
        exec (.thermalReenable τ t c) s = .next b.finish))

/-- Open load, off-state pin levels, dark pulses, the pin clamp and surges set and end their diagnoses. While the device
runs, at a powered tile: an on-state check of a DO channel with L+ NORMAL sets OPEN_ON exactly when the load is low,
the check enabled and the switch runs; an off-state check ends OPEN_OFF of a channel that is on or not enabled; one of
an enabled off channel of a tile in service below 2.0 V ends OPEN_OFF, SHORT_LP and EXT_DRIVEN, one between 2.0 V and
6.0 V sets OPEN_OFF at the second in a row; a dark pulse in its period that still finds 4 mA raises the switch fault;
the pin clamp sets CLAMP and its latch with a notice at the first; a surge beyond its limits sets SURGE with a notice
and it ends 10 ms after the last; a pin voltage or clamp current beyond the ratings has no specified effect. (Where
the spec leaves a choice the reading is the model's: log entries 18, 23 and 26.) Rests on 03_switching_channels.md
R106; 03_switching_channels.md R107; 03_switching_channels.md R108; 03_switching_channels.md R111;
04_measuring_channels.md R161; 03_switching_channels.md Table 3-10; 15_electrical_package.md R453. -/
def Obligations.PinsAndLoadsAreDiagnosed : Prop :=
  ∀ (τ t c : Nat) (s : State), s.power = .running → (s.tile t).powered = true →
    let b := s.atTile τ t
    let T := b.tile t
    let ch := T.chan c
    let l := T.chan (T.lead c)
    let now := b.tnow t
    (∀ low, (l.mode = .dout ∧ T.lp.st = .normal → exec (.openOn τ t c low) s = .next
        (b.setDiag t c 2 (low && bit l.diag 29 && T.runs c now)).finish) ∧
      (l.mode ≠ .dout ∨ T.lp.st ≠ .normal → exec (.openOn τ t c low) s = .next b.finish)) ∧
    (∀ mv, ch.mode = .dout → l.mode = .dout → T.online = true → (bit l.diag 30 = false ∨ T.stage c now ≠ 0 ∧ l.o.elecOff = false) →
      exec (.offStateCheck τ t c mv) s = .next ((b.modOut t c fun o => { o with offHits := 0 }).setDiag t c 3 false).finish) ∧
    (∀ mv, ch.mode = .dout → l.mode = .dout → T.online = true → bit l.diag 30 = true → T.stage c now = 0 →
      ch.diagP.testBit 5 = false →
      let quiet (u : State) : State := ((u.modOut t c fun o => { o with
        suspect := if o.suspect = some 0 then none else o.suspect }).setDiag t c 4 false).setDiag t c 6 false
      (mv < 2000 → exec (.offStateCheck τ t c mv) s = .next
        ((quiet ((b.modOut t c fun o => { o with offHits := 0 }).setDiag t c 3 false)).refresh t).finish) ∧
      (2000 ≤ mv → mv ≤ 6000 →
        let u := quiet (b.modOut t c fun o => { o with offHits := o.offHits + 1 })
        exec (.offStateCheck τ t c mv) s = .next ((if 1 ≤ ch.o.offHits then u.setDiag t c 3 true else u).refresh t).finish)) ∧
    (∀ ua pins, ch.mode = .dout → ch.tpEn = true → T.runs c now = true → T.lp.st = .normal → T.safe c = false →
      ch.o.noDarkTill ≤ now → ch.o.darkNext ≤ now → ((T.group c).all fun k => decide ((T.chan k).o.suspect ≠ some 1)) = true →
      4000 ≤ ua → exec (.darkPulse τ t c ua pins) s = .next ((b.modOut t c fun o => { o with
        darkTill := now + T.tpWidth * us, darkNext := now + T.tpPeriod * (100 * ms) }).raiseCh (35 + t) 3 c (32 * t + c) 0 0).finish) ∧
    (∀ ua pins, ch.mode ≠ .dout ∨ ch.tpEn = false ∨ T.safe c = true →
      exec (.darkPulse τ t c ua pins) s = .next b.finish) ∧
    (∀ mv acting, pinBeyond mv 0 = true → exec (.pinClamp τ t c acting mv) s = .fault .beyondRatings) ∧
    (∀ mv ma, pinBeyond mv ma = true → exec (.surge τ t c mv ma) s = .fault .beyondRatings) ∧
    (∀ mv, pinBeyond mv 0 = false →
      let a := b.modChan t c fun ch => { ch with clampP := true, clampL := true }
      (ch.clampP = false → ch.clampL = false →
        exec (.pinClamp τ t c true mv) s = .next (a.notice t c (32 * t + c) 4).finish) ∧
      (ch.clampP = true ∨ ch.clampL = true → exec (.pinClamp τ t c true mv) s = .next a.finish) ∧
      (exec (.pinClamp τ t c false mv) s = .next ((b.modChan t c fun ch => { ch with clampP := false }).modCv t fun u =>
        { u with jobP := T.clampJob c now u.jobP, jobF := T.clampJob c now u.jobF }).finish)) ∧
    (∀ mv ma, pinBeyond mv ma = false →
      (40000 < mv ∨ mv < -38000 ∨ 500 < ma → ch.m.surgeAt = none → ch.mode.hasSurge = true →
        exec (.surge τ t c mv ma) s = .next (((b.setDiag t c 5 true).notice t c (32 * t + c) 5).modMeas t c fun m =>
          { m with surgeAt := some (((b.setDiag t c 5 true).notice t c (32 * t + c) 5).tnow t) }).finish) ∧
      (mv ≤ 40000 → -38000 ≤ mv → ma ≤ 500 → exec (.surge τ t c mv ma) s = .next b.finish)) ∧
    (∀ x, ch.m.surgeAt = some x → x + 10 * ms ≤ now →
      let a := b.modMeas t c fun m => { m with surgeAt := none }
      ((a.chan t c).mode.hasSurge = true → exec (.surgeEnd τ t c) s = .next (a.setDiag t c 5 false).finish) ∧
      ((a.chan t c).mode.hasSurge = false → exec (.surgeEnd τ t c) s = .next a.finish))

/-- L+ and rail samples, readbacks, foldback, excitation cycles, mirror periods and temperatures act on their tile and
channel. While the device runs, at a powered tile in service: an L+ sample within the ratings is counted and, where it
enters no other state, changes no more than the switches' own timing; one beyond the ratings has no specified effect;
a slot of the re-energising order switches its channels on or ends the order; a rail sample with no set-point leaves
the rail idle, and else is stored with its low and high runs; an analogue output readback is stored and accessioned;
an AII input in limit folds back once and is released when it finds less than 24 mA; a cycle of an excitation channel
stores its current, sets LIMIT or low current and keeps the hold while it limits; a mirror period that is over takes
the next value and its settings; temperatures are stored, their mean as cold junction. (Where the spec leaves a choice
the reading is the model's: log entries 18, 24, 26 and 28.) Rests on 03_switching_channels.md R113;
03_switching_channels.md R116; 04_measuring_channels.md R130; 04_measuring_channels.md R145; 04_measuring_channels.md
R154; 04_measuring_channels.md R156; 04_measuring_channels.md R166; 04_measuring_channels.md R167;
05_conversion_sequencing.md R207. -/
def Obligations.FieldSupplyRailLoopsAndMirrorsFollowTheirSamples : Prop :=
  ∀ (τ t c : Nat) (s : State), s.power = .running → (s.tile t).powered = true → (s.tile t).online = true →
    let b := s.atTile τ t
    let T := b.tile t
    let ch := T.chan c
    let now := b.tnow t
    (∀ cv, lplusBeyond cv = true → exec (.lplusSample τ t cv) s = .fault .beyondRatings) ∧
    (∀ cv, lplusBeyond cv = false → (T.lp.count cv).next = T.lp.st → exec (.lplusSample τ t cv) s =
      .next ((b.modTile t fun X => { X with lp := T.lp.count cv }).shortOver t).finish) ∧
    (∀ cv, lplusBeyond cv = false → (T.lp.count cv).next ≠ T.lp.st →
      let n := (T.lp.count cv).next
      let a := (((b.modTile t fun X => { X with lp := T.lp.count cv }).shortOver t).modTile t fun X =>
        { X with lp := X.lp.enter n }).emit t 32 9 (payload [(16, 1, n.code), (18, 2, toField 16 cv)])
      let done (u : State) : State := ((forAll (fun c x => x.judgeValid t c) chanNos u).refresh t).finish
      (T.lp.st = .normal → n.off = true →
        exec (.lplusSample τ t cv) s = .next (done (a.raise (35 + t) 1 0 n.code 0))) ∧
      (T.lp.st.off = true → n.gone = true → exec (.lplusSample τ t cv) s =
        .next (done (((a.endPresent (35 + t) 1).raise (35 + t) 2 0 n.code 0).loseField t))) ∧
      (T.lp.st = .missing → n = .reversed → exec (.lplusSample τ t cv) s =
        .next (done ((a.raise (35 + t) 2 0 n.code 0).loseField t))) ∧
      (T.lp.st = .normal → n.gone = true →
        exec (.lplusSample τ t cv) s = .next (done ((a.raise (35 + t) 2 0 n.code 0).loseField t))) ∧
      (T.lp.st.off = true → n = .normal → exec (.lplusSample τ t cv) s = .next (done (a.endPresent (35 + t) 1))) ∧
      (T.lp.st = .missing → n = .low → exec (.lplusSample τ t cv) s =
        .next (done (((a.endPresent (35 + t) 2).raise (35 + t) 1 0 n.code 0).regainField t)))) ∧
    (T.reen = false → exec (.reenergiseSlot τ t) s = .next b.finish) ∧
    (T.reen = true → (chanNos.filter T.waits).isEmpty = true → exec (.reenergiseSlot τ t) s = .next
      (forAll (fun c u => if ((u.tile t).chan c).o.elecOff then u.energise t c else u) chanNos
        (b.modTile t fun T => { T with reen := false })).finish) ∧
    (T.reen = true → (chanNos.filter T.waits).isEmpty = false → exec (.reenergiseSlot τ t) s = .next
      ((forAll (fun c u => u.energise t c) (T.fillSlot 4 (chanNos.filter T.waits)) b).refresh t).finish) ∧
    (∀ dv, (T.crSet = 0 → exec (.crailSample τ t dv) s = .next
        ((b.modTile t fun T => { T with crNow := 0, railLow := 0, railHigh := 0 }).railIdle t).finish) ∧
      (T.crSet ≠ 0 →
        let g := b.railTarget t now
        let low := if (T.lp.st = .normal ∨ T.lp.st = .low) ∧ 10 * dv < 9 * g then T.railLow + 1 else 0
        let high := if 95 * g ≤ 100 * dv then T.railHigh + 1 else 0
        let a := b.modTile t fun T => { T with crNow := sat 0xFFF dv, railLow := low, railHigh := high }
        (T.railFault = false → 5 ≤ low → exec (.crailSample τ t dv) s = .next
          (((a.modTile t fun T => { T with railFault := true, railSeen := true }).raise (35 + t) 5 0 0 0).refresh t).finish) ∧
        (T.railFault = true → 5 ≤ high → exec (.crailSample τ t dv) s = .next
          (((a.modTile t fun T => { T with railFault := false }).endPresent (35 + t) 5).refresh t).finish) ∧
        (low < 5 → high < 5 → exec (.crailSample τ t dv) s = .next a.finish))) ∧
    (∀ r, (ch.mode.isAo = false → exec (.aoReadback τ t c r) s = .next b.finish) ∧
      (ch.mode = .aoi →
        let x := T.aoCond c now r
        let tc := 2 * fld ch.diag 28 24
        let k (n : Nat) : Bool := x.1.getD n false
        let a := (((((b.modChan t c fun ch => { ch with
          readback := sat 0xFFFFFF (Readback.code true r),
          m := { ch.m with
            has := true, x := Readback.code true r, y := Readback.code true r, ts := now, na := r.na, uv := r.uv } }).accessioned t c 0 (Readback.code true r) now 0 0).aoDiag t c 0 tc (k 0)).aoDiag t c 1 tc (k 1)).aoDiag t c 2 tc (k 2))
        let d := a.aoDiag t c 3 10 (x.2 && !(k 0 || k 1 || k 2 || ch.diagP.testBit 4))
        let e := d.aoDiag t c 6 100 (k 3)
        (d.chan t c).diagP.testBit 3 = false → (e.chan t c).diagP.testBit 6 = false →
          exec (.aoReadback τ t c r) s = .next (e.refreshAt t none now).finish)) ∧
    (ch.mode = .aii → ch.m.fold = false → exec (.aiiFoldback τ t c) s = .next
      (((b.modMeas t c fun m => { m with fold := true }).setDiag t c 7 true).refresh t).finish) ∧
    (∀ ua, ch.mode = .aii → ch.m.fold = true → (ua < 24000 → exec (.aiiRetry τ t c ua) s = .next
        ((((b.modCv t fun u => { u with jobP := u.jobP.map (Job.folded c now), jobF := u.jobF.map (Job.folded c now) }).modMeas
          t c fun m => { m with fold := false }).setDiag t c 7 false).refresh t).finish) ∧
      (24000 ≤ ua → exec (.aiiRetry τ t c ua) s = .next b.finish)) ∧
    (∀ (lim : Limiting) (na : Nat), ch.mode = .exp ∨ ch.mode = .exs →
      let hold := decide (lim = .whole) || (decide (lim = .part) && ch.o.prot)
      let low := decide (lim ≠ .whole) && decide (na < 20000)
      let a := ((b.modChan t c fun ch => { ch with
          readback := sat 0xFFFFFF (roundHalfEven na 5).toNat, o := { ch.o with prot := hold } }).setDiag t c 2 hold).setDiag t c 0 low
      (lim = .whole ∨ na < 20000 → exec (.excitationCycleCheck τ t c lim na) s = .next
        (a.modCv t fun u => { u with jobF := T.spoil c (a.tnow t) u.jobF }).finish) ∧
      (lim ≠ .whole → 20000 ≤ na → exec (.excitationCycleCheck τ t c lim na) s = .next a.finish)) ∧
    (∀ (lim : Limiting) (na : Nat), ch.mode ≠ .exp → ch.mode ≠ .exs →
      exec (.excitationCycleCheck τ t c lim na) s = .next b.finish) ∧
    (∀ v, ch.mode = .mir → ch.m.mirGen = false → ch.m.mirNext = some v →
      (ch.onInvalid ≠ 2 ∧ ch.onInvalid ≠ 3 ∨ ch.m.mirPer + ch.m.mirPd ≤ now) →
      let P := mirPeriod ch (T.mirs.getD ch.mirProf {}) v
      exec (.mirrorPeriodStart τ t c) s = .next (b.modMeas t c fun m => { m with
        mirPer := now, mirPd := P.1, mirHi := P.2, mirWait := false, mirNow := v, mirNext := none, mirGen := true,
        mirHad := true }).finish) ∧
    (ch.mode = .mir → ch.m.mirGen = true → now < ch.m.mirPer + ch.m.mirPd → exec (.mirrorPeriodStart τ t c) s = .next b.finish) ∧
    (∀ x y d, T.cv.calAuto = false → exec (.tileTempSample τ t x y d) s = .next
      (b.modTile t fun T => { T with cjc := roundHalfEven (x + y) 2, tdie := d }).finish)

/-- Timer and held triggers fire their sequence, speculation opens a scan, and slots start on a free converter. While the
device runs, at an online tile: the timer of an armed sequence with source TIMER fires it at its next grid tick once
that is reached, and not before; a trigger sent ahead fires at its tick and completes its command with what it did; a
trigger held behind a scan that has ended starts the next scan, later than TRIG_MIN after the last; an armed sequence
with SPEC_N opens a speculative scan where the last two triggers predict one; an unconfirmed scan ends at its window;
a scan past its deadline is marked late once with its fault; and the next slot of a scan starts when its converter is
free and no injected conversion, calibration step or lower sequence is due on it. (Where the spec leaves a choice the
reading is the model's: log entry 29.) Rests on 05_conversion_sequencing.md R191; 05_conversion_sequencing.md R192;
05_conversion_sequencing.md R193; 05_conversion_sequencing.md R194; 05_conversion_sequencing.md R196;
05_conversion_sequencing.md R198; 05_conversion_sequencing.md Table 5-11; 02_accession_time_order.md R56. -/
def Obligations.TriggersStartHoldAndSpeculateScans : Prop :=
  ∀ (τ t n : Nat) (s : State), s.power = .running → (s.tile t).online = true →
    let b := s.atTile τ t
    let q := (b.tile t).seq n
    let now := b.tnow t
    (q.active = true → q.arm = true → q.src = 1 → q.nextTick ≤ now → exec (.seqTimerTrigger τ t n) s =
      .next ((b.modSeq t n fun q => { q with timer := ((b.tile t).seq n).nextTick }).fire t n q.nextTick).1.finish) ∧
    (q.active = false ∨ q.arm = false ∨ q.src ≠ 1 ∨ now < q.nextTick →
      exec (.seqTimerTrigger τ t n) s = .next b.finish) ∧
    (∀ x, (q.future.find? fun x => decide (x.1 ≤ now)) = some x →
      let f := (b.modSeq t n fun q => { q with future := q.future.erase x }).fire t n x.1
      exec (.heldTriggerRelease τ t n) s =
        .next (f.1.reply x.2 0x32 (Reply.ok (payload [(16, 1, f.2.getD 0)]))).finish) ∧
    (∀ trig, (q.future.find? fun x => decide (x.1 ≤ now)) = none → q.held = some trig → q.scan = none → q.arm = true →
      (q.src = 1 ∨ ∀ x, q.lastTrig = some x → x + q.period ≤ now) →
      exec (.heldTriggerRelease τ t n) s = .next
        ((b.startScan t n trig true).modSeq t n fun q => { q with lastTrig := some now }).finish) ∧
    (∀ t1 t0, q.hist = [t1, t0] → 0 < q.specN → q.src ≠ 1 → q.active = true → q.arm = true → q.scan = none → q.held = none →
      q.since = false → q.specWait = 0 → now + t0 = 2 * t1 → exec (.speculativeScanStart τ t n) s =
        .next (b.modSeq t n fun q => { q with scan := some { trig := now, spec := some now } }).finish) ∧
    (∀ sc p, q.scan = some sc → sc.spec = some p → (p + q.specTol + 1000 ≤ now →
        exec (.specConfirmTimeout τ t n) s = .next ((b.cancelSpec t n).settleScan t 9 n).finish) ∧
      (now < p + q.specTol + 1000 → exec (.specConfirmTimeout τ t n) s = .next b.finish)) ∧
    (∀ sc, q.scan = some sc →
      (b.scanPast t n = true → sc.late = false → exec (.scanDeadline τ t n) s = .next ((b.modSeq t n fun q =>
        { q with scan := q.scan.map fun x => { x with late := true } }).raise (35 + t) 9 (8 * t + n) 0
          (sat 0xFFFFFFFF (now - (sc.trig + q.deadline)))).finish) ∧
      (b.scanPast t n = false ∨ sc.late = true → exec (.scanDeadline τ t n) s = .next b.finish)) ∧
    (∀ k w sc, (b.tile t).slotReady n = some (k, w) → q.scan = some sc → ((b.tile t).cv.job (Slot.conv w)) = none →
      (b.tile t).injReady (Slot.conv w) now = none → (b.tile t).stepDue (Slot.conv w) now = false → (∀ m, m < n → ∀ i x, (b.tile t).slotReady m = some (i, x) →
        Slot.conv x ≠ Slot.conv w) →
      exec (.slotStart τ t n) s = .next (b.startJob t (Slot.conv w) (.seq n k) (Slot.input w) w sc.spec.isSome).finish) ∧
    ((b.tile t).slotReady n = none → exec (.slotStart τ t n) s = .next b.finish)

/-- A conversion attempt is accepted, made again or discarded by its judgement; injected ones start, or miss their
deadline. While the device runs, at an online tile: the end of an attempt of a running conversion frees the converter
(with the burnout test of AITC counted) and accessions the value, discards it with its FATE (a broken wire with 0b111,
a slot cut short with 0b110), or counts the discard and waits for another attempt, as the judgement says, and one
whose scan is gone is discarded with the FATE it was given unless its wire is broken; without a job, or while one
waits, it does nothing; the next attempt starts at the row's tick, which is its timestamp unless V(c) of a 3-wire slot
stands; an injected demodulation completes its command with the result, from the amplitude of its samples, or the
FATE; an injected conversion that is ready starts unless its deadline lies before its first sampling instant, when it
is removed, with the command fault and DEADLINE_MISSED; and one still queued past its deadline is removed so. (Where
the spec leaves a choice the reading is the model's: log entry 30.) Rests on 05_conversion_sequencing.md R200;
05_conversion_sequencing.md R201; 05_conversion_sequencing.md R204; 05_conversion_sequencing.md R205;
05_conversion_sequencing.md R206; 04_measuring_channels.md R144. -/
def Obligations.ConversionsAreJudgedAgainAcceptedOrDiscarded : Prop :=
  ∀ (τ t v : Nat) (s : State), s.power = .running → (s.tile t).online = true →
    let b := s.atTile τ t
    let T := b.tile t
    let now := b.tnow t
    (∀ x, T.cv.job v = none → exec (.conversionEnd τ t v x) s = .next b.finish ∧
      exec (.rangingReattempt τ t v) s = .next b.finish) ∧
    (∀ j x, T.cv.job v = some j → j.waiting = true →
      exec (.conversionEnd τ t v x) s = .next b.finish ∧
      exec (.rangingReattempt τ t v) s = .next (b.setJob t v (some { j with
        waiting := false, sampleAt := if j.done1.isSome then j.sampleAt else now })).finish) ∧
    (∀ j x, T.cv.job v = some j → j.waiting = false → (32 ≤ j.input ∨ (T.chan j.input).mode ≠ .dmd ∨ j.left = true) →
      let ch := T.chan j.input
      let burn := j.input < 32 && j.attempt = 0 && ch.burnTest
      let a := b.burnout t j burn x
      let trig := a.jobTrig t j
      let c : Job := { j with clamp := j.clamp || T.clampOn j.input }
      let free := a.freeJob t v
      let out := if j.input < 32 then T.judge v c burn x else T.judgeInternal v c x
      (∀ f, j.drop = some f → (j.left = true ∨ ∀ g ovr, out ≠ .drop g true ovr) →
        exec (.conversionEnd τ t v x) s = .next (free.dropJob t c f false false trig).finish) ∧
      (∀ f g ovr, j.drop = some f → out = .drop g true ovr → j.left = false →
        exec (.conversionEnd τ t v x) s = .next (free.dropJob t c 7 true false trig).finish) ∧
      (j.drop = none →
        (∀ k, out = .again k →
          exec (.conversionEnd τ t v x) s = .next ((a.discardIn t j.input 2).setJob t v (some k)).finish) ∧
        (∀ f ovr, out = .drop f true ovr → exec (.conversionEnd τ t v x) s = .next
          ((free.dropJob t c 7 true (ovr && (T.forced j).isNone) trig).slotDone t c 0 1).finish) ∧
        (∀ f ovr, out = .drop f false ovr → exec (.conversionEnd τ t v x) s = .next
          ((free.dropJob t c ((T.forced j).getD f) false (ovr && (T.forced j).isNone) trig).slotDone t c 0 1).finish) ∧
        (∀ raw, out = .acc raw → exec (.conversionEnd τ t v x) s = .next (free.finishJob t v c raw j.sampleAt
          ((j.input, j.gain, j.done1.getD x.x) :: if j.input < 32 && ch.mode.isRes && decide (ch.wire = 1) then
            [(64 + j.input, j.gain2, j.done2.getD x.x2)] else [])).finish))) ∧
    (∀ d, T.cv.jobF = none → exec (.dmdResult τ t d) s = .next b.finish) ∧
    (∀ j e d, T.cv.jobF = some j → j.src = .inj e → j.drop = none → j.left = false → j.input < 32 → (T.chan j.input).mode = .dmd →
      (T.chan j.input).isRatio = false →
      let ch := T.chan j.input
      let A := T.cv.amplitude ch (T.chan ch.excCh) j.gain d.v
      let past := d.v.any (fun x => !belowTop j.gain x) || j.clamp || T.clampOn j.input
      let o := (b.freeJob t 1).dmdOne t j j.input (roundHalfEven A.1 A.2.2) none (ch.dmdBroken A.1 A.2.1 A.2.2) past
        (b.jobTrig t j)
      exec (.dmdResult τ t d) s = .next (o.1.endInj t e (if o.2.1
        then Reply.ok (payload [(16, 4, o.2.2.1), (20, 2, o.2.2.2), (24, 4, j.sampleAt)])
        else { st := 8, rs := 10, pl := payload [(22, 1, o.2.2.1)] })).finish) ∧
    (T.injReady v now = none → exec (.injectStart τ t v) s = .next b.finish) ∧
    (∀ e, T.injReady v now = some e →
      (e.h.deadline = 0 ∨ b.now + T.sampleTick e.input e.slot now ≤ e.h.deadline + now →
        exec (.injectStart τ t v) s = .next (((b.modCv t fun u => { u with
          injQ := u.injQ.drop 1, injLast := some now }).startJob t v (.inj e) e.input e.slot false)).finish) ∧
      (e.h.deadline ≠ 0 → e.h.deadline + now < b.now + T.sampleTick e.input e.slot now →
        exec (.injectStart τ t v) s = .next (b.injMissed t e).finish)) ∧
    (∀ p ring cnt e, (T.cv.injQ.find? fun e => e.h.port = p && e.h.ring = ring && e.h.cnt = cnt) = some e →
      (b.past e.h = true → exec (.injectDeadline τ t p ring cnt) s = .next (b.injMissed t e).finish) ∧
      (b.past e.h = false → exec (.injectDeadline τ t p ring cnt) s = .next b.finish))

/-- A due calibration starts, its steps are counted and its coefficients applied, and the reference settles, fails and
returns. While the device runs, at an online tile: with CAL_AUTO, the reference ready and a period set, a background
calibration starts when the period has passed since the last, and not otherwise; a due step whose length has passed on
a free converter is counted and the next made due, and the 576th applies the coefficients and may finish it; a
reference enabled and settled within 500 ppm with no fault becomes ready; and of the comparisons while enabled, the
third in a row beyond 1000 ppm raises the reference fault and ends readiness, and under the fault the tenth in a row
within 500 ppm ends it and makes it ready. (Where the spec leaves a choice the reading is the model's: log entry 31.)
Rests on 05_conversion_sequencing.md R192; 05_conversion_sequencing.md R185; 05_conversion_sequencing.md R186;
05_conversion_sequencing.md R207; 05_conversion_sequencing.md R208; 05_conversion_sequencing.md R209;
05_conversion_sequencing.md R210. -/
def Obligations.CalibrationAndReferenceFollowTheirComparisons : Prop :=
  ∀ (τ t : Nat) (s : State), s.power = .running → (s.tile t).online = true →
    let b := s.atTile τ t
    let u := (b.tile t).cv
    (∀ x, u.cal.lastAt = some x →
      (u.calAuto = true → u.refReady = true → u.calPeriod ≠ 0 → x + u.calPeriod * (60 * sec) ≤ b.now →
        exec (.calPeriodStart τ t) s = .next (b.calBackground t []).finish) ∧
      (u.calAuto = false ∨ u.refReady = false ∨ u.calPeriod = 0 ∨ b.now < x + u.calPeriod * (60 * sec) →
        exec (.calPeriodStart τ t) s = .next b.finish)) ∧
    (u.cal.lastAt = none → exec (.calPeriodStart τ t) s = .next b.finish) ∧
    (∀ v coef bad, (b.tile t).stepDue v (b.tnow t) = true → u.job v = none → (b.tile t).stepAt v + calStepT v ≤ b.tnow t →
      let now := b.tnow t
      let n := (if v = 1 then u.cal.stepsF else u.cal.stepsP) + 1
      let due := if u.cal.excl then now else now - calStepT v + 2 * ms
      let a := b.modCv t fun u => if v = 1 then { u with freeF := now, cal := { u.cal with stepsF := n, dueF := due } }
        else { u with freeP := now, cal := { u.cal with stepsP := n, dueP := due } }
      (n < 576 → exec (.calStep τ t v coef bad) s = .next a.finish) ∧
      (n = 576 → exec (.calStep τ t v coef bad) s = .next ((a.calApply t v coef bad).calFinish t).finish)) ∧
    (∀ v coef bad, (b.tile t).stepDue v (b.tnow t) = false ∨ (u.job v).isSome = true ∨
      b.tnow t < (b.tile t).stepAt v + calStepT v → exec (.calStep τ t v coef bad) s = .next b.finish) ∧
    (∀ v coef bad, u.cal.busy = false → exec (.calStep τ t v coef bad) s = .next b.finish) ∧
    (∀ dev : Int, (u.refEn = true → u.refReady = false → u.refFault = false → dev.natAbs ≤ 50 →
        exec (.refReady τ t dev) s = .next (((b.modCv t fun u => { u with refDev := dev }).refRise t).refresh t).finish) ∧
      (u.refEn = false ∨ u.refReady = true ∨ u.refFault = true ∨ 50 < dev.natAbs →
        exec (.refReady τ t dev) s = .next b.finish)) ∧
    (∀ dev : Int, (u.refEn = false → exec (.refCompare τ t dev) s = .next b.finish) ∧
      (u.refEn = true → u.refFault = false →
        let n := if 100 < dev.natAbs then u.badCnt + 1 else 0
        let a := b.modCv t fun u => { u with refDev := dev, badCnt := n, goodCnt := 0 }
        (n < 3 → exec (.refCompare τ t dev) s = .next a.finish) ∧
        (3 ≤ n → exec (.refCompare τ t dev) s = .next (((a.modCv t fun u =>
          { u with refFault := true, refReady := false }).raise (35 + t) 6 0 (toField 16 dev) 0).refresh t).finish)) ∧
      (u.refEn = true → u.refFault = true →
        let n := if dev.natAbs ≤ 50 then u.goodCnt + 1 else 0
        let a := b.modCv t fun u => { u with refDev := dev, goodCnt := n, badCnt := 0 }
        (n < 10 → exec (.refCompare τ t dev) s = .next a.finish) ∧
        (10 ≤ n → exec (.refCompare τ t dev) s = .next ((((a.modCv t fun u =>
          { u with refFault := false }).endPresent (35 + t) 6).refRise t).refresh t).finish)))

/-- A line change crosses the hub to every tile, lanes fail and return, and the merge takes, holds and releases events.
While the device runs: the oldest change of a line that is not stale, from a tile in service whose link is up, sets
the line and goes out to all sixteen tiles; at a tile whose link is up it sets the tile's copy and, online and not
stale, is seen by its rules and triggers; the failure of a lane not in use raises the lane fault alone, and of no
healthy lane does nothing; a lost link of a powered tile returns on those of the lanes whose failure lost it that
carry frames again and ends its fault, or is re-admitted on one lane; a corrupted frame is counted; the next event of
a tile that is heard, or of the hub, reaches the merge, which releases it late or holds it in key order; what is due
is released; and an early-release episode ends 1 ms after its last. (Where the spec leaves a choice the reading is the
model's: log entries 33 and 34.) Rests on 08_engines_reflexes_power.md R306; 08_engines_reflexes_power.md R316;
01_hub_tiles_engines.md R16; 01_hub_tiles_engines.md R38; 02_accession_time_order.md R61; 02_accession_time_order.md
R62; 02_accession_time_order.md R64; 09_faults_safe_state_archive.md Table 9-5. -/
def Obligations.LinesLanesMergeAndReleaseFollowTheLink : Prop :=
  ∀ (τ t : Nat) (s : State), s.power = .running →
    let b := s.advance τ
    let T := b.tile t
    (∀ l, let L := b.lines.getD l {}
      (L.toHub = [] → exec (.lineChangeHub τ l) s = .next b.finish) ∧
      (∀ v ts rest, L.toHub = (v, ts) :: rest → ((b.tile L.tile).lost = true ∨ L.stale = true ∨
          (b.tile L.tile).link.life = .offline) → exec (.lineChangeHub τ l) s = .next b.finish) ∧
      (∀ v ts rest, L.toHub = (v, ts) :: rest → (b.tile L.tile).lost = false → L.stale = false →
        (b.tile L.tile).link.life ≠ .offline → exec (.lineChangeHub τ l) s = .next
        ({ b with
          lines := updAt (fun L => { L with
            state := v, ts := ts, toHub := rest, toTiles := L.toTiles ++ tileNos.map fun t => (t, v, ts) }) l b.lines } : State).finish) ∧
      (∀ k v ts, (L.toTiles.find? fun x => decide (x.1 = t)) = some (k, v, ts) → T.lost = false →
        let a := ({ b with lines := updAt (fun L => { L with toTiles := L.toTiles.erase (t, v, ts) }) l b.lines } : State).modLink t
          fun k => { k with lines := updAt (fun _ => v) l k.lines }
        (L.stale = true ∨ (a.tile t).online = false → exec (.lineChangeTile τ t l) s = .next a.finish) ∧
        (L.stale = false → (a.tile t).online = true → exec (.lineChangeTile τ t l) s = .next
          ((a.refreshAt t (some (true, l, v)) ts).fireWhere t 2 (fun p => decide (p % 64 = l) && edgeParam p v) ts).finish))) ∧
    (∀ m, T.powered = false ∨ T.link.laneOk &&& m = 0 → exec (.laneFailure τ t m) s = .next b.finish) ∧
    (∀ m, T.powered = true → T.link.laneOk &&& m ≠ 0 → T.link.laneUse &&& (T.link.laneOk &&& m) = 0 →
      lanesIn (T.link.laneOk - (T.link.laneOk &&& m)) = 2 →
      exec (.laneFailure τ t m) s = .next ((b.modLink t fun L => { L with
        laneOk := T.link.laneOk - (T.link.laneOk &&& m),
        bad := L.bad.filter (fun x => (T.link.laneOk - (T.link.laneOk &&& m)).testBit x.1),
        laneUse := T.link.laneUse }).raise (35 + t) 13
          (if (T.link.laneOk &&& m).testBit 0 then 0 else if (T.link.laneOk &&& m).testBit 1 then 1 else 2) 0 0).finish) ∧
    (∀ lanes, T.powered = true → T.link.laneOk = 0 → T.link.lostWith &&& lanes ≠ 0 →
      let k := T.link.lostWith &&& lanes
      let a := b.findSight t fun L => { L with laneOk := k, laneUse := lanesUsed k, bad := [] }
      (lanesIn k ≠ 1 → exec (.linkReturn τ t lanes) s = .next ((a.endPresent (35 + t) 14).refresh t).finish) ∧
      (lanesIn k = 1 → exec (.linkReturn τ t lanes) s = .next ((a.linkReadmit t).refresh t).finish)) ∧
    (∀ lanes, T.powered = false ∨ T.link.laneOk ≠ 0 ∨ T.link.lostWith &&& lanes = 0 → exec (.linkReturn τ t lanes) s = .next b.finish) ∧
    (∀ lane, T.lost = false → T.link.laneOk.testBit lane = true →
      let a := b.modLink t fun L => { L with
        retrans := satInc 0xFFFF L.retrans, bad := (lane, b.now) :: L.bad.filter fun x => decide (b.now < x.2 + 10 * sec) }
      let mine := (a.tile t).link.bad.filter fun x => decide (x.1 = lane)
      (mine.length ≤ 4 → exec (.linkFrameCorrupted τ t lane) s = .next a.finish) ∧
      (4 < mine.length → exec (.linkFrameCorrupted τ t lane) s = .next (a.laneFail t (2 ^ lane)).finish)) ∧
    (∀ src e rest, src < 16 → popEv (b.tile src).link.sendQ = some (e, rest) → (b.tile src).heard = true →
      let a := b.modLink src (Link.took rest)
      (e.ch = 32 → exec (.eventArrivalMerge τ src) s = .next (a.arrive e).finish) ∧
      (e.ch < 32 → exec (.eventArrivalMerge τ src) s = .next ((a.accessioned src e.ch 2
        (e.kind % 256 * 2 ^ 24 + e.payload % 2 ^ 24) e.ts 0 0).arrive e).finish)) ∧
    (∀ src e es, 16 ≤ src → b.merge.hubOut = e :: es → exec (.eventArrivalMerge τ src) s =
      .next (State.arrive e { b with merge := { b.merge with hubOut := es } }).finish) ∧
    (exec (.eventRelease τ) s = .next (releaseDue b.merge.held b).finish) ∧
    (b.merge.epi = true → b.merge.epiLast + ms ≤ b.now → exec (.horizonEpisodeEnd τ) s = .next
      (State.endPresent 54 3 { b with merge := { b.merge with epi := false } }).finish)

/-- A pipeline gives each result to all its contexts, closes a partial block at its time, and reports a late delivery
once. While the device runs: the next result or gap notice on the link of a tile that is heard leaves the link and
goes through every context of its pipeline, which finds its pipeline at work, and a context that does not run, is
ending or started after it ignores it; a running context with a partial block and a block time closes the block when
that time has passed since the block began, and not before; and a waiting block whose delivery deadline has passed is
marked late with its fault, and one marked, without a deadline, or before it is left alone. (Where the spec leaves a
choice the reading is the model's: log entry 14.) Rests on 06_filter_pipelines.md R219; 06_filter_pipelines.md R222;
06_filter_pipelines.md R244; 07_host_ports_rings.md R294; 02_accession_time_order.md Table 2-9. -/
def Obligations.PipelinesTakeCloseAndDeliver : Prop :=
  ∀ (τ p c : Nat) (s : State), s.power = .running →
    let b := s.advance τ
    let x := b.ctx p c
    (popRes (b.tile p).link.sendQ = none → exec (.pipelineInput τ p) s = .next b.finish) ∧
    (∀ i rest, popRes (b.tile p).link.sendQ = some (i, rest) →
      ((b.tile p).heard = false → exec (.pipelineInput τ p) s = .next b.finish) ∧
      ((b.tile p).heard = true → exec (.pipelineInput τ p) s = .next
        (forAll (fun c u => u.ctxInput p c i) (List.range 32) ((b.rouse (19 + p)).modLink p (Link.took rest))).finish)) ∧
    (∀ i, x.run = false ∨ x.ending.isSome = true ∨ i.acc ≤ x.r.startAt → b.ctxInput p c i = b) ∧
    (x.run = true → x.r.part ≠ [] → x.blockT ≠ 0 → x.r.partAt + x.blockT ≤ b.now →
      exec (.blockTimeout τ p c) s = .next (b.closeBlock p c false).finish) ∧
    (x.run = false ∨ x.r.part = [] ∨ x.blockT = 0 ∨ b.now < x.r.partAt + x.blockT →
      exec (.blockTimeout τ p c) s = .next b.finish) ∧
    (x.r.wait = none → exec (.streamDeliveryDeadline τ p c) s = .next b.finish) ∧
    (∀ w, x.r.wait = some w →
      (w.deadline ≠ 0 → w.deadline < b.now → w.dl = false → exec (.streamDeliveryDeadline τ p c) s = .next
        ((b.modCtx p c fun x => { x with r := { x.r with wait := some { w with dl := true } } }).raise (19 + p) 0 c 0
          (sat 0xFFFFFFFF ((b.modCtx p c fun x => { x with r := { x.r with wait := some { w with dl := true } } }).now
            - w.deadline))).finish) ∧
      (w.deadline = 0 ∨ b.now ≤ w.deadline ∨ w.dl = true →
        exec (.streamDeliveryDeadline τ p c) s = .next b.finish))

/-- A watchdog is served or expires; a rotation loads, copies, opens its gap and hands over or ends; a repair and tile
service finish. While the device runs: a bound engine whose tile's link is up serves the watchdog; a powered tile
without service for TIMEOUT enters scope 1 with WATCHDOG and its SCOPE event; a rotation's load, pre-copy, gap and
handover take it to the next phase, handover within 200 µs binding the incoming engine and freeing the outgoing one, a
failed step or a gap of more than 200 µs ends it, and outside their phase these rows do nothing; a repair with an
engine binds it and completes the ROTATE commands that wait; a tile told to go offline is OFFLINE and its commands
complete with OK; and a re-admission that fails leaves the tile OFFLINE and completes with FAULTED, and one with three
healthy lanes puts it online. After the rows of rotation and repair the commands that waited run. (Where the spec
leaves a choice the reading is the model's: log entries 34 and 35.) Rests on 08_engines_reflexes_power.md R298;
09_faults_safe_state_archive.md R347; 08_engines_reflexes_power.md R310; 08_engines_reflexes_power.md R311;
08_engines_reflexes_power.md R312; 08_engines_reflexes_power.md R320; 08_engines_reflexes_power.md R321;
01_hub_tiles_engines.md R21. -/
def Obligations.WatchdogsRotationsRepairsAndServiceRunTheirSteps : Prop :=
  ∀ (τ t : Nat) (s : State), s.power = .running → s.dev.grave = false →
    let b := s.advance τ
    let T := b.tile t
    let r := b.rot
    (T.bound = true → T.lost = false → exec (.watchdogService τ t) s = .next
      ((b.modSaf t fun f => { f with wdServed := b.now, wdBack := f.wd }).endWatchdog t).finish) ∧
    (T.bound = false ∨ T.lost = true → exec (.watchdogService τ t) s = .next b.finish) ∧
    (T.powered = true → T.saf.wd = false → T.saf.wdServed + T.saf.timeout * ms ≤ b.now →
      let a := b.raise (35 + t) 0 0 0 0
      exec (.watchdogExpiry τ t) s = .next ((a.enterScope t fun f => { f with
        wd := true, wdSeen := true, wdBack := false, wdCause := a.causeOf (35 + t) 0 }).scopeEvent t 3 1
          (a.causeOf (35 + t) 0)).finish) ∧
    (b.now < T.saf.wdServed + T.saf.timeout * ms → exec (.watchdogExpiry τ t) s = .next b.finish) ∧
    (r.busy = true → r.phase = .load →
      exec (.rotationLoadEnd τ true) s = .next ({ b.loaded r.inEng .receiving r.tile with
        rot := { r with phase := .precopy } } : State).runWaiting.finish ∧
      exec (.rotationLoadEnd τ false) s = .next ((b.endRot 2 8 false).raise 54 7 0 (Config.storeArea 0) 0).runWaiting.finish) ∧
    (r.busy = true → r.phase = .precopy →
      exec (.rotationPrecopyEnd τ true) s = .next ({ b with rot := { r with phase := .ready, copyAt := b.now } } : State).runWaiting.finish ∧
      exec (.rotationPrecopyEnd τ false) s = .next (b.endRot 2 8 true).runWaiting.finish) ∧
    (r.busy = true → r.phase = .ready → b.atG = true → exec (.rotationGapStart τ) s = .next ({ b.modTile r.tile fun T =>
      { T with bound := false } with rot := { r with phase := .gap, gapAt := b.now } } : State).runWaiting.finish) ∧
    (b.atG = false → exec (.rotationGapStart τ) s = .next b.runWaiting.finish) ∧
    (r.busy = true → r.phase = .gap →
      (b.now ≤ r.gapAt + 20000 →
        let e := ((b.modTile r.tile fun T => { T with bound := true, rotating := false, engine := r.inEng }).modEngine r.inEng
          fun e => { e with st := .bound, tile := r.tile }).modEngine r.outEng fun e =>
            if e.st = .retired then e else { e with st := .idle, tile := 31 }
        let d : State := { e with rot := { e.rot with
          busy := false, h := none, lastOutcome := 1, lastTile := r.tile, lastGap := b.now - r.gapAt } }
        exec (.rotationHandover τ) s = .next (forAll (fun h u => u.reply h 0x88 (Reply.ok
          (payload [(16, 1, r.outEng), (17, 1, r.inEng), (18, 2, b.now - r.gapAt)]))) r.h.toList d).countRotated.runWaiting.finish) ∧
      (r.gapAt + 20000 ≤ b.now → exec (.rotationGapTimeout τ) s = .next (b.endGap 2 8).runWaiting.finish)) ∧
    (r.busy = false → exec (.rotationLoadEnd τ true) s = .next b.runWaiting.finish ∧ exec (.rotationPrecopyEnd τ true) s = .next b.runWaiting.finish ∧
      exec (.rotationGapStart τ) s = .next b.runWaiting.finish ∧ exec (.rotationHandover τ) s = .next b.runWaiting.finish ∧
      exec (.rotationGapTimeout τ) s = .next b.runWaiting.finish) ∧
    (∀ x, (r.repairs.find? fun r => decide (r.1 = t) && decide (r.2.2.1 ≠ 31)) = some x →
      ∃ u : State, exec (.repairHandover τ t) s = .next (forAll (fun (y : Nat × Hdr) v => v.reply y.2 0x88 (Reply.ok
        (payload [(16, 1, x.2.1), (17, 1, x.2.2.1), (18, 2, sat 0xFFFF (u.now - x.2.2.2))])))
          (u.rot.repairH.filter fun y => decide (y.1 = t))
          { u with rot := { u.rot with
            repairs := u.rot.repairs.filter (fun r => decide (r.1 ≠ t)), lastOutcome := 4, lastTile := t,
            lastGap := sat 0xFFFF ((u.now - x.2.2.2) / 100),
            repairH := u.rot.repairH.filter fun y => decide (y.1 ≠ t) } }).runWaiting.finish ∧
        u = (b.loaded x.2.2.1 .bound t).modTile t fun T => { T with bound := true, rotating := false, engine := x.2.2.1 }) ∧
    (T.link.life = .offlining → exec (.tileOfflineComplete τ t) s = .next (forAll (fun h u => u.reply h 0x78 (Reply.ok 0))
      T.link.lifeH (b.modLink t fun L => { L with life := .offline, lifeH := [] })).finish) ∧
    (T.link.life ≠ .offlining → exec (.tileOfflineComplete τ t) s = .next b.finish) ∧
    (T.link.life ≠ .readmitting → ∀ ok lanes, exec (.readmissionComplete τ t ok lanes) s = .next b.runWaiting.finish) ∧
    (T.link.life = .readmitting → ∀ lanes,
      exec (.readmissionComplete τ t false lanes) s = .next (forAll (fun h u => u.reply h 0x79 { st := 8 }) T.link.lifeH
        (b.modLink t fun L => { L with life := .offline, lifeH := [] })).runWaiting.finish) ∧
    (∀ lanes, T.link.life = .readmitting → T.powered = true → lanesIn (lanes % 8) = 3 →
      let a := ((b.modBlk (35 + t) fun k => { k with safe := false }).findSight t fun L => { L with
        life := .online, lifeH := [], laneOk := lanes % 8, laneUse := lanesUsed (lanes % 8), bad := [] }).endPresent (35 + t) 14
      let c := if (a.tile t).cv.refEn then a.refRise t else a
      exec (.readmissionComplete τ t true lanes) s = .next (forAll (fun h u => u.reply h 0x79 (Reply.ok 0)) T.link.lifeH
        (((c.staleLines t false).leaveBlock t).refresh t)).runWaiting.finish)

/-- SRAM errors are corrected or lose their item, and rails are adjusted, recovered, retained and reported. While the
device runs: a scrub of a bank ends its retention, and one that finds a single-bit error counts it, gives the notice
and repairs a row seen before, or notes the row; a double-bit error in the supervisor's banks marks the bank, repairs
the row and raises the bank and supervisor faults; a rail adjustment sets the full rail without scaling or below the
floor, and 5 mV less, down to 550 mV, with more than twice the floor of margin, of a block and of each bank; recovery
sets the full rail and ends retention; a block or bank idle for 100 µs enters retention with scaling on; and a renewal
counts, reports every rail's state, voltage and draw, and starts the margins anew. (Where the spec leaves a choice the
reading is the model's: log entry 36.) Rests on 08_engines_reflexes_power.md R318; 08_engines_reflexes_power.md R319;
08_engines_reflexes_power.md R322; 08_engines_reflexes_power.md R323; 08_engines_reflexes_power.md R325;
01_hub_tiles_engines.md R26; 08_engines_reflexes_power.md Table 8-15. -/
def Obligations.MemoryBanksAndRailsKeepTheirRecords : Prop :=
  ∀ (τ k : Nat) (s : State), s.power = .running →
    let b := s.advance τ
    let idle (x : Nat) : Bool := decide (x + 100 * us ≤ b.now)
    (∀ row, exec (.sramScrub τ k row false) s =
      .next (b.modSram k fun x => { x with ret := false, workAt := b.now }).finish) ∧
    (∀ row, let a := (b.modSram k fun x => { x with
        ret := false, workAt := b.now, corrected := satInc 0xFFFF x.corrected }).raise 53 0 k 0 0
      ((b.sram.getD k {}).rows.contains row = true →
        exec (.sramScrub τ k row true) s = .next (a.repairRow k row).finish) ∧
      ((b.sram.getD k {}).rows.contains row = false →
        exec (.sramScrub τ k row true) s = .next (a.modSram k fun x => { x with rows := row :: x.rows }).finish)) ∧
    (∀ row item, let a := ((b.modSram k fun x => { x with uncorr := true, ret := false, workAt := b.now }).raise 53 1 k 0 0).repairRow k row
      (202 ≤ k → k < 234 → exec (.sramDoubleBitError τ k row item) s = .next (a.raise 18 1 k 0 0).finish) ∧
      (64 ≤ k → k < 154 →
        exec (.sramDoubleBitError τ k row item) s = .next (a.raise ((k - 64) / 5) 0 k 0 0).finish) ∧
      (234 ≤ k → k < 250 →
        exec (.sramDoubleBitError τ k row item) s = .next ((a.raise 54 10 k 0 0).loseMerge item).finish)) ∧
    (∀ margin, let m := (b.pwr.getD k {}).minMargin.foldl min margin
      (56 ≤ k → exec (.railAdjust τ k margin) s = .next (b.modSram (k - 56) fun x =>
        { x with own := if b.scaleEn = false ∨ margin < 2000 then fullRail else if 4000 < margin then max 550 (x.own - 5)
          else x.own }).finish) ∧
      (53 ≤ k → k < 56 → exec (.railAdjust τ k margin) s = .next b.finish) ∧
      (k < 53 → exec (.railAdjust τ k margin) s = .next (b.modPwr k fun w =>
        { w with own := if b.scaleEn = false ∨ m < b.floor k then fullRail else if 2 * b.floor k < m then max 550 (w.own - 5)
          else w.own }).finish)) ∧
    (k < 56 → exec (.marginRecovery τ k) s = .next (b.modPwr k fun w => { w with own := fullRail, ret := false }).finish) ∧
    (56 ≤ k → exec (.marginRecovery τ k) s = .next (b.modSram (k - 56) fun x => { x with own := fullRail, ret := false }).finish) ∧
    ((b.scaleEn = true → k < 53 → b.busyBlk k = false → idle (b.pwr.getD k {}).workAt = true →
        exec (.retentionEntry τ k) s = .next (b.modPwr k fun w => { w with ret := true }).finish) ∧
      (k < 53 → b.busyBlk k = true ∨ idle (b.pwr.getD k {}).workAt = false →
        exec (.retentionEntry τ k) s = .next b.finish) ∧
      (b.scaleEn = true → 56 ≤ k → exec (.retentionEntry τ k) s = .next (b.modSram (k - 56) fun x =>
        if idle x.workAt then { x with ret := true } else x).finish)) ∧
    (b.scaleEn = false → exec (.retentionEntry τ k) s = .next b.finish) ∧
    (∀ draws, ∃ u : State, exec (.powerReportRenewal τ draws) s = .next u.finish ∧
      u.pwrUpdate = (b.pwrUpdate + 1) % 65536 ∧ u.pwr.length = b.pwr.length ∧
      (∀ n w, u.pwr[n]? = some w → w.minMargin = List.replicate 8 0xFFFFFFFF ∧
        (n < 53 → ∃ x, b.pwr[n]? = some x ∧ w.rail = x.own ∧ w.draw = sat 0xFFFFF (draws.getD n 0) ∧
          w.slack = x.minMargin)))

/-- A source stops being present, self-checks and lockstep are faults, ALIVE toggles in time, and windows and records are
written. While the device runs: a source whose condition no longer holds and that last occurred 1 ms ago stops being
present; a self-check without difference does nothing, one that differs raises the self-check fault of its block and
marks it safe, ends the streams of a pipeline and puts a tile into scope 2; a net that fails its check and a lockstep
mismatch raise their sources; the ALIVE gate is served outside the grave hold and missed 1 ms after its service; ALIVE
changes its level at each multiple of 500 µs with no reason against it, and holds it otherwise; the hub temperature is
stored and raises or ends TEMP across 125 °C; only a count at a multiple of 10 ms ends the storm window; and the
persistent log writes the next record, or reports a failed write. (Where the spec leaves a choice the reading is the
model's: log entries 37, 38 and 39.) Rests on 09_faults_safe_state_archive.md R331; 09_faults_safe_state_archive.md
Table 9-5; 09_faults_safe_state_archive.md R337; 09_faults_safe_state_archive.md R349; 09_faults_safe_state_archive.md
R353; 12_supplies_startup_fallow.md R422; 01_hub_tiles_engines.md R24. -/
def Obligations.FaultSourcesNetAliveArchiveAndLogFollowTheirHappenings : Prop :=
  ∀ (τ : Nat) (s : State), s.power = .running →
    let b := s.advance τ
    let l := b.per.plog
    (∀ k i, (b.condHolds k i = false → ((b.blk k).src i).last + ms ≤ b.bnow k →
        exec (.presentEnd τ k i) s = .next (b.endPresent k i).finish) ∧
      (b.condHolds k i = true ∨ b.bnow k < ((b.blk k).src i).last + ms → exec (.presentEnd τ k i) s = .next b.finish)) ∧
    (∀ k, exec (.selfchkCompare τ k 0) s = .next b.finish) ∧
    (∀ k diff, diff ≠ 0 →
      let a := (b.raise k 15 0 diff 0).modBlk k fun x => { x with safe := true }
      (k < 19 ∨ 50 < k → exec (.selfchkCompare τ k diff) s = .next a.finish) ∧
      (19 ≤ k → k ≤ 34 → exec (.selfchkCompare τ k diff) s = .next (a.stopWhere (k - 19) 3 fun _ => true).finish) ∧
      (35 ≤ k → k ≤ 50 →
        let c := a.causeOf k 15
        ((a.tile (k - 35)).saf.off = false → (a.tile (k - 35)).saf.blk = false →
          exec (.selfchkCompare τ k diff) s = .next ((a.enterScope (k - 35) fun f => { f with
            blk := true, cause := if f.off || f.blk then f.cause else c }).scopeEvent (k - 35) 3 2 c).finish) ∧
        ((a.tile (k - 35)).saf.off = true ∨ (a.tile (k - 35)).saf.blk = true →
          exec (.selfchkCompare τ k diff) s = .next (a.enterScope (k - 35) fun f => { f with
            blk := true, cause := if f.off || f.blk then f.cause else c }).finish))) ∧
    (exec (.netCheck τ) s = .next (b.raise 54 1 0 0 0).finish) ∧
    (exec (.svLockstepMismatch τ) s = .next (b.raise 18 0 0 0 0).finish) ∧
    (b.dev.grave = false → exec (.aliveGateService τ) s = .next
      ({ b with dev := { b.dev with gateAt := b.now, gateOk := true } } : State).finish) ∧
    (b.dev.grave = true → exec (.aliveGateService τ) s = .next b.finish) ∧
    (b.dev.gateAt + ms ≤ b.now → exec (.aliveGateTimeout τ) s = .next
      ({ b with dev := { b.dev with gateOk := false } } : State).finish) ∧
    (b.now < b.dev.gateAt + ms → exec (.aliveGateTimeout τ) s = .next b.finish) ∧
    (b.now % 50000 = 0 → b.aliveWhy = 0 → exec (.aliveEdge τ) s = .next
      ({ b with dev := { b.dev with aliveLevel := !b.dev.aliveLevel } } : State).finish) ∧
    (b.now % 50000 ≠ 0 ∨ b.aliveWhy ≠ 0 → exec (.aliveEdge τ) s = .next b.finish) ∧
    (∀ tj, let hot := decide (1250 < tj)
      let a : State := { b with therm := { tj := tj, hot := hot, hotSeen := b.therm.hotSeen || hot } }
      (hot = b.therm.hot → exec (.hubTempSample τ tj) s = .next a.finish) ∧
      (hot = true → b.therm.hot = false →
        exec (.hubTempSample τ tj) s = .next (a.raise 54 8 0 (toField 16 (roundHalfEven tj 10)) 0).finish) ∧
      (hot = false → b.therm.hot = true → exec (.hubTempSample τ tj) s = .next (a.endPresent 54 8).finish)) ∧
    (b.now % 1000000 ≠ 0 → exec (.stormWindowEnd τ) s = .next b.finish) ∧
    (b.now % 1000000 = 0 → (b.arch.all fun A => A.storms.isEmpty) = true → b.arch.length = 4 → exec (.stormWindowEnd τ) s = .next
      ({ b with arch := mapFrom (fun n A => if n = 0 then A else { A with
        winCnt := 0, coal := sat 0xFFFFFFFF A.coal }) 0 b.arch } : State).finish) ∧
    ((l.ready = false ∨ l.queue = [] → ∀ f, exec (.plogMirrorWrite τ f) s = .next b.finish) ∧
      (l.ready = true → l.queue ≠ [] → exec (.plogMirrorWrite τ true) s = .next
        (State.raise 54 7 0 (Config.storeArea 2) 0 { b with per := { b.per with plog := { l with failed := true } } }).finish) ∧
      (l.ready = true → l.queue ≠ [] → l.failed = false → exec (.plogMirrorWrite τ false) s = .next
        ({ b with
          per := { b.per with
            plog := { l.writeOne (if l.queue.any (fun x => decide (x.1 = 0)) then 0 else 1) with failed := false } } } : State).finish))

/-- A session times out, the supervisor switches, a trial expires, and a serial frame starts, ends and completes. While
the device runs: in the grave hold the supervisor does nothing; outside it a session idle for 60 s ends; the
supervisor's switch in a live activation is done, or drops the activation where its part fails or settings could not
be read; a trial whose time has run out reverts with cause 3, and not before; the next frame of a free, enabled serial
port outside the grave hold starts when its record can be read and has no bad field, and otherwise leaves with
DEADLINE_MISSED, NOT_READY, FAULTED or BAD_PARAM; the frame in progress ends at the rise of its select, is counted,
writes its words where it reads, and completes with what it saw; and a stray edge on SCKR is counted while no select
is low. (Where the spec leaves a choice the reading is the model's: log entries 40 and 41.) Rests on
10_firmware_update_recovery.md R364; 10_firmware_update_recovery.md R369; 10_firmware_update_recovery.md R371;
11_serial_ports.md R395; 11_serial_ports.md R396; 11_serial_ports.md R401; 11_serial_ports.md Table 11-3. -/
def Obligations.SessionActivationTrialAndFramesEnd : Prop :=
  ∀ (τ n : Nat) (s : State), s.power = .running →
    let b := s.advance τ
    let P := b.sps.getD n {}
    (b.dev.grave = true → exec (.sessionTimeout τ) s = .next b.finish ∧ exec (.trialExpiry τ) s = .next b.finish ∧
      ∀ ok, exec (.activationSvSwitch τ ok) s = .next b.finish) ∧
    (∀ x, b.dev.grave = false → b.upd.idleAt = some x →
      (x + 60 * sec ≤ b.now → exec (.sessionTimeout τ) s = .next
        ({ b with upd := { b.upd with session := none, idleAt := none } } : State).finish) ∧
      (b.now < x + 60 * sec → exec (.sessionTimeout τ) s = .next b.finish)) ∧
    (b.dev.grave = false → b.upd.stage = .activating → b.upd.svDone = false →
      let k := 1 - b.upd.runBank
      exec (.activationSvSwitch τ false) s = .next (b.storeFail.dropActivation k 8).finish ∧
      (b.readable k = false → exec (.activationSvSwitch τ true) s = .next (b.dropActivation k 11).finish) ∧
      (b.readable k = true → exec (.activationSvSwitch τ true) s = .next
        ({ b with upd := { b.upd with svDone := true } } : State).finish)) ∧
    (∀ x, b.dev.grave = false → b.upd.trialEnd = some x →
      (b.upd.stage = .trial → x ≤ b.now → exec (.trialExpiry τ) s = .next (b.revert 3 none).finish) ∧
      (b.upd.stage ≠ .trial ∨ b.now < x → exec (.trialExpiry τ) s = .next b.finish)) ∧
    (∀ f fs, P.cur = none → P.wait = f :: fs →
      let cfg := P.sels.getD f.sel {}
      (b.now < P.free ∨ b.dev.grave = true → exec (.spFrameStart τ n) s = .next b.finish) ∧
      (P.free ≤ b.now → b.dev.grave = false →
        (b.past f.h = true →
          exec (.spFrameStart τ n) s = .next ((b.raiseCmd f.h none).dropFrame n f { st := 5 }).finish) ∧
        (b.past f.h = false → P.en = false → exec (.spFrameStart τ n) s = .next (b.dropFrame n f { st := 4 }).finish) ∧
        (b.past f.h = false → P.en = true → f.fails = true →
          exec (.spFrameStart τ n) s = .next (b.dropFrame n f { st := 8, rs := 8, ix := 16 }).finish) ∧
        (b.past f.h = false → P.en = true → f.fails = false →
          (∀ i, recBad f.fr cfg f.resAddr = some i →
            exec (.spFrameStart τ n) s = .next (b.dropFrame n f (badField i)).finish) ∧
          (recBad f.fr cfg f.resAddr = none → exec (.spFrameStart τ n) s = .next (b.modSp n fun p => { p with
            wait := p.wait.drop 1, cur := some { f with s := b.now, cfg := cfg } }).finish)))) ∧
    (∀ f ws edges, P.cur = some f →
      (b.now < f.rise → exec (.spFrameEnd τ n ws edges) s = .next b.finish) ∧
      (f.rise ≤ b.now →
        let counts : Bool := f.cfg.ret = 1 || f.cfg.ret = 2
        let bad : Bool := counts && edges ≠ 2 * f.driven
        let a := b.modSp n fun p => { p with
          cur := none, frames := (p.frames + 1) % 65536, edgeErr := if bad then satInc 0xFFFF p.edgeErr else p.edgeErr,
          free := f.rise + f.cfg.gap, idleHigh := decide (2 ≤ f.cfg.mode) }
        let w := if recReads f.fr && (b.port f.h.port).live && !b.dev.grave then
            a.modPort f.h.port fun P => { P with out := P.out ++ [.words f.resAddr (f.results ws)] }
          else a
        exec (.spFrameEnd τ n ws edges) s = .next (w.reply f.h 0x60
          { st := if f.abortAt.isSome then 6 else if bad then 8 else 0,
            pl := payload [(16, 2, f.words.1), (18, 1, f.words.2),
              (19, 1, b2n bad + 2 * b2n f.abortAt.isSome + 16 * f.phase),
              (20, 4, if counts then edges else 0), (24, 4, f.s)] }).finish)) ∧
    (P.cur = none → ∀ ws edges, exec (.spFrameEnd τ n ws edges) s = .next b.finish) ∧
    (exec (.sckrStrayEdge τ n) s =
      .next (b.modSp n fun p => if (p.frameAt b.now).isNone then { p with stray := satInc 0xFFFF p.stray } else p).finish)

/-- After a device reset engine n is bound to tile n, and engines 16 and 17 are in the Depot. In State.reset, and in the
state that any device reset leaves whatever stood before: for n from 0 to 15 tile n is bound to engine n and engine n
is BOUND to tile n; engines 16 and 17 are idle in the Depot, bound to no tile. Formalises 01_hub_tiles_engines.md R20. -/
def Obligations.EnginesAreBoundToTheirTilesAfterReset : Prop :=
  ∀ (u : State), (u = State.reset ∨ ∃ (s : State) (pw : Power) (cause : Nat), u = s.restart pw cause) →
    (∀ n, n < 16 → (u.tile n).bound = true ∧ (u.tile n).engine = n ∧ (u.engine n).st = .bound ∧ (u.engine n).tile = n) ∧
    (u.engine 16).st = .idle ∧ (u.engine 16).tile = 31 ∧ (u.engine 17).st = .idle ∧ (u.engine 17).tile = 31

/-- No step changes the identity words: no host command and no image can write them. From every state, whatever command
stands at the front of its queue, image commands, restarts, reverts and every reaction included, and on an empty
queue: if the step answers a state, the revision, the hardware type, the PCI Express identities and the unit identity
are what they were. Formalises 01_hub_tiles_engines.md R28. -/
def Obligations.NothingWritesTheIdentityArea : Prop :=
  ∀ (s : State), answer (step s) fun v =>
    v.per.revId = s.per.revId ∧ v.per.hwType = s.per.hwType ∧ v.per.pciVendor = s.per.pciVendor ∧
      v.per.pciSubsys = s.per.pciSubsys ∧ v.per.unitId = s.per.unitId

end
end

