-- ==== Sys2Proof/Laws/Ops.lean ====
section
/-!
SUPPORT. What the shared operations do, said once: the end of a step, a happening at a tick, a ring command that may act or is
refused, and the queue under the operations that write the store.
-/
namespace Sys2Proof.Machine

/-! ## What a step answers -/

@[simp] theorem answer_next (v : State) (P : State → Prop) : answer (.next v) P = P v := rfl
@[simp] theorem answer_fault (r : Fault) (P : State → Prop) : answer (.fault r) P = True := rfl
@[simp] theorem answer_refused (r : Refusal) (P : State → Prop) : answer (.refused r) P = True := rfl
@[simp] theorem answer_ite (c : Prop) [Decidable c] (a b : Host.Outcome State Fault Refusal) (P : State → Prop) :
    answer (if c then a else b) P = if c then answer a P else answer b P := by split <;> rfl

theorem State.settle_of_todo {s : State} (h : s.dev.todo = []) : s.settle = s := by
  unfold State.settle
  simp [State.settleIn, h]

theorem State.chain_of_stage {s : State} (ha : s.upd.stage ≠ .activating) (hr : s.upd.stage ≠ .reverting) : s.chain = s := by
  unfold State.chain State.moveTo
  split <;> simp_all

theorem State.assignRepairs_nil {s : State} (h : s.rot.repairs = []) : s.assignRepairs = s := by
  simp [State.assignRepairs, h]

/-- Nothing follows a quiet state. -/
theorem State.finish_of_quiet {s : State} (h : s.quiet = true) : s.finish = s := by
  simp only [State.quiet, Bool.and_eq_true, List.isEmpty_iff, decide_eq_true_eq] at h
  obtain ⟨⟨⟨ht, hr⟩, ha⟩, hv⟩ := h
  unfold State.finish
  rw [State.settle_of_todo ht]
  dsimp only
  rw [State.assignRepairs_nil hr, State.chain_of_stage ha hv, State.settle_of_todo ht, ite_self]

/-- A happening at a tick, while the device runs. -/
theorem State.onTick_running {τ : Tick} {f : State → State} {s : State} (h : s.power = .running) :
    s.onTick τ f = (f (s.advance τ)).finish := by
  simp [State.onTick, h]

/-- A happening at a tick, while it does not. -/
theorem State.onTick_stopped {τ : Tick} {f : State → State} {s : State} (h : s.power ≠ .running) : s.onTick τ f = s := by
  simp [State.onTick, h]

@[simp] theorem State.advance_power (τ : Tick) (s : State) : (s.advance τ).power = s.power := by
  unfold State.advance; split <;> rfl

@[simp] theorem State.advance_tiles (τ : Tick) (s : State) : (s.advance τ).tiles = s.tiles := by
  unfold State.advance; split <;> rfl

@[simp] theorem State.advance_dev (τ : Tick) (s : State) : (s.advance τ).dev = s.dev := by
  unfold State.advance; split <;> rfl

@[simp] theorem State.advance_rot (τ : Tick) (s : State) : (s.advance τ).rot = s.rot := by
  unfold State.advance; split <;> rfl

@[simp] theorem State.advance_start (τ : Tick) (s : State) : (s.advance τ).start = s.start := by
  unfold State.advance; split <;> rfl

@[simp] theorem State.advance_complete (τ : Tick) (s : State) : (s.advance τ).complete = s.complete := by
  simp [State.complete]

theorem State.advance_now {τ : Tick} {s : State} (h : s.power = .running) : (s.advance τ).now = max s.now τ := by
  simp [State.advance, h]

/-! ## Happenings at a tile, of the supervisor and of the engines -/

theorem State.atTile_tile (τ : Tick) (t u : Nat) (s : State) : (s.atTile τ t).tile u = s.tile u := by
  simp [State.atTile, State.rouse, State.modPwr, State.tile]

/-- A happening inside a tile in service. -/
theorem State.onTile_acts {τ : Tick} {t : Nat} {f : State → State} {s : State} (h : s.power = .running)
    (ho : ((s.atTile τ t).tile t).online = true) : s.onTile τ t f = (f (s.atTile τ t)).finish := by
  rw [State.atTile_tile] at ho
  have h' : ((s.advance τ).tile t).online = true := by simpa [State.tile] using ho
  simp [State.onTile, State.onTick_running h, h', State.atTile]

/-- A happening at the pins of a powered tile. -/
theorem State.onPower_acts {τ : Tick} {t : Nat} {f : State → State} {s : State} (h : s.power = .running)
    (ho : ((s.atTile τ t).tile t).powered = true) : s.onPower τ t f = (f (s.atTile τ t)).finish := by
  rw [State.atTile_tile] at ho
  have h' : ((s.advance τ).tile t).powered = true := by simpa [State.tile] using ho
  simp [State.onPower, State.onTick_running h, h', State.atTile]

/-- A happening of the supervisor outside the grave hold. -/
theorem State.onSv_acts {τ : Tick} {f : State → State} {s : State} (h : s.power = .running) (hg : s.dev.grave = false) :
    s.onSv τ f = (f (s.advance τ)).finish := by
  simp [State.onSv, State.onTick_running h, hg]

/-- A happening of rotations and repairs outside the grave hold. -/
theorem State.onEngine_acts {τ : Tick} {f : State → State} {s : State} (h : s.power = .running) (hg : s.dev.grave = false) :
    s.onEngine τ f = (f (s.advance τ)).runWaiting.finish := by
  simp [State.onEngine, State.onTick_running h, hg]

/-! ## What a fetch leaves as it is -/

@[simp] theorem State.modPort_tiles' (p : PortId) (f : Port → Port) (s : State) : (s.modPort p f).tiles = s.tiles := by cases p <;> rfl
@[simp] theorem State.modPort_dev' (p : PortId) (f : Port → Port) (s : State) : (s.modPort p f).dev = s.dev := by cases p <;> rfl
@[simp] theorem State.modPort_start' (p : PortId) (f : Port → Port) (s : State) : (s.modPort p f).start = s.start := by cases p <;> rfl
@[simp] theorem State.modPort_now' (p : PortId) (f : Port → Port) (s : State) : (s.modPort p f).now = s.now := by cases p <;> rfl
@[simp] theorem State.modPort_own' (p : PortId) (f : Port → Port) (s : State) : (s.modPort p f).own = s.own := by cases p <;> rfl
@[simp] theorem State.modPort_lock' (p : PortId) (f : Port → Port) (s : State) : (s.modPort p f).lock = s.lock := by cases p <;> rfl
@[simp] theorem State.modPort_rot' (p : PortId) (f : Port → Port) (s : State) : (s.modPort p f).rot = s.rot := by cases p <;> rfl
@[simp] theorem State.modPort_safe' (p : PortId) (f : Port → Port) (s : State) : (s.modPort p f).power = s.power := by cases p <;> rfl

theorem State.modPort_id (p : PortId) (s : State) : s.modPort p id = s := by cases p <;> rfl

/-- Fetching its own descriptor changes one port's reservations and adds the command to those fetched. -/
theorem State.taken_cases (h : Hdr) (op : Nat) (s : State) :
    s.taken h op = s ∨ ∃ f fs, s.taken h op = { s.modPort h.port f with fetched := fs } := by
  unfold State.taken
  dsimp only
  split
  · exact .inl rfl
  · split
    · exact .inr ⟨_, _, rfl⟩
    · exact .inr ⟨id, _, by rw [State.modPort_id]⟩

@[simp] theorem State.taken_tiles (h : Hdr) (op : Nat) (s : State) : (s.taken h op).tiles = s.tiles := by
  rcases s.taken_cases h op with e | ⟨f, fs, e⟩ <;> simp [e]
@[simp] theorem State.taken_dev (h : Hdr) (op : Nat) (s : State) : (s.taken h op).dev = s.dev := by
  rcases s.taken_cases h op with e | ⟨f, fs, e⟩ <;> simp [e]
@[simp] theorem State.taken_start (h : Hdr) (op : Nat) (s : State) : (s.taken h op).start = s.start := by
  rcases s.taken_cases h op with e | ⟨f, fs, e⟩ <;> simp [e]
@[simp] theorem State.taken_now (h : Hdr) (op : Nat) (s : State) : (s.taken h op).now = s.now := by
  rcases s.taken_cases h op with e | ⟨f, fs, e⟩ <;> simp [e]
@[simp] theorem State.taken_own (h : Hdr) (op : Nat) (s : State) : (s.taken h op).own = s.own := by
  rcases s.taken_cases h op with e | ⟨f, fs, e⟩ <;> simp [e]
@[simp] theorem State.taken_lock (h : Hdr) (op : Nat) (s : State) : (s.taken h op).lock = s.lock := by
  rcases s.taken_cases h op with e | ⟨f, fs, e⟩ <;> simp [e]
@[simp] theorem State.taken_rot (h : Hdr) (op : Nat) (s : State) : (s.taken h op).rot = s.rot := by
  rcases s.taken_cases h op with e | ⟨f, fs, e⟩ <;> simp [e]

/-- What refuses a command does not depend on its fetch. -/
@[simp] theorem State.taken_refuses (h k : Hdr) (op : Nat) (c : Cmd) (s : State) : (s.taken h op).refuses k c = s.refuses k c := by
  rcases s.taken_cases h op with e | ⟨f, fs, e⟩
  · rw [e]
  · rw [e]; cases h.port <;> rfl

/-! ## Ring commands -/

/-- A command that `lets` admits, with sound operands and a tile that serves, is not refused. -/
theorem State.refuses_none {h : Hdr} {op : Nat} {c : Cmd} {s : State} (hl : s.lets h op c.own c.locked = true)
    (hb : c.bad = none) (ht : ∀ t, c.tile = some t → s.serves h.at_ t = true) (hn : c.needs = [.online]) :
    (s.advance h.at_).refuses h c = none := by
  simp only [State.lets, State.inService, Bool.and_eq_true, Bool.not_eq_true', List.all_eq_true, decide_eq_true_eq] at hl
  obtain ⟨⟨⟨⟨⟨⟨_, _⟩, hc⟩, _⟩, ho⟩, hp⟩, hk⟩ := hl
  have hf : c.own.find? (fun x => decide ((s.advance h.at_).owner x.1 x.2 ≠ some h.port)) = none := by
    rw [List.find?_eq_none]
    intro x hx
    simp [ho x hx]
  unfold State.refuses
  rw [hb]
  simp only [hf]
  rw [if_neg (by simp [State.phaseLets, hc]), if_neg (by simp [hp]), if_neg (by simp_all)]
  cases hct : c.tile with
  | none => rfl
  | some t =>
    have h1 := ht t hct
    simp only [State.serves, Bool.and_eq_true, Bool.not_eq_true', decide_eq_true_eq] at h1
    have h2 : ((s.advance h.at_).tile t).link.life = .online := by simpa only [State.tile, State.advance_tiles] using h1.1.1.2
    have h3 : (s.advance h.at_).engineless t = false := by
      simpa only [State.engineless, State.tile, State.advance_tiles, State.advance_rot] using h1.1.1.1
    simp [h2, h3, hn]

/-- A command whose turn has come and that nothing refuses or holds back: its effect, and its completion where it gives one
now. -/
theorem State.runCmd_acts {h : Hdr} {op : Nat} {c : Cmd} {act : State → State × Option Reply} {s : State}
    (hg : s.dev.grave = false) (hr : s.refuses h c = none) (hu : (s.taken h op).turn h op = true)
    (ht : ∀ t, c.tile = some t → (s.tile t).bound = true ∧ s.holdsBack t = false) :
    s.runCmd h op c act =
      (let x := act (((((s.taken h op).begun h).cmdMargin h op)).rouse (((s.taken h op).engOf op h.arg).getD 54))
       match x.2 with
      | some r => x.1.reply h op r
      | none => x.1) := by
  unfold State.runCmd
  simp only [hg, hu, if_true, Bool.false_eq_true, if_false]
  unfold State.begin_
  rw [State.taken_refuses, hr]
  dsimp only
  refine (if_neg ?_).trans ?_
  · unfold State.noEngine
    cases hct : c.tile with
    | none => simp
    | some t =>
      have h1 := ht t hct
      have h2 : ((s.taken h op).tile t).bound = true := by simpa only [State.tile, State.taken_tiles] using h1.1
      have h3 : (s.taken h op).holdsBack t = false := by
        simpa only [State.holdsBack, State.taken_rot, State.taken_now] using h1.2
      simp [h2, h3]
  · rfl

/-- A ring command that may act: its effect, its completion where it gives one now, and what follows. -/
theorem State.onRing_acts {h : Hdr} {op : Nat} {c : State → Cmd} {act : State → State × Option Reply} {s : State}
    (hl : s.lets h op (c (s.advance h.at_)).own (c (s.advance h.at_)).locked = true) (hb : (c (s.advance h.at_)).bad = none)
    (ht : ∀ t, (c (s.advance h.at_)).tile = some t → s.serves h.at_ t = true) (hn : (c (s.advance h.at_)).needs = [.online]) :
    s.onRing h op c act = (match (act (s.begins h op)).2 with
      | some r => (act (s.begins h op)).1.reply h op r
      | none => (act (s.begins h op)).1).finish := by
  have hr := State.refuses_none hl hb ht hn
  simp only [State.lets, State.inService, Bool.and_eq_true, Bool.not_eq_true', decide_eq_true_eq] at hl
  obtain ⟨⟨⟨⟨⟨⟨hp, hg⟩, hc⟩, hu⟩, ho⟩, hq⟩, hk⟩ := hl
  unfold State.onRing
  rw [State.onTick_running hp, State.runCmd_acts (by simpa using hg) hr hu]
  · rfl
  · intro t h1
    have h2 := ht t h1
    simp only [State.serves, Bool.and_eq_true, Bool.not_eq_true'] at h2
    exact ⟨by simpa only [State.tile, State.advance_tiles] using h2.1.2, h2.2⟩

/-- Everything a ring command can come to: nothing in the grave hold; a fetch alone while its turn has not come; a refusal
with its completion; a wait for an engine; or its effect. -/
theorem State.runCmd_cases (h : Hdr) (op : Nat) (c : Cmd) (act : State → State × Option Reply) (s : State) :
    (s.dev.grave = true ∧ s.runCmd h op c act = s) ∨
    s.runCmd h op c act = s.taken h op ∨
    (∃ r, s.refuses h c = some r ∧ s.runCmd h op c act = (s.taken h op).begin_ h op c act) ∨
    (∃ fs, s.runCmd h op c act = { s.taken h op with fetched := fs }) ∨
    (s.refuses h c = none ∧ s.runCmd h op c act =
      (let x := act ((((s.taken h op).begun h).cmdMargin h op).rouse (((s.taken h op).engOf op h.arg).getD 54))
       match x.2 with
      | some r => x.1.reply h op r
      | none => x.1)) := by
  unfold State.runCmd
  split
  · next hg => exact .inl ⟨hg, rfl⟩
  · dsimp only
    split
    · cases hr : s.refuses h c with
      | some r => exact .inr (.inr (.inl ⟨r, rfl, rfl⟩))
      | none =>
        unfold State.begin_
        rw [State.taken_refuses, hr]
        dsimp only
        split
        · exact .inr (.inr (.inr (.inl ⟨_, rfl⟩)))
        · exact .inr (.inr (.inr (.inr ⟨rfl, rfl⟩)))
    · exact .inr (.inl rfl)

/-! ## What a step of the count reaches -/

theorem mem_putDue (d x : DueAt) (l : List DueAt) : x ∈ putDue d l ↔ x = d ∨ x ∈ l := by
  induction l with
  | nil => simp [putDue]
  | cons y ys ih =>
    unfold putDue
    split
    · simp
    · simp only [List.mem_cons, ih]
      exact or_left_comm

theorem forAll_keeps {α : Type} (P : State → Prop) (f : α → State → State) (xs : List α)
    (h : ∀ x ∈ xs, ∀ s, P s → P (f x s)) (s : State) (hs : P s) : P (forAll f xs s) := by
  induction xs generalizing s with
  | nil => exact hs
  | cons x xs ih => exact ih (fun y hy => h y (by simp [hy])) _ (h x (by simp) _ hs)

/-- What every item of a list keeps, the list keeps. -/
theorem runDue_keeps (P : State → Prop) (ds : List DueAt) (h : ∀ d ∈ ds, ∀ s, P s → P (d.2 s)) (s : State) (hs : P s) :
    P (runDue ds s) := by
  have hm (ds l : List DueAt) (x : DueAt) : x ∈ ds.foldl (fun l d => putDue d l) l → x ∈ ds ∨ x ∈ l := by
    induction ds generalizing l with
    | nil => exact .inr
    | cons d ds ih =>
      intro hx
      rcases ih _ hx with hx | hx
      · simp [hx]
      · rcases (mem_putDue _ _ _).1 hx with rfl | hx <;> simp [*]
  exact forAll_keeps P _ _ (fun x hx => h x ((hm ds [] x hx).resolve_right (by simp))) s hs

/-- What the operations that a step may reach have in common, everything it skips has. -/
theorem skipped_all (P : (State → State) → Prop) (hi : ∀ t f, P f → P (State.ifOnline t f))
    (hw : ∀ t f, P f → P (fun s => if (s.tile t).powered then f s else s))
    (h1 : ∀ t c f, P (State.commitDue t c f)) (h2 : ∀ t n, P (State.timerTrigger t n)) (h3 : ∀ t n x, P (State.timerRest t n x))
    (h4 : ∀ t n, P (State.heldTrigger t n)) (h5 : ∀ t n, P (State.missScan t n)) (h6 : ∀ p g, P (State.txnDecide p g))
    (h7 : ∀ p g t, P (fun s => s.txnCommit p g t)) (h8 : ∀ p r n, P (State.waitPast p r n))
    (h9 : ∀ t p r n, P (State.injPast t p r n)) (h10 : ∀ p c, P (State.deliveryPast p c)) (b s : State) :
    ∀ d ∈ State.skipped b s, P d.2 := by
  intro d hd
  have hr (lo hi : Tick) (ds : List DueAt) (h : d ∈ reached lo hi ds) : d ∈ ds := List.mem_of_mem_filter h
  simp only [State.skipped, List.mem_append, List.mem_flatMap, Tile.dues] at hd
  rcases hd with ⟨t, _, hd⟩ | hd
  · split at hd
    · have hd := hr _ _ _ hd
      rcases List.mem_append.1 hd with hd | hd
      · simp only [Tile.commitDues, List.mem_flatMap, List.mem_map] at hd
        obtain ⟨x, _, a, _, rfl⟩ := hd
        exact h1 _ _ _
      · split at hd
        · rcases List.mem_append.1 hd with hd | hd
          · simp only [Tile.timerDues, List.mem_flatMap] at hd
            obtain ⟨x, _, hd⟩ := hd
            split at hd
            · simp only [List.mem_cons, List.not_mem_nil, or_false] at hd
              rcases hd with rfl | rfl | rfl
              · exact hi _ _ (h2 _ _)
              · exact hi _ _ (h2 _ _)
              · exact hi _ _ (h3 _ _ _)
            · cases hd
          · simp only [Tile.seqDues, List.mem_flatMap] at hd
            obtain ⟨x, _, hd⟩ := hd
            rcases List.mem_append.1 hd with hd | hd
            · simp only [List.mem_map] at hd
              obtain ⟨a, _, rfl⟩ := hd
              exact hi _ _ (h4 _ _)
            · split at hd
              · split at hd
                · cases hd
                · simp only [List.mem_cons, List.not_mem_nil, or_false] at hd
                  subst hd
                  exact hi _ _ (h5 _ _)
              · cases hd
        · cases hd
    · cases hd
  · have hd := hr _ _ _ hd
    rcases List.mem_append.1 hd with hd | hd
    · simp only [State.txnDues, List.mem_flatMap] at hd
      obtain ⟨x, _, hd⟩ := hd
      rcases List.mem_cons.1 hd with rfl | hd
      · exact h6 _ _
      · simp only [List.mem_map] at hd
        obtain ⟨a, _, rfl⟩ := hd
        exact hw _ _ (h7 _ _ _)
    · simp only [State.waitDues, List.mem_append, List.mem_flatMap, List.mem_map] at hd
      rcases hd with (⟨f, _, rfl⟩ | ⟨t, _, e, _, rfl⟩) | ⟨P, _, x, _, hd⟩
      · exact h8 _ _ _
      · exact hi _ _ (h9 _ _ _ _)
      · split at hd
        · simp only [List.mem_cons, List.not_mem_nil, or_false] at hd
          subst hd
          exact h10 _ _
        · cases hd

/-- All that checking a delta can do: nothing, or the record and the bytes of the standby bank written. -/
theorem State.checkDelta_cases (s : State) :
    s.checkDelta.1 = s ∨ ∃ a bs b f, s.checkDelta.1 = State.storePut a bs (s.modRec b f) := by
  unfold State.checkDelta
  dsimp only
  split
  · exact .inl rfl
  · split
    · exact .inl rfl
    · generalize runDelta _ _ _ _ _ = r
      right
      refine ⟨bankBase s.standby, r.1.reverse, s.standby, fun r => { r with st := .writing, nextBoot := false }, ?_⟩
      obtain ⟨out, ok⟩ := r
      generalize State.modRec _ _ s = u
      dsimp only
      split
      · rfl
      · split <;> rfl

end Sys2Proof.Machine
end

