-- ==== Sys2Proof/Laws/Control.lean ====
section
/-!
SUPPORT. Every operation but those of the lock, of ownership, of supplies, of the hub temperature, of time and of restarts leaves all of these as they are: one lemma for each operation.
-/
namespace Sys2Proof.Machine

@[simp] theorem State.control_mk (a0 a1 a2 a3 a4 a5 a6 a7 a8 a9 a10 a11 a12 a13 a14 a15 a16 a17 a18 a19 a20 a21 a22 a23 a24 a25 a26 a27 a28 a29 a30 a31 a32 a33) : (State.mk a0 a1 a2 a3 a4 a5 a6 a7 a8 a9 a10 a11 a12 a13 a14 a15 a16 a17 a18 a19 a20 a21 a22 a23 a24 a25 a26 a27 a28 a29 a30 a31 a32 a33).control = (a4, a5.tab, a30, a32, a2, a1) := id rfl
@[simp] theorem State.control_fold (s : State) : (s.lock, s.own.tab, s.sup, s.therm, s.now, s.power) = s.control := id rfl
@[simp] theorem State.control_ite (c : Prop) [Decidable c] (a b : State) : (if c then a else b).control = if c then a.control else b.control := by split <;> rfl
@[simp] theorem State.control_ite1 {α} (c : Prop) [Decidable c] (a b : State × α) : (if c then a else b).1.control = if c then a.1.control else b.1.control := by split <;> rfl
@[simp] theorem forAll_ctl {α : Type} (f : α → State → State) (h : ∀ x s, (f x s).control = s.control) (xs : List α) (s : State) : (forAll f xs s).control = s.control := by induction xs generalizing s with | nil => rfl | cons x xs ih => simp [forAll, ih, h]
@[simp] theorem Own.atTick_tab (now : Tick) (o : Own) : (o.atTick now).tab = o.tab := by unfold Own.atTick; split <;> rfl
@[simp] theorem State.modTile_ctl (t : Nat) (f : Tile → Tile) (s : State) : (State.modTile t f s).control = s.control := by
  unfold State.modTile
  first | (simp; done) | rfl | (repeat' (first | (simp; done) | split))
@[simp] theorem State.modChan_ctl (t c : Nat) (f : Chan → Chan) (s : State) : (State.modChan t c f s).control = s.control := by
  unfold State.modChan
  first | (simp; done) | rfl | (repeat' (first | (simp; done) | split))
@[simp] theorem State.modPort_ctl (p : PortId) (f : Port → Port) (s : State) : (State.modPort p f s).control = s.control := by
  unfold State.modPort
  first | (simp; done) | rfl | (repeat' (first | (simp; done) | split))
@[simp] theorem State.modSeq_ctl (t n : Nat) (f : Seq → Seq) (s : State) : (State.modSeq t n f s).control = s.control := by
  unfold State.modSeq
  first | (simp; done) | rfl | (repeat' (first | (simp; done) | split))
@[simp] theorem State.modCv_ctl (t : Nat) (f : ConvUnit → ConvUnit) (s : State) : (State.modCv t f s).control = s.control := by
  unfold State.modCv
  first | (simp; done) | rfl | (repeat' (first | (simp; done) | split))
@[simp] theorem State.modLink_ctl (t : Nat) (f : Link → Link) (s : State) : (State.modLink t f s).control = s.control := by
  unfold State.modLink
  first | (simp; done) | rfl | (repeat' (first | (simp; done) | split))
@[simp] theorem State.modSaf_ctl (t : Nat) (f : Safety → Safety) (s : State) : (State.modSaf t f s).control = s.control := by
  unfold State.modSaf
  first | (simp; done) | rfl | (repeat' (first | (simp; done) | split))
@[simp] theorem State.modOut_ctl (t c : Nat) (f : OutState → OutState) (s : State) : (State.modOut t c f s).control = s.control := by
  unfold State.modOut
  first | (simp; done) | rfl | (repeat' (first | (simp; done) | split))
@[simp] theorem State.modMeas_ctl (t c : Nat) (f : MeasState → MeasState) (s : State) : (State.modMeas t c f s).control = s.control := by
  unfold State.modMeas
  first | (simp; done) | rfl | (repeat' (first | (simp; done) | split))
@[simp] theorem State.modCtx_ctl (p c : Nat) (f : Ctx → Ctx) (s : State) : (State.modCtx p c f s).control = s.control := by
  unfold State.modCtx
  first | (simp; done) | rfl | (repeat' (first | (simp; done) | split))
@[simp] theorem State.modSp_ctl (n : Nat) (f : SPort → SPort) (s : State) : (State.modSp n f s).control = s.control := by
  unfold State.modSp
  first | (simp; done) | rfl | (repeat' (first | (simp; done) | split))
@[simp] theorem State.modEngine_ctl (n : Nat) (f : Engine → Engine) (s : State) : (State.modEngine n f s).control = s.control := by
  unfold State.modEngine
  first | (simp; done) | rfl | (repeat' (first | (simp; done) | split))
@[simp] theorem State.modBlk_ctl (k : Nat) (f : FBlk → FBlk) (s : State) : (State.modBlk k f s).control = s.control := by
  unfold State.modBlk
  first | (simp; done) | rfl | (repeat' (first | (simp; done) | split))
@[simp] theorem State.modSrc_ctl (k i : Nat) (f : Src → Src) (s : State) : (State.modSrc k i f s).control = s.control := by
  unfold State.modSrc
  first | (simp; done) | rfl | (repeat' (first | (simp; done) | split))
@[simp] theorem State.lateness_ctl (k i idx x : Nat) (s : State) : (State.lateness k i idx x s).control = s.control := by
  unfold State.lateness
  first | (simp; done) | rfl | (repeat' (first | (simp; done) | split))
@[simp] theorem State.emitHubAt_ctl (ts kind pl : Nat) (wide : List Int) (toPorts : Bool) (s : State) : (State.emitHubAt ts kind pl wide toPorts s).control = s.control := by
  unfold State.emitHubAt
  first | (simp; done) | rfl | (repeat' (first | (simp; done) | split))
@[simp] theorem State.emitHub_ctl (kind pl : Nat) (s : State) : (State.emitHub kind pl s).control = s.control := by
  unfold State.emitHub
  first | (simp; done) | rfl | (repeat' (first | (simp; done) | split))
@[simp] theorem State.enterScope_ctl (t : Nat) (f : Safety → Safety) (s : State) : (State.enterScope t f s).control = s.control := by
  unfold State.enterScope
  first | (simp; done) | rfl | (repeat' (first | (simp; done) | split))
@[simp] theorem State.leaveScope_ctl (t : Nat) (f : Safety → Safety) (s : State) : (State.leaveScope t f s).control = s.control := by
  unfold State.leaveScope
  first | (simp; done) | rfl | (repeat' (first | (simp; done) | split))
@[simp] theorem State.netEvent_ctl (action : Nat) (s : State) : (State.netEvent action s).control = s.control := by
  unfold State.netEvent
  first | (simp; done) | rfl | (repeat' (first | (simp; done) | split))
@[simp] theorem State.assertNet_ctl (k i : Nat) (s : State) : (State.assertNet k i s).control = s.control := by
  unfold State.assertNet
  first | (simp; done) | rfl | (repeat' (first | (simp; done) | split))
@[simp] theorem State.msix_ctl (p : PortId) (v : Nat) (s : State) : (State.msix p v s).control = s.control := by
  unfold State.msix
  first | (simp; done) | rfl | (repeat' (first | (simp; done) | split))
@[simp] theorem State.faultMsi_ctl (k : Nat) (p : PortId) (s : State) : (State.faultMsi k p s).control = s.control := by
  unfold State.faultMsi
  first | (simp; done) | rfl | (repeat' (first | (simp; done) | split))
@[simp] theorem State.graveRecord_ctl (s : State) : (State.graveRecord s).control = s.control := by
  unfold State.graveRecord
  first | (simp; done) | rfl | (repeat' (first | (simp; done) | split))
@[simp] theorem State.record_ctl (k i ch idx code aux : Nat) (τ : Tick) (s : State) : (State.record k i ch idx code aux τ s).1.control = s.control := by
  unfold State.record
  first | (simp; done) | rfl | (repeat' (first | (simp; done) | split))
@[simp] theorem State.linkPush_ctl (t : Nat) (x : LinkItem) (s : State) : (State.linkPush t x s).control = s.control := by
  unfold State.linkPush
  first | (simp; done) | rfl | (repeat' (first | (simp; done) | split))
@[simp] theorem State.emitAt_ctl (t c ts kind pl : Nat) (toPorts : Bool) (s : State) : (State.emitAt t c ts kind pl toPorts s).control = s.control := by
  unfold State.emitAt
  first | (simp; done) | rfl | (repeat' (first | (simp; done) | split))
@[simp] theorem State.emit_ctl (t c kind pl : Nat) (s : State) : (State.emit t c kind pl s).control = s.control := by
  unfold State.emit
  first | (simp; done) | rfl | (repeat' (first | (simp; done) | split))
@[simp] theorem State.raiseCh_ctl (k i ch idx code aux : Nat) (s : State) : (State.raiseCh k i ch idx code aux s).control = s.control := by
  unfold State.raiseCh
  first | (simp; done) | rfl | (repeat' (first | (simp; done) | split))
@[simp] theorem State.raise_ctl (k i idx code aux : Nat) (s : State) : (State.raise k i idx code aux s).control = s.control := by
  unfold State.raise
  first | (simp; done) | rfl | (repeat' (first | (simp; done) | split))
@[simp] theorem State.endPresent_ctl (k i : Nat) (s : State) : (State.endPresent k i s).control = s.control := by
  unfold State.endPresent
  first | (simp; done) | rfl | (repeat' (first | (simp; done) | split))
@[simp] theorem State.notice_ctl (t ch idx kind : Nat) (s : State) : (State.notice t ch idx kind s).control = s.control := by
  unfold State.notice
  first | (simp; done) | rfl | (repeat' (first | (simp; done) | split))
@[simp] theorem State.scopeEvent_ctl (t action scope : Nat) (c : Cause) (s : State) : (State.scopeEvent t action scope c s).control = s.control := by
  unfold State.scopeEvent
  first | (simp; done) | rfl | (repeat' (first | (simp; done) | split))
@[simp] theorem State.endNet_ctl (s : State) : (State.endNet s).control = s.control := by
  unfold State.endNet
  first | (simp; done) | rfl | (repeat' (first | (simp; done) | split))
@[simp] theorem State.pump_ctl (s : State) : (State.pump s).control = s.control := by
  unfold State.pump
  first | (simp; done) | rfl | (repeat' (first | (simp; done) | split))
@[simp] theorem State.reply_ctl (h : Hdr) (op : Nat) (r : Reply) (s : State) : (State.reply h op r s).control = s.control := by
  unfold State.reply
  first | (simp; done) | rfl | (repeat' (first | (simp; done) | split))
@[simp] theorem State.begun_ctl (h : Hdr) (s : State) : (State.begun h s).control = s.control := by
  unfold State.begun
  first | (simp; done) | rfl | (repeat' (first | (simp; done) | split))
@[simp] theorem State.margin_ctl (k j m : Nat) (s : State) : (State.margin k j m s).control = s.control := by
  unfold State.margin
  first | (simp; done) | rfl | (repeat' (first | (simp; done) | split))
@[simp] theorem State.modPwr_ctl (k : Nat) (f : Pwr → Pwr) (s : State) : (State.modPwr k f s).control = s.control := by
  unfold State.modPwr
  first | (simp; done) | rfl | (repeat' (first | (simp; done) | split))
@[simp] theorem State.rouse_ctl (k : Nat) (s : State) : (State.rouse k s).control = s.control := by
  unfold State.rouse
  first | (simp; done) | rfl | (repeat' (first | (simp; done) | split))
@[simp] theorem State.raiseCmd_ctl (h : Hdr) (e : Option Nat) (s : State) : (State.raiseCmd h e s).control = s.control := by
  unfold State.raiseCmd
  first | (simp; done) | rfl | (repeat' (first | (simp; done) | split))
@[simp] theorem State.archPut_ctl (n : Nat) (x : ArchEntry) (s : State) : (State.archPut n x s).control = s.control := by
  unfold State.archPut
  first | (simp; done) | rfl | (repeat' (first | (simp; done) | split))
@[simp] theorem State.archive_ctl (e : Event) (s : State) : (State.archive e s).control = s.control := by
  unfold State.archive
  first | (simp; done) | rfl | (repeat' (first | (simp; done) | split))
@[simp] theorem State.release_ctl (late : Bool) (e : Event) (s : State) : (State.release late e s).control = s.control := by
  unfold State.release
  first | (simp; done) | rfl | (repeat' (first | (simp; done) | split))
@[simp] theorem releaseDue_ctl (es : List Event) (s : State) : (releaseDue es s).control = s.control := by
  induction es generalizing s with
  | nil => simp [releaseDue]
  | cons e es ih => simp [releaseDue, ih]
@[simp] theorem State.releaseHeld_ctl (s : State) : (State.releaseHeld s).control = s.control := by
  unfold State.releaseHeld
  (try simp)
  repeat' (first | done | (simp; done) | split | intro _ | (simp; split))
@[simp] theorem State.releaseEarly_ctl (s : State) : (State.releaseEarly s).control = s.control := by
  unfold State.releaseEarly
  first | (simp; done) | rfl | (repeat' (first | (simp; done) | split))
@[simp] theorem State.arrive_ctl (e : Event) (s : State) : (State.arrive e s).control = s.control := by
  unfold State.arrive
  first | (simp; done) | rfl | (repeat' (first | (simp; done) | split))
@[simp] theorem State.setDiagX_ctl (t c b : Nat) (on : Bool) (partner burn : Nat) (s : State) : (State.setDiagX t c b on partner burn s).control = s.control := by
  unfold State.setDiagX
  first | (simp; done) | rfl | (repeat' (first | (simp; done) | split))
@[simp] theorem State.setDiag_ctl (t c b : Nat) (on : Bool) (s : State) : (State.setDiag t c b on s).control = s.control := by
  unfold State.setDiag
  first | (simp; done) | rfl | (repeat' (first | (simp; done) | split))
@[simp] theorem State.discard_ctl (t c v fate : Nat) (s : State) : (State.discard t c v fate s).control = s.control := by
  unfold State.discard
  first | (simp; done) | rfl | (repeat' (first | (simp; done) | split))
@[simp] theorem State.accessioned_ctl (t c v val : Nat) (ts : Tick) (attempt gain : Nat) (s : State) : (State.accessioned t c v val ts attempt gain s).control = s.control := by
  unfold State.accessioned
  first | (simp; done) | rfl | (repeat' (first | (simp; done) | split))
@[simp] theorem State.accessionOut_ctl (t c kind v origin port rule tag : Nat) (s : State) : (State.accessionOut t c kind v origin port rule tag s).control = s.control := by
  unfold State.accessionOut
  first | (simp; done) | rfl | (repeat' (first | (simp; done) | split))
@[simp] theorem State.dropAfter_ctl (t c v : Nat) (off : Nat → Nat → Nat → State → State) (s : State)
    (h_off : ∀ a b k s, (off a b k s).control = s.control) : (State.dropAfter t c v off s).control = s.control := by
  unfold State.dropAfter
  first | (simp [h_off]; done) | (repeat' (first | (simp [h_off]; done) | split))
@[simp] theorem State.offAction_ctl (t c origin : Nat) (s : State) : (State.offAction t c origin s).control = s.control := by
  unfold State.offAction
  first | (simp; done) | rfl | (repeat' (first | (simp; done) | split))
@[simp] theorem State.accDue_ctl (t c : Nat) (d : Due) (s : State) : (State.accDue t c d s).control = s.control := by
  unfold State.accDue
  first | (simp; done) | rfl | (repeat' (first | (simp; done) | split))
@[simp] theorem State.commandsFirst_ctl (t c : Nat) (s : State) : (State.commandsFirst t c s).control = s.control := by
  unfold State.commandsFirst
  first | (simp; done) | rfl | (repeat' (first | (simp; done) | split))
@[simp] theorem State.driveLine_ctl (t r l : Nat) (v : Bool) (ts : Tick) (s : State) : (State.driveLine t r l v ts s).control = s.control := by
  unfold State.driveLine
  first | (simp; done) | rfl | (repeat' (first | (simp; done) | split))
@[simp] theorem State.freeLine_ctl (t r l : Nat) (ts : Tick) (s : State) : (State.freeLine t r l ts s).control = s.control := by
  unfold State.freeLine
  first | (simp; done) | rfl | (repeat' (first | (simp; done) | split))
@[simp] theorem State.fireRule_ctl (t i : Nat) (ts : Tick) (s : State) : (State.fireRule t i ts s).control = s.control := by
  unfold State.fireRule
  (try simp)
  repeat' (first | done | (simp; done) | split | intro _ | (simp; split))
@[simp] theorem State.judgeRule_ctl (t : Nat) (e : Option Edge) (ts : Tick) (i : Nat) (s : State) : (State.judgeRule t e ts i s).control = s.control := by
  unfold State.judgeRule
  first | (simp; done) | rfl | (repeat' (first | (simp; done) | split))
@[simp] theorem State.reflex_ctl (t : Nat) (e : Option Edge) (ts : Tick) (s : State) : (State.reflex t e ts s).control = s.control := by
  unfold State.reflex
  first | (simp; done) | rfl | (repeat' (first | (simp; done) | split))
@[simp] theorem State.deriveChan_ctl (t c : Nat) (s : State) : (State.deriveChan t c s).control = s.control := by
  unfold State.deriveChan
  first | (simp; done) | rfl | (repeat' (first | (simp; done) | split))
@[simp] theorem State.refreshAt_ctl (t : Nat) (e : Option Edge) (ts : Tick) (s : State) : (State.refreshAt t e ts s).control = s.control := by
  unfold State.refreshAt
  first | (simp; done) | rfl | (repeat' (first | (simp; done) | split))
@[simp] theorem State.refresh_ctl (t : Nat) (s : State) : (State.refresh t s).control = s.control := by
  unfold State.refresh
  first | (simp; done) | rfl | (repeat' (first | (simp; done) | split))
@[simp] theorem State.trimChange_ctl (t c : Nat) (ofs : Int) (gain : Nat) (s : State) : (State.trimChange t c ofs gain s).control = s.control := by
  unfold State.trimChange
  first | (simp; done) | rfl | (repeat' (first | (simp; done) | split))
@[simp] theorem State.endCtx_ctl (p c : Nat) (s : State) : (State.endCtx p c s).control = s.control := by
  unfold State.endCtx
  first | (simp; done) | rfl | (repeat' (first | (simp; done) | split))
@[simp] theorem State.pumpCtx_ctl (p c : Nat) (s : State) : (State.pumpCtx p c s).control = s.control := by
  unfold State.pumpCtx
  (try simp)
  repeat' (first | done | (simp; done) | split | intro _ | (simp; split))
@[simp] theorem State.pumpStreams_ctl (s : State) : (State.pumpStreams s).control = s.control := by
  unfold State.pumpStreams
  first | (simp; done) | rfl | (repeat' (first | (simp; done) | split))
@[simp] theorem State.closeBlock_ctl (p c : Nat) (final : Bool) (s : State) : (State.closeBlock p c final s).control = s.control := by
  unfold State.closeBlock
  first | (simp; done) | rfl | (repeat' (first | (simp; done) | split))
@[simp] theorem State.pipeAct_ctl (p c : Nat) (a : PipeAct) (s : State) : (State.pipeAct p c a s).control = s.control := by
  unfold State.pipeAct
  first | (simp; done) | rfl | (repeat' (first | (simp; done) | split))
@[simp] theorem State.feedCtx_ctl (p c : Nat) (v : Int) (mark : Nat) (tau : Int) (ts : Tick) (dic : Bool) (s : State) : (State.feedCtx p c v mark tau ts dic s).control = s.control := by
  unfold State.feedCtx
  first | (simp; done) | rfl | (repeat' (first | (simp; done) | split))
@[simp] theorem State.gapCtx_ctl (p c : Nat) (tau : Int) (ts : Tick) (dic : Bool) (s : State) : (State.gapCtx p c tau ts dic s).control = s.control := by
  unfold State.gapCtx
  first | (simp; done) | rfl | (repeat' (first | (simp; done) | split))
@[simp] theorem State.gapRun_ctl (p c per k i : Nat) (s : State) : (State.gapRun p c per k i s).control = s.control := by
  induction k generalizing i s with
  | zero => simp [State.gapRun]
  | succ k ih => simp [State.gapRun, ih]
@[simp] theorem State.gridInput_ctl (p c : Nat) (i : PipeIn) (s : State) : (State.gridInput p c i s).control = s.control := by
  unfold State.gridInput
  (try simp)
  repeat' (first | done | (simp; done) | split | intro _ | (simp; split))
@[simp] theorem State.switchCtx_ctl (p c ch : Nat) (h : Hdr) (s : State) : (State.switchCtx p c ch h s).control = s.control := by
  unfold State.switchCtx
  first | (simp; done) | rfl | (repeat' (first | (simp; done) | split))
@[simp] theorem State.ctxInput_ctl (p c : Nat) (i : PipeIn) (s : State) : (State.ctxInput p c i s).control = s.control := by
  unfold State.ctxInput
  (try simp)
  repeat' (first | done | (simp; done) | split | intro _ | (simp; split))
@[simp] theorem State.stopCtx_ctl (p c reason : Nat) (h : Option Hdr) (s : State) : (State.stopCtx p c reason h s).control = s.control := by
  unfold State.stopCtx
  (try simp)
  repeat' (first | done | (simp; done) | split | intro _ | (simp; split))
@[simp] theorem State.stopWhere_ctl (p reason : Nat) (f : Ctx → Bool) (s : State) : (State.stopWhere p reason f s).control = s.control := by
  unfold State.stopWhere
  first | (simp; done) | rfl | (repeat' (first | (simp; done) | split))
@[simp] theorem State.startCtx_ctl (p c : Nat) (port : PortId) (ring : Nat) (s : State) : (State.startCtx p c port ring s).control = s.control := by
  unfold State.startCtx
  first | (simp; done) | rfl | (repeat' (first | (simp; done) | split))
@[simp] theorem State.endCapture_ctl (t c : Nat) (cap : TrimCap) (st : Nat) (s : State) : (State.endCapture t c cap st s).control = s.control := by
  unfold State.endCapture
  first | (simp; done) | rfl | (repeat' (first | (simp; done) | split))
@[simp] theorem State.captureOne_ctl (t c : Nat) (x : Int) (cap : TrimCap) (s : State) : (State.captureOne t c x cap s).control = s.control := by
  unfold State.captureOne
  first | (simp; done) | rfl | (repeat' (first | (simp; done) | split))
@[simp] theorem State.captureTrim_ctl (t c : Nat) (x : Int) (s : State) : (State.captureTrim t c x s).control = s.control := by
  unfold State.captureTrim
  first | (simp; done) | rfl | (repeat' (first | (simp; done) | split))
@[simp] theorem State.discardIn_ctl (t i fate : Nat) (s : State) : (State.discardIn t i fate s).control = s.control := by
  unfold State.discardIn
  first | (simp; done) | rfl | (repeat' (first | (simp; done) | split))
@[simp] theorem State.gapNotice_ctl (t c : Nat) (seqSlot : Option (Nat × Nat)) (trig : Tick) (s : State) : (State.gapNotice t c seqSlot trig s).control = s.control := by
  unfold State.gapNotice
  first | (simp; done) | rfl | (repeat' (first | (simp; done) | split))
@[simp] theorem State.classify_ctl (t c : Nat) (x : Int) (s : State) : (State.classify t c x s).control = s.control := by
  unfold State.classify
  first | (simp; done) | rfl | (repeat' (first | (simp; done) | split))
@[simp] theorem State.accResult_ctl (t c : Nat) (raw : Int) (ts : Tick) (flags attempt gain : Nat) (seqSlot : Option (Nat × Nat)) (trig : Tick) (evt tested : Bool) (s : State) : (State.accResult t c raw ts flags attempt gain seqSlot trig evt tested s).1.control = s.control := by
  unfold State.accResult
  first | (simp; done) | rfl | (repeat' (first | (simp; done) | split))
@[simp] theorem State.accInternal_ctl (t i : Nat) (v : Int) (ts : Tick) (flags : Nat) (seqSlot : Option (Nat × Nat)) (evt : Bool) (s : State) : (State.accInternal t i v ts flags seqSlot evt s).1.control = s.control := by
  unfold State.accInternal
  first | (simp; done) | rfl | (repeat' (first | (simp; done) | split))
@[simp] theorem State.dropResult_ctl (t c fate : Nat) (broken ovr : Bool) (seqSlot : Option (Nat × Nat)) (trig : Tick) (s : State) : (State.dropResult t c fate broken ovr seqSlot trig s).control = s.control := by
  unfold State.dropResult
  first | (simp; done) | rfl | (repeat' (first | (simp; done) | split))
@[simp] theorem State.setJob_ctl (t v : Nat) (j : Option Job) (s : State) : (State.setJob t v j s).control = s.control := by
  unfold State.setJob
  first | (simp; done) | rfl | (repeat' (first | (simp; done) | split))
@[simp] theorem State.finishDisarm_ctl (t n : Nat) (s : State) : (State.finishDisarm t n s).control = s.control := by
  unfold State.finishDisarm
  first | (simp; done) | rfl | (repeat' (first | (simp; done) | split))
@[simp] theorem State.restSeq_ctl (t n : Nat) (s : State) : (State.restSeq t n s).control = s.control := by
  unfold State.restSeq
  first | (simp; done) | rfl | (repeat' (first | (simp; done) | split))
@[simp] theorem State.gapSlots_ctl (t n from_ trig : Nat) (s : State) : (State.gapSlots t n from_ trig s).control = s.control := by
  unfold State.gapSlots
  first | (simp; done) | rfl | (repeat' (first | (simp; done) | split))
@[simp] theorem State.cancelSpec_ctl (t n : Nat) (s : State) : (State.cancelSpec t n s).control = s.control := by
  unfold State.cancelSpec
  first | (simp; done) | rfl | (repeat' (first | (simp; done) | split))
@[simp] theorem State.disarmSeq_ctl (t n : Nat) (hs : List Hdr) (s : State) : (State.disarmSeq t n hs s).control = s.control := by
  unfold State.disarmSeq
  (try simp)
  repeat' (first | done | (simp; done) | split | intro _ | (simp; split))
@[simp] theorem State.disarmNow_ctl (t n : Nat) (s : State) : (State.disarmNow t n s).control = s.control := by
  unfold State.disarmNow
  (try simp)
  repeat' (first | done | (simp; done) | split | intro _ | (simp; split))
@[simp] theorem State.armSeq_ctl (t n : Nat) (cfg : Word) (s : State) : (State.armSeq t n cfg s).1.control = s.control := by
  unfold State.armSeq
  first | (simp; done) | rfl | (repeat' (first | (simp; done) | split))
@[simp] theorem State.missScan_ctl (t n : Nat) (s : State) : (State.missScan t n s).control = s.control := by
  unfold State.missScan
  (try simp)
  repeat' (first | done | (simp; done) | split | intro _ | (simp; split))
@[simp] theorem State.missJob_ctl (t : Nat) (j : Job) (s : State) : (State.missJob t j s).control = s.control := by
  unfold State.missJob
  first | (simp; done) | rfl | (repeat' (first | (simp; done) | split))
@[simp] theorem State.startScan_ctl (t n trig : Nat) (keep : Bool) (s : State) : (State.startScan t n trig keep s).control = s.control := by
  unfold State.startScan
  first | (simp; done) | rfl | (repeat' (first | (simp; done) | split))
@[simp] theorem State.overrun_ctl (t n : Nat) (s : State) : (State.overrun t n s).control = s.control := by
  unfold State.overrun
  first | (simp; done) | rfl | (repeat' (first | (simp; done) | split))
@[simp] theorem State.policy_ctl (t n trig : Nat) (s : State) : (State.policy t n trig s).1.control = s.control := by
  unfold State.policy
  (try simp)
  repeat' (first | done | (simp; done) | split | intro _ | (simp; split))
@[simp] theorem State.triggerIdle_ctl (t n trig : Nat) (s : State) : (State.triggerIdle t n trig s).1.control = s.control := by
  unfold State.triggerIdle
  first | (simp; done) | rfl | (repeat' (first | (simp; done) | split))
@[simp] theorem State.accHeld_ctl (t n trig : Nat) (late : Bool) (rs : List Result) (s : State) : (State.accHeld t n trig late rs s).control = s.control := by
  unfold State.accHeld
  first | (simp; done) | rfl | (repeat' (first | (simp; done) | split))
@[simp] theorem State.endScanOne_ctl (t n : Nat) (s : State) : (State.endScanOne t n s).control = s.control := by
  unfold State.endScanOne
  (try simp)
  repeat' (first | done | (simp; done) | split | intro _ | (simp; split))
@[simp] theorem State.trigger_ctl (t n trig : Nat) (s : State) : (State.trigger t n trig s).1.control = s.control := by
  unfold State.trigger
  (try simp)
  repeat' (first | done | (simp; done) | split | intro _ | (simp; split))
@[simp] theorem State.settleScan_ctl (t k n : Nat) (s : State) : (State.settleScan t k n s).control = s.control := by
  induction k generalizing n s with
  | zero => simp [State.settleScan]
  | succ k ih =>
    have hc (n : Nat) (s : State) : (forAll (fun m s =>
        if (((s.tile t).seq m).active && ((s.tile t).seq m).src = 4 && ((s.tile t).seq m).param % 8 = n && m ≠ n) = true then
          State.settleScan t k m (s.trigger t m (s.tnow t)).1
        else s) (List.range 8) s).control = s.control :=
      forAll_ctl _ (fun m s => by split <;> simp [ih]) _ s
    unfold State.settleScan
    dsimp only
    split
    · split
      · rw [hc]
        simp only [State.restSeq_ctl]
        split
        · split <;> simp
        · simp
      · rfl
    · simp
@[simp] theorem State.fire_ctl (t n trig : Nat) (s : State) : (State.fire t n trig s).1.control = s.control := by
  unfold State.fire
  (try simp)
  repeat' (first | done | (simp; done) | split | intro _ | (simp; split))
@[simp] theorem State.fireWhere_ctl (t src : Nat) (f : Nat → Bool) (trig : Nat) (s : State) : (State.fireWhere t src f trig s).control = s.control := by
  unfold State.fireWhere
  first | (simp; done) | rfl | (repeat' (first | (simp; done) | split))
@[simp] theorem State.startJob_ctl (t v : Nat) (src : JobSrc) (input : Nat) (w : Word) (spec : Bool) (s : State) : (State.startJob t v src input w spec s).control = s.control := by
  unfold State.startJob
  first | (simp; done) | rfl | (repeat' (first | (simp; done) | split))
@[simp] theorem State.endInj_ctl (t : Nat) (e : Inj) (r : Reply) (s : State) : (State.endInj t e r s).control = s.control := by
  unfold State.endInj
  first | (simp; done) | rfl | (repeat' (first | (simp; done) | split))
@[simp] theorem State.dropJob_ctl (t : Nat) (j : Job) (fate : Nat) (broken ovr : Bool) (trig : Tick) (s : State) : (State.dropJob t j fate broken ovr trig s).control = s.control := by
  unfold State.dropJob
  first | (simp; done) | rfl | (repeat' (first | (simp; done) | split))
@[simp] theorem State.slotDone_ctl (t : Nat) (j : Job) (acc disc : Nat) (s : State) : (State.slotDone t j acc disc s).control = s.control := by
  unfold State.slotDone
  (try simp)
  repeat' (first | done | (simp; done) | split | intro _ | (simp; split))
@[simp] theorem State.finishJob_ctl (t v : Nat) (j : Job) (raw : Int) (ts : Tick) (sides : List (Nat × Nat × Int)) (s : State) : (State.finishJob t v j raw ts sides s).control = s.control := by
  unfold State.finishJob
  (try simp)
  repeat' (first | done | (simp; done) | split | intro _ | (simp; split))
@[simp] theorem State.freeJob_ctl (t v : Nat) (s : State) : (State.freeJob t v s).control = s.control := by
  unfold State.freeJob
  first | (simp; done) | rfl | (repeat' (first | (simp; done) | split))
@[simp] theorem State.burnout_ctl (t : Nat) (j : Job) (burn : Bool) (x : Sample) (s : State) : (State.burnout t j burn x s).control = s.control := by
  unfold State.burnout
  first | (simp; done) | rfl | (repeat' (first | (simp; done) | split))
@[simp] theorem State.convEnd_ctl (t v : Nat) (x : Sample) (s : State) : (State.convEnd t v x s).control = s.control := by
  unfold State.convEnd
  (try simp)
  repeat' (first | done | (simp; done) | split | intro _ | (simp; split))
@[simp] theorem State.dmdOne_ctl (t : Nat) (j : Job) (c : Nat) (raw : Int) (forced : Option Nat) (broken past : Bool) (trig : Tick) (s : State) : (State.dmdOne t j c raw forced broken past trig s).1.control = s.control := by
  unfold State.dmdOne
  (try simp)
  repeat' (first | done | (simp; done) | split | intro _ | (simp; split))
@[simp] theorem State.dmdEnd_ctl (t : Nat) (d : Demod) (s : State) : (State.dmdEnd t d s).control = s.control := by
  unfold State.dmdEnd
  (try simp)
  repeat' (first | done | (simp; done) | split | intro _ | (simp; split))
@[simp] theorem State.abortInj_ctl (t st : Nat) (s : State) : (State.abortInj t st s).control = s.control := by
  unfold State.abortInj
  first | (simp; done) | rfl | (repeat' (first | (simp; done) | split))
@[simp] theorem State.calBackground_ctl (t : Nat) (hs : List Hdr) (s : State) : (State.calBackground t hs s).control = s.control := by
  unfold State.calBackground
  first | (simp; done) | rfl | (repeat' (first | (simp; done) | split))
@[simp] theorem State.calApply_ctl (t v : Nat) (coef : List (Int × Int)) (bad : Bool) (s : State) : (State.calApply t v coef bad s).control = s.control := by
  unfold State.calApply
  first | (simp; done) | rfl | (repeat' (first | (simp; done) | split))
@[simp] theorem State.calFinish_ctl (t : Nat) (s : State) : (State.calFinish t s).control = s.control := by
  unfold State.calFinish
  first | (simp; done) | rfl | (repeat' (first | (simp; done) | split))
@[simp] theorem State.calStepOn_ctl (t v : Nat) (coef : List (Int × Int)) (bad : Bool) (s : State) : (State.calStepOn t v coef bad s).control = s.control := by
  unfold State.calStepOn
  first | (simp; done) | rfl | (repeat' (first | (simp; done) | split))
@[simp] theorem State.refRise_ctl (t : Nat) (s : State) : (State.refRise t s).control = s.control := by
  unfold State.refRise
  first | (simp; done) | rfl | (repeat' (first | (simp; done) | split))
@[simp] theorem State.refCompareAt_ctl (t : Nat) (dev : Int) (s : State) : (State.refCompareAt t dev s).control = s.control := by
  unfold State.refCompareAt
  first | (simp; done) | rfl | (repeat' (first | (simp; done) | split))
@[simp] theorem State.modDi_ctl (t c : Nat) (f : DiState → DiState) (s : State) : (State.modDi t c f s).control = s.control := by
  unfold State.modDi
  first | (simp; done) | rfl | (repeat' (first | (simp; done) | split))
@[simp] theorem State.modDic_ctl (t c : Nat) (f : DicState → DicState) (s : State) : (State.modDic t c f s).control = s.control := by
  unfold State.modDic
  first | (simp; done) | rfl | (repeat' (first | (simp; done) | split))
@[simp] theorem State.button_ctl (t c : Nat) (lvl : Bool) (s : State) : (State.button t c lvl s).control = s.control := by
  unfold State.button
  first | (simp; done) | rfl | (repeat' (first | (simp; done) | split))
@[simp] theorem State.accLevel_ctl (t c : Nat) (lvl ev cnt : Bool) (s : State) : (State.accLevel t c lvl ev cnt s).control = s.control := by
  unfold State.accLevel
  first | (simp; done) | rfl | (repeat' (first | (simp; done) | split))
@[simp] theorem State.setValid_ctl (t c : Nat) (want lvl : Bool) (s : State) : (State.setValid t c want lvl s).control = s.control := by
  unfold State.setValid
  first | (simp; done) | rfl | (repeat' (first | (simp; done) | split))
@[simp] theorem State.chatLevel_ctl (t c : Nat) (lvl : Bool) (s : State) : (State.chatLevel t c lvl s).control = s.control := by
  unfold State.chatLevel
  first | (simp; done) | rfl | (repeat' (first | (simp; done) | split))
@[simp] theorem State.judgeValid_ctl (t c : Nat) (s : State) : (State.judgeValid t c s).control = s.control := by
  unfold State.judgeValid
  first | (simp; done) | rfl | (repeat' (first | (simp; done) | split))
@[simp] theorem State.firstLevel_ctl (t c : Nat) (s : State) : (State.firstLevel t c s).control = s.control := by
  unfold State.firstLevel
  first | (simp; done) | rfl | (repeat' (first | (simp; done) | split))
@[simp] theorem State.leaveChatter_ctl (t c : Nat) (s : State) : (State.leaveChatter t c s).control = s.control := by
  unfold State.leaveChatter
  first | (simp; done) | rfl | (repeat' (first | (simp; done) | split))
@[simp] theorem State.sieveAcc_ctl (t c : Nat) (s : State) : (State.sieveAcc t c s).control = s.control := by
  unfold State.sieveAcc
  first | (simp; done) | rfl | (repeat' (first | (simp; done) | split))
@[simp] theorem State.crossing_ctl (t c : Nat) (lvl : Bool) (s : State) : (State.crossing t c lvl s).control = s.control := by
  unfold State.crossing
  first | (simp; done) | rfl | (repeat' (first | (simp; done) | split))
@[simp] theorem State.gateEnd_ctl (t c : Nat) (s : State) : (State.gateEnd t c s).control = s.control := by
  unfold State.gateEnd
  first | (simp; done) | rfl | (repeat' (first | (simp; done) | split))
@[simp] theorem State.chatWindow_ctl (t c : Nat) (s : State) : (State.chatWindow t c s).control = s.control := by
  unfold State.chatWindow
  first | (simp; done) | rfl | (repeat' (first | (simp; done) | split))
@[simp] theorem State.stuckCheck_ctl (t c : Nat) (s : State) : (State.stuckCheck t c s).control = s.control := by
  unfold State.stuckCheck
  first | (simp; done) | rfl | (repeat' (first | (simp; done) | split))
@[simp] theorem State.buttonAct_ctl (t lo op : Nat) (s : State) : (State.buttonAct t lo op s).control = s.control := by
  unfold State.buttonAct
  first | (simp; done) | rfl | (repeat' (first | (simp; done) | split))
@[simp] theorem State.buttonHold_ctl (t lo : Nat) (s : State) : (State.buttonHold t lo s).control = s.control := by
  unfold State.buttonHold
  (try simp)
  repeat' (first | done | (simp; done) | split | intro _ | (simp; split))
@[simp] theorem State.buttonStuck_ctl (t c : Nat) (s : State) : (State.buttonStuck t c s).control = s.control := by
  unfold State.buttonStuck
  (try simp)
  repeat' (first | done | (simp; done) | split | intro _ | (simp; split))
@[simp] theorem State.abortAction_ctl (t c : Nat) (a : Action) (s : State) : (State.abortAction t c a s).control = s.control := by
  unfold State.abortAction
  first | (simp; done) | rfl | (repeat' (first | (simp; done) | split))
@[simp] theorem State.abortStaged_ctl (t c : Nat) (s : State) : (State.abortStaged t c s).control = s.control := by
  unfold State.abortStaged
  first | (simp; done) | rfl | (repeat' (first | (simp; done) | split))
@[simp] theorem State.dropInj_ctl (t c : Nat) (left : Bool) (s : State) : (State.dropInj t c left s).control = s.control := by
  unfold State.dropInj
  first | (simp; done) | rfl | (repeat' (first | (simp; done) | split))
@[simp] theorem State.endDiags_ctl (t c : Nat) (s : State) : (State.endDiags t c s).control = s.control := by
  unfold State.endDiags
  first | (simp; done) | rfl | (repeat' (first | (simp; done) | split))
@[simp] theorem State.railIdle_ctl (t : Nat) (s : State) : (State.railIdle t s).control = s.control := by
  unfold State.railIdle
  first | (simp; done) | rfl | (repeat' (first | (simp; done) | split))
@[simp] theorem State.enterMode_ctl (t c : Nat) (n : Chan) (s : State) : (State.enterMode t c n s).control = s.control := by
  unfold State.enterMode
  (try simp)
  repeat' (first | done | (simp; done) | split | intro _ | (simp; split))
@[simp] theorem State.inputCfg_ctl (t c : Nat) (old : Chan) (s : State) : (State.inputCfg t c old s).control = s.control := by
  unfold State.inputCfg
  first | (simp; done) | rfl | (repeat' (first | (simp; done) | split))
@[simp] theorem State.chWrite_ctl (t c : Nat) (n : Chan) (modeReg cfgReg : Bool) (s : State) : (State.chWrite t c n modeReg cfgReg s).1.control = s.control := by
  unfold State.chWrite
  first | (simp; done) | rfl | (repeat' (first | (simp; done) | split))
@[simp] theorem State.modeWrite_ctl (t c : Nat) (w : Word) (s : State) : (State.modeWrite t c w s).1.control = s.control := by
  unfold State.modeWrite
  first | (simp; done) | rfl | (repeat' (first | (simp; done) | split))
@[simp] theorem State.cfgWrite_ctl (t c : Nat) (w : Word) (s : State) : (State.cfgWrite t c w s).1.control = s.control := by
  unfold State.cfgWrite
  first | (simp; done) | rfl | (repeat' (first | (simp; done) | split))
@[simp] theorem State.diagWrite_ctl (t c : Nat) (w : Word) (s : State) : (State.diagWrite t c w s).1.control = s.control := by
  unfold State.diagWrite
  first | (simp; done) | rfl | (repeat' (first | (simp; done) | split))
@[simp] theorem State.statWrite_ctl (t c : Nat) (w : Word) (s : State) : (State.statWrite t c w s).control = s.control := by
  unfold State.statWrite
  first | (simp; done) | rfl | (repeat' (first | (simp; done) | split))
@[simp] theorem State.commitDueOne_ctl (t c : Nat) (d : Due) (s : State) : (State.commitDueOne t c d s).control = s.control := by
  unfold State.commitDueOne
  first | (simp; done) | rfl | (repeat' (first | (simp; done) | split))
@[simp] theorem State.commitAction_ctl (t c : Nat) (a : Action) (s : State) : (State.commitAction t c a s).control = s.control := by
  unfold State.commitAction
  first | (simp; done) | rfl | (repeat' (first | (simp; done) | split))
@[simp] theorem State.refuseAction_ctl (t c reason : Nat) (a : Action) (s : State) : (State.refuseAction t c reason a s).control = s.control := by
  unfold State.refuseAction
  first | (simp; done) | rfl | (repeat' (first | (simp; done) | split))
@[simp] theorem State.arriveAction_ctl (a : Action) (s : State) : (State.arriveAction a s).control = s.control := by
  unfold State.arriveAction
  (try simp)
  repeat' (first | done | (simp; done) | split | intro _ | (simp; split))
@[simp] theorem State.commitDue_ctl (t c : Nat) (f : Due → Bool) (s : State) : (State.commitDue t c f s).control = s.control := by
  unfold State.commitDue
  first | (simp; done) | rfl | (repeat' (first | (simp; done) | split))
@[simp] theorem State.protect_ctl (t l : Nat) (f : OutState → OutState) (s : State) : (State.protect t l f s).control = s.control := by
  unfold State.protect
  first | (simp; done) | rfl | (repeat' (first | (simp; done) | split))
@[simp] theorem State.shortGnd_ctl (t c : Nat) (s : State) : (State.shortGnd t c s).control = s.control := by
  unfold State.shortGnd
  first | (simp; done) | rfl | (repeat' (first | (simp; done) | split))
@[simp] theorem State.mirAnew_ctl (t c : Nat) (s : State) : (State.mirAnew t c s).control = s.control := by
  unfold State.mirAnew
  first | (simp; done) | rfl | (repeat' (first | (simp; done) | split))
@[simp] theorem State.endProt_ctl (t l : Nat) (retry : Bool) (s : State) : (State.endProt t l retry s).control = s.control := by
  unfold State.endProt
  first | (simp; done) | rfl | (repeat' (first | (simp; done) | split))
@[simp] theorem State.overloadRetry_ctl (t c : Nat) (s : State) : (State.overloadRetry t c s).control = s.control := by
  unfold State.overloadRetry
  (try simp)
  repeat' (first | done | (simp; done) | split | intro _ | (simp; split))
@[simp] theorem State.thermal_ctl (t c : Nat) (s : State) : (State.thermal t c s).control = s.control := by
  unfold State.thermal
  (try simp)
  repeat' (first | done | (simp; done) | split | intro _ | (simp; split))
@[simp] theorem State.thermalEnd_ctl (t c : Nat) (s : State) : (State.thermalEnd t c s).control = s.control := by
  unfold State.thermalEnd
  (try simp)
  repeat' (first | done | (simp; done) | split | intro _ | (simp; split))
@[simp] theorem State.overDecl_ctl (t c : Nat) (s : State) : (State.overDecl t c s).control = s.control := by
  unfold State.overDecl
  first | (simp; done) | rfl | (repeat' (first | (simp; done) | split))
@[simp] theorem State.shortOver_ctl (t : Nat) (s : State) : (State.shortOver t s).control = s.control := by
  unfold State.shortOver
  refine forAll_ctl _ (fun c s => ?_) _ _
  dsimp only
  split
  · split
    · simp
    · split <;> simp
  · rfl
@[simp] theorem State.openOn_ctl (t c : Nat) (low : Bool) (s : State) : (State.openOn t c low s).control = s.control := by
  unfold State.openOn
  first | (simp; done) | rfl | (repeat' (first | (simp; done) | split))
@[simp] theorem State.resolve_ctl (t c : Nat) (s : State) : (State.resolve t c s).control = s.control := by
  unfold State.resolve
  first | (simp; done) | rfl | (repeat' (first | (simp; done) | split))
@[simp] theorem State.suspectPin_ctl (t c how : Nat) (mv : Int) (s : State) : (State.suspectPin t c how mv s).control = s.control := by
  unfold State.suspectPin
  first | (simp; done) | rfl | (repeat' (first | (simp; done) | split))
@[simp] theorem State.tie_ctl (t a b : Nat) (s : State) : (State.tie t a b s).control = s.control := by
  unfold State.tie
  first | (simp; done) | rfl | (repeat' (first | (simp; done) | split))
@[simp] theorem State.untie_ctl (t a : Nat) (s : State) : (State.untie t a s).control = s.control := by
  unfold State.untie
  first | (simp; done) | rfl | (repeat' (first | (simp; done) | split))
@[simp] theorem State.offCheck_ctl (t c : Nat) (mv : Int) (s : State) : (State.offCheck t c mv s).control = s.control := by
  unfold State.offCheck
  first | (simp; done) | rfl | (repeat' (first | (simp; done) | split))
@[simp] theorem State.ownPin_ctl (t l k : Nat) (mv : Int) (s : State) : (State.ownPin t l k mv s).control = s.control := by
  unfold State.ownPin
  (try simp)
  repeat' (first | done | (simp; done) | split | intro _ | (simp; split))
@[simp] theorem State.otherPin_ctl (t l k : Nat) (mv : Int) (s : State) : (State.otherPin t l k mv s).control = s.control := by
  unfold State.otherPin
  first | (simp; done) | rfl | (repeat' (first | (simp; done) | split))
@[simp] theorem State.darkPulse_ctl (t c ua : Nat) (pins : List (Nat × Int)) (s : State) : (State.darkPulse t c ua pins s).control = s.control := by
  unfold State.darkPulse
  first | (simp; done) | rfl | (repeat' (first | (simp; done) | split))
@[simp] theorem State.pinClamp_ctl (t c : Nat) (acting : Bool) (s : State) : (State.pinClamp t c acting s).control = s.control := by
  unfold State.pinClamp
  first | (simp; done) | rfl | (repeat' (first | (simp; done) | split))
@[simp] theorem State.surge_ctl (t c : Nat) (mv : Int) (ma : Nat) (s : State) : (State.surge t c mv ma s).control = s.control := by
  unfold State.surge
  first | (simp; done) | rfl | (repeat' (first | (simp; done) | split))
@[simp] theorem State.surgeOver_ctl (t c : Nat) (s : State) : (State.surgeOver t c s).control = s.control := by
  unfold State.surgeOver
  first | (simp; done) | rfl | (repeat' (first | (simp; done) | split))
@[simp] theorem State.dropStaged_ctl (t c : Nat) (s : State) : (State.dropStaged t c s).control = s.control := by
  unfold State.dropStaged
  first | (simp; done) | rfl | (repeat' (first | (simp; done) | split))
@[simp] theorem State.loseField_ctl (t : Nat) (s : State) : (State.loseField t s).control = s.control := by
  unfold State.loseField
  first | (simp; done) | rfl | (repeat' (first | (simp; done) | split))
@[simp] theorem State.energise_ctl (t c : Nat) (s : State) : (State.energise t c s).control = s.control := by
  unfold State.energise
  first | (simp; done) | rfl | (repeat' (first | (simp; done) | split))
@[simp] theorem State.regainField_ctl (t : Nat) (s : State) : (State.regainField t s).control = s.control := by
  unfold State.regainField
  first | (simp; done) | rfl | (repeat' (first | (simp; done) | split))
@[simp] theorem State.reenSlot_ctl (t : Nat) (s : State) : (State.reenSlot t s).control = s.control := by
  unfold State.reenSlot
  first | (simp; done) | rfl | (repeat' (first | (simp; done) | split))
@[simp] theorem State.lplus_ctl (t : Nat) (cv : Int) (s : State) : (State.lplus t cv s).control = s.control := by
  unfold State.lplus
  first | (simp; done) | rfl | (repeat' (first | (simp; done) | split))
@[simp] theorem State.aoDiag_ctl (t c b n : Nat) (on : Bool) (s : State) : (State.aoDiag t c b n on s).control = s.control := by
  unfold State.aoDiag
  first | (simp; done) | rfl | (repeat' (first | (simp; done) | split))
@[simp] theorem State.aoLatch_ctl (t c : Nat) (s : State) : (State.aoLatch t c s).control = s.control := by
  unfold State.aoLatch
  first | (simp; done) | rfl | (repeat' (first | (simp; done) | split))
@[simp] theorem State.aoReadback_ctl (t c : Nat) (r : Readback) (s : State) : (State.aoReadback t c r s).control = s.control := by
  unfold State.aoReadback
  first | (simp; done) | rfl | (repeat' (first | (simp; done) | split))
@[simp] theorem State.crail_ctl (t dv : Nat) (s : State) : (State.crail t dv s).control = s.control := by
  unfold State.crail
  first | (simp; done) | rfl | (repeat' (first | (simp; done) | split))
@[simp] theorem State.foldback_ctl (t c : Nat) (s : State) : (State.foldback t c s).control = s.control := by
  unfold State.foldback
  first | (simp; done) | rfl | (repeat' (first | (simp; done) | split))
@[simp] theorem State.foldRetry_ctl (t c ua : Nat) (s : State) : (State.foldRetry t c ua s).control = s.control := by
  unfold State.foldRetry
  first | (simp; done) | rfl | (repeat' (first | (simp; done) | split))
@[simp] theorem State.excCycle_ctl (t c : Nat) (lim : Limiting) (na : Nat) (s : State) : (State.excCycle t c lim na s).control = s.control := by
  unfold State.excCycle
  first | (simp; done) | rfl | (repeat' (first | (simp; done) | split))
@[simp] theorem State.mirStart_ctl (t c : Nat) (s : State) : (State.mirStart t c s).control = s.control := by
  unfold State.mirStart
  (try simp)
  repeat' (first | done | (simp; done) | split | intro _ | (simp; split))
@[simp] theorem State.tileTemp_ctl (t : Nat) (a b d : Int) (s : State) : (State.tileTemp t a b d s).control = s.control := by
  unfold State.tileTemp
  first | (simp; done) | rfl | (repeat' (first | (simp; done) | split))
@[simp] theorem State.modTxn_ctl (p : PortId) (tag : Nat) (f : Txn → Txn) (s : State) : (State.modTxn p tag f s).control = s.control := by
  unfold State.modTxn
  first | (simp; done) | rfl | (repeat' (first | (simp; done) | split))
@[simp] theorem State.submitTxn_ctl (h : Hdr) (c : Tick) (ms : List Member) (s : State) : (State.submitTxn h c ms s).1.control = s.control := by
  unfold State.submitTxn
  (try simp)
  repeat' (first | done | (simp; done) | split | intro _ | (simp; split))
@[simp] theorem State.txnArrive_ctl (p : PortId) (tag t : Nat) (s : State) : (State.txnArrive p tag t s).control = s.control := by
  unfold State.txnArrive
  first | (simp; done) | rfl | (repeat' (first | (simp; done) | split))
@[simp] theorem State.txnGot_ctl (p : PortId) (tag t : Nat) (s : State) : (State.txnGot p tag t s).control = s.control := by
  unfold State.txnGot
  (try simp)
  repeat' (first | done | (simp; done) | split | intro _ | (simp; split))
@[simp] theorem State.holdPulses_ctl (c : Tick) (mem : List Member) (s : State) : (State.holdPulses c mem s).control = s.control := by
  unfold State.holdPulses
  first | (simp; done) | rfl | (repeat' (first | (simp; done) | split))
@[simp] theorem State.txnDecide_ctl (p : PortId) (tag : Nat) (s : State) : (State.txnDecide p tag s).control = s.control := by
  unfold State.txnDecide
  first | (simp; done) | rfl | (repeat' (first | (simp; done) | split))
@[simp] theorem State.txnTold_ctl (p : PortId) (tag t : Nat) (s : State) : (State.txnTold p tag t s).control = s.control := by
  unfold State.txnTold
  first | (simp; done) | rfl | (repeat' (first | (simp; done) | split))
@[simp] theorem State.txnMember_ctl (x : Txn) (m : Member) (s : State) : (State.txnMember x m s).control = s.control := by
  unfold State.txnMember
  first | (simp; done) | rfl | (repeat' (first | (simp; done) | split))
@[simp] theorem State.txnOrphan_ctl (x : Txn) (t : Nat) (s : State) : (State.txnOrphan x t s).control = s.control := by
  unfold State.txnOrphan
  first | (simp; done) | rfl | (repeat' (first | (simp; done) | split))
@[simp] theorem State.txnCommit_ctl (p : PortId) (tag t : Nat) (s : State) : (State.txnCommit p tag t s).control = s.control := by
  unfold State.txnCommit
  first | (simp; done) | rfl | (repeat' (first | (simp; done) | split))
@[simp] theorem State.txnReport_ctl (p : PortId) (tag t : Nat) (s : State) : (State.txnReport p tag t s).control = s.control := by
  unfold State.txnReport
  (try simp)
  repeat' (first | done | (simp; done) | split | intro _ | (simp; split))
@[simp] theorem State.cancelTxn_ctl (p : PortId) (tag : Nat) (s : State) : (State.cancelTxn p tag s).1.control = s.control := by
  unfold State.cancelTxn
  first | (simp; done) | rfl | (repeat' (first | (simp; done) | split))
@[simp] theorem State.txnOffline_ctl (t : Nat) (s : State) : (State.txnOffline t s).control = s.control := by
  unfold State.txnOffline
  first | (simp; done) | rfl | (repeat' (first | (simp; done) | split))
@[simp] theorem State.txnLost_ctl (t : Nat) (s : State) : (State.txnLost t s).control = s.control := by
  unfold State.txnLost
  first | (simp; done) | rfl | (repeat' (first | (simp; done) | split))
@[simp] theorem State.cancelActions_ctl (p : PortId) (g : Nat) (s : State) : (State.cancelActions p g s).1.control = s.control := by
  unfold State.cancelActions
  first | (simp; done) | rfl | (repeat' (first | (simp; done) | split))
@[simp] theorem State.linkDisarm_ctl (t n : Nat) (s : State) : (State.linkDisarm t n s).control = s.control := by
  unfold State.linkDisarm
  first | (simp; done) | rfl | (repeat' (first | (simp; done) | split))
@[simp] theorem State.linkStreams_ctl (t : Nat) (cs : List Nat) (n : Nat) (b : Bool) (s : State) :
    (State.linkStreams t cs n b s).control = s.control := by
  induction cs generalizing n b s with
  | nil => simp [State.linkStreams]
  | cons c cs ih => simp [State.linkStreams, ih]
@[simp] theorem State.linkReadmit_ctl (t : Nat) (s : State) : (State.linkReadmit t s).control = s.control := by
  unfold State.linkReadmit
  (try simp)
  repeat' (first | done | (simp; done) | split | intro _ | (simp; split))
@[simp] theorem State.loseSight_ctl (t : Nat) (s : State) : (State.loseSight t s).control = s.control := by
  unfold State.loseSight
  first | (simp; done) | rfl | (repeat' (first | (simp; done) | split))
@[simp] theorem State.findSight_ctl (t : Nat) (f : Link → Link) (s : State) : (State.findSight t f s).control = s.control := by
  unfold State.findSight
  first | (simp; done) | rfl | (repeat' (first | (simp; done) | split))
@[simp] theorem State.laneFail_ctl (t m : Nat) (s : State) : (State.laneFail t m s).control = s.control := by
  unfold State.laneFail
  first | (simp; done) | rfl | (repeat' (first | (simp; done) | split))
@[simp] theorem State.badFrame_ctl (t lane : Nat) (s : State) : (State.badFrame t lane s).control = s.control := by
  unfold State.badFrame
  first | (simp; done) | rfl | (repeat' (first | (simp; done) | split))
@[simp] theorem State.linkReturn_ctl (t lanes : Nat) (s : State) : (State.linkReturn t lanes s).control = s.control := by
  unfold State.linkReturn
  first | (simp; done) | rfl | (repeat' (first | (simp; done) | split))
@[simp] theorem State.abandonSeqs_ctl (t : Nat) (s : State) : (State.abandonSeqs t s).control = s.control := by
  unfold State.abandonSeqs
  dsimp only
  refine (forAll_ctl _ (fun n s => ?_) _ _).trans ?_
  · split <;> simp
  · simp
@[simp] theorem State.staleLines_ctl (t : Nat) (on : Bool) (s : State) : (State.staleLines t on s).control = s.control := by
  unfold State.staleLines
  first | (simp; done) | rfl | (repeat' (first | (simp; done) | split))
@[simp] theorem State.tileDown_ctl (t : Nat) (s : State) : (State.tileDown t s).control = s.control := by
  have h (s : State) : (forAll (fun c s => s.abortStaged t c) chanNos s).control = s.control := by simp
  unfold State.tileDown
  refine (State.refresh_ctl _ _).trans <| (State.staleLines_ctl _ _ _).trans <| (State.stopWhere_ctl _ _ _ _).trans <|
    (State.stopWhere_ctl _ _ _ _).trans <| (State.abortInj_ctl _ _ _).trans <| (State.abandonSeqs_ctl _ _).trans <|
    (State.txnOffline_ctl _ _).trans <| h s
@[simp] theorem State.startReadmit_ctl (t : Nat) (h : Option Hdr) (s : State) : (State.startReadmit t h s).control = s.control := by
  unfold State.startReadmit
  first | (simp; done) | rfl | (repeat' (first | (simp; done) | split))
@[simp] theorem State.enterBlock_ctl (t : Nat) (off : Bool) (c : Cause) (s : State) : (State.enterBlock t off c s).control = s.control := by
  unfold State.enterBlock
  first | (simp; done) | rfl | (repeat' (first | (simp; done) | split))
@[simp] theorem State.takeDown_ctl (t : Nat) (off : Bool) (c : Cause) (s : State) : (State.takeDown t off c s).control = s.control := by
  unfold State.takeDown
  first | (simp; done) | rfl | (repeat' (first | (simp; done) | split))
@[simp] theorem State.goOffline_ctl (t : Nat) (h : Hdr) (s : State) : (State.goOffline t h s).control = s.control := by
  unfold State.goOffline
  first | (simp; done) | rfl | (repeat' (first | (simp; done) | split))
@[simp] theorem State.nowOffline_ctl (t : Nat) (s : State) : (State.nowOffline t s).control = s.control := by
  unfold State.nowOffline
  first | (simp; done) | rfl | (repeat' (first | (simp; done) | split))
@[simp] theorem State.leaveBlock_ctl (t : Nat) (s : State) : (State.leaveBlock t s).control = s.control := by
  unfold State.leaveBlock
  first | (simp; done) | rfl | (repeat' (first | (simp; done) | split))
@[simp] theorem State.endReadmit_ctl (t : Nat) (ok : Bool) (lanes : Nat) (s : State) : (State.endReadmit t ok lanes s).control = s.control := by
  unfold State.endReadmit
  first | (simp; done) | rfl | (repeat' (first | (simp; done) | split))
@[simp] theorem State.barrierLoss_ctl (t : Nat) (s : State) : (State.barrierLoss t s).control = s.control := by
  unfold State.barrierLoss
  first | (simp; done) | rfl | (repeat' (first | (simp; done) | split))
@[simp] theorem State.barrierResume_ctl (t : Nat) (s : State) : (State.barrierResume t s).control = s.control := by
  unfold State.barrierResume
  first | (simp; done) | rfl | (repeat' (first | (simp; done) | split))
@[simp] theorem State.loadEng_ctl (n t : Nat) (b : Option Nat) (s : State) : (State.loadEng n t b s).control = s.control := by
  unfold State.loadEng
  first | (simp; done) | rfl | (repeat' (first | (simp; done) | split))
@[simp] theorem State.loaded_ctl (n : Nat) (st : EngSt) (t : Nat) (s : State) : (State.loaded n st t s).control = s.control := by
  unfold State.loaded
  first | (simp; done) | rfl | (repeat' (first | (simp; done) | split))
@[simp] theorem State.startRot_ctl (t b : Nat) (h : Option Hdr) (s : State) : (State.startRot t b h s).control = s.control := by
  unfold State.startRot
  first | (simp; done) | rfl | (repeat' (first | (simp; done) | split))
@[simp] theorem State.endRot_ctl (outcome st : Nat) (keep : Bool) (s : State) : (State.endRot outcome st keep s).control = s.control := by
  unfold State.endRot
  first | (simp; done) | rfl | (repeat' (first | (simp; done) | split))
@[simp] theorem State.rotLoaded_ctl (ok : Bool) (s : State) : (State.rotLoaded ok s).control = s.control := by
  unfold State.rotLoaded
  first | (simp; done) | rfl | (repeat' (first | (simp; done) | split))
@[simp] theorem State.rotCopied_ctl (ok : Bool) (s : State) : (State.rotCopied ok s).control = s.control := by
  unfold State.rotCopied
  first | (simp; done) | rfl | (repeat' (first | (simp; done) | split))
@[simp] theorem State.rotGap_ctl (s : State) : (State.rotGap s).control = s.control := by
  unfold State.rotGap
  first | (simp; done) | rfl | (repeat' (first | (simp; done) | split))
@[simp] theorem State.rotDone_ctl (s : State) : (State.rotDone s).control = s.control := by
  unfold State.rotDone
  first | (simp; done) | rfl | (repeat' (first | (simp; done) | split))
@[simp] theorem State.failCommands_ctl (t : Nat) (s : State) : (State.failCommands t s).control = s.control := by
  unfold State.failCommands
  first | (simp; done) | rfl | (repeat' (first | (simp; done) | split))
@[simp] theorem State.dropWaiting_ctl (t : Nat) (s : State) : (State.dropWaiting t s).control = s.control := by
  unfold State.dropWaiting
  first | (simp; done) | rfl | (repeat' (first | (simp; done) | split))
@[simp] theorem State.takeRepair_ctl (t n k : Nat) (e : Tick) (img : Option Nat) (holds : Bool) (s : State) : (State.takeRepair t n k e img holds s).control = s.control := by
  unfold State.takeRepair
  first | (simp; done) | rfl | (repeat' (first | (simp; done) | split))
@[simp] theorem State.startRepair_ctl (t n : Nat) (img : Option Nat) (s : State) : (State.startRepair t n img s).control = s.control := by
  unfold State.startRepair
  (try simp)
  repeat' (first | done | (simp; done) | split | intro _ | (simp; split))
@[simp] theorem State.endGap_ctl (outcome st : Nat) (s : State) : (State.endGap outcome st s).control = s.control := by
  unfold State.endGap
  first | (simp; done) | rfl | (repeat' (first | (simp; done) | split))
@[simp] theorem State.rotTimeout_ctl (s : State) : (State.rotTimeout s).control = s.control := by
  unfold State.rotTimeout
  first | (simp; done) | rfl | (repeat' (first | (simp; done) | split))
@[simp] theorem State.retire_ctl (n : Nat) (s : State) : (State.retire n s).control = s.control := by
  unfold State.retire
  first | (simp; done) | rfl | (repeat' (first | (simp; done) | split))
@[simp] theorem State.assignRepairs_ctl (s : State) : (State.assignRepairs s).control = s.control := by
  unfold State.assignRepairs
  (try simp)
  repeat' (first | done | (simp; done) | split | intro _ | (simp; split))
@[simp] theorem State.repaired_ctl (t : Nat) (s : State) : (State.repaired t s).control = s.control := by
  unfold State.repaired
  first | (simp; done) | rfl | (repeat' (first | (simp; done) | split))
@[simp] theorem State.depotLoaded_ctl (n : Nat) (ok : Bool) (s : State) : (State.depotLoaded n ok s).control = s.control := by
  unfold State.depotLoaded
  first | (simp; done) | rfl | (repeat' (first | (simp; done) | split))
@[simp] theorem State.abortRot_ctl (t : Nat) (s : State) : (State.abortRot t s).control = s.control := by
  unfold State.abortRot
  first | (simp; done) | rfl | (repeat' (first | (simp; done) | split))
@[simp] theorem State.endWatchdog_ctl (t : Nat) (s : State) : (State.endWatchdog t s).control = s.control := by
  unfold State.endWatchdog
  first | (simp; done) | rfl | (repeat' (first | (simp; done) | split))
@[simp] theorem State.serveWatchdog_ctl (t : Nat) (s : State) : (State.serveWatchdog t s).control = s.control := by
  unfold State.serveWatchdog
  first | (simp; done) | rfl | (repeat' (first | (simp; done) | split))
@[simp] theorem State.expireWatchdog_ctl (t : Nat) (s : State) : (State.expireWatchdog t s).control = s.control := by
  unfold State.expireWatchdog
  first | (simp; done) | rfl | (repeat' (first | (simp; done) | split))
@[simp] theorem State.modSram_ctl (b : Nat) (f : Sram → Sram) (s : State) : (State.modSram b f s).control = s.control := by
  unfold State.modSram
  first | (simp; done) | rfl | (repeat' (first | (simp; done) | split))
@[simp] theorem State.railAdjust_ctl (k margin : Nat) (s : State) : (State.railAdjust k margin s).control = s.control := by
  unfold State.railAdjust
  first | (simp; done) | rfl | (repeat' (first | (simp; done) | split))
@[simp] theorem State.railRecover_ctl (k : Nat) (s : State) : (State.railRecover k s).control = s.control := by
  unfold State.railRecover
  first | (simp; done) | rfl | (repeat' (first | (simp; done) | split))
@[simp] theorem State.retention_ctl (k : Nat) (s : State) : (State.retention k s).control = s.control := by
  unfold State.retention
  first | (simp; done) | rfl | (repeat' (first | (simp; done) | split))
@[simp] theorem State.renewPower_ctl (draws : List Nat) (s : State) : (State.renewPower draws s).control = s.control := by
  unfold State.renewPower
  first | (simp; done) | rfl | (repeat' (first | (simp; done) | split))
@[simp] theorem State.repairRow_ctl (b row : Nat) (s : State) : (State.repairRow b row s).control = s.control := by
  unfold State.repairRow
  first | (simp; done) | rfl | (repeat' (first | (simp; done) | split))
@[simp] theorem State.scrub_ctl (b row : Nat) (single : Bool) (s : State) : (State.scrub b row single s).control = s.control := by
  unfold State.scrub
  first | (simp; done) | rfl | (repeat' (first | (simp; done) | split))
@[simp] theorem State.loseMerge_ctl (item : Nat) (s : State) : (State.loseMerge item s).control = s.control := by
  unfold State.loseMerge
  first | (simp; done) | rfl | (repeat' (first | (simp; done) | split))
@[simp] theorem State.loseCtx_ctl (p c : Nat) (s : State) : (State.loseCtx p c s).control = s.control := by
  unfold State.loseCtx
  first | (simp; done) | rfl | (repeat' (first | (simp; done) | split))
@[simp] theorem State.doubleBit_ctl (b row item : Nat) (s : State) : (State.doubleBit b row item s).control = s.control := by
  unfold State.doubleBit
  first | (simp; done) | rfl | (repeat' (first | (simp; done) | split))
@[simp] theorem State.ringError_ctl (p : PortId) (r kind : Nat) (s : State) : (State.ringError p r kind s).control = s.control := by
  unfold State.ringError
  first | (simp; done) | rfl | (repeat' (first | (simp; done) | split))
@[simp] theorem State.rejoin_ctl (p : PortId) (r : Nat) (s : State) : (State.rejoin p r s).control = s.control := by
  unfold State.rejoin
  first | (simp; done) | rfl | (repeat' (first | (simp; done) | split))
@[simp] theorem State.ringEnable_ctl (p : PortId) (r : Nat) (w : Word) (s : State) : (State.ringEnable p r w s).control = s.control := by
  unfold State.ringEnable
  first | (simp; done) | rfl | (repeat' (first | (simp; done) | split))
@[simp] theorem State.ringDisable_ctl (p : PortId) (r : Nat) (w : Word) (s : State) : (State.ringDisable p r w s).control = s.control := by
  unfold State.ringDisable
  first | (simp; done) | rfl | (repeat' (first | (simp; done) | split))
@[simp] theorem State.pumpAll_ctl (s : State) : (State.pumpAll s).control = s.control := by
  unfold State.pumpAll
  first | (simp; done) | rfl | (repeat' (first | (simp; done) | split))
@[simp] theorem State.setLive_ctl (p : PortId) (s : State) : (State.setLive p s).control = s.control := by
  unfold State.setLive
  first | (simp; done) | rfl | (repeat' (first | (simp; done) | split))
@[simp] theorem State.portCtrl_ctl (p : PortId) (w : Word) (s : State) : (State.portCtrl p w s).control = s.control := by
  unfold State.portCtrl
  first | (simp; done) | rfl | (repeat' (first | (simp; done) | split))
@[simp] theorem State.portLive_ctl (p : PortId) (linkUp busMaster : Bool) (speed width : Nat) (l1 : Bool) (s : State) : (State.portLive p linkUp busMaster speed width l1 s).control = s.control := by
  unfold State.portLive
  first | (simp; done) | rfl | (repeat' (first | (simp; done) | split))
@[simp] theorem State.resetPort_ctl (p : PortId) (s : State) : (State.resetPort p s).control = s.control := by
  unfold State.resetPort
  first | (simp; done) | rfl | (repeat' (first | (simp; done) | split))
@[simp] theorem State.takeProd_ctl (p : PortId) (r v : Nat) (s : State) : (State.takeProd p r v s).control = s.control := by
  unfold State.takeProd
  first | (simp; done) | rfl | (repeat' (first | (simp; done) | split))
@[simp] theorem State.poll_ctl (p : PortId) (prods : List Nat) (fails : Bool) (s : State) : (State.poll p prods fails s).control = s.control := by
  unfold State.poll
  first | (simp; done) | rfl | (repeat' (first | (simp; done) | split))
@[simp] theorem State.bar2Write_ctl (p : PortId) (offset : Nat) (w : Word) (s : State) : (State.bar2Write p offset w s).control = s.control := by
  unfold State.bar2Write
  first | (simp; done) | rfl | (repeat' (first | (simp; done) | split))
@[simp] theorem State.message_ctl (p : PortId) (r : Nat) (s : State) : (State.message p r s).control = s.control := by
  unfold State.message
  first | (simp; done) | rfl | (repeat' (first | (simp; done) | split))
@[simp] theorem State.fetch_ctl (p : PortId) (r : Nat) (d : Desc) (s : State) : (State.fetch p r d s).control = s.control := by
  unfold State.fetch
  dsimp only
  split
  · rfl
  · split
    · exact (State.reply_ctl _ _ _ _).trans <| (State.begun_ctl _ _).trans <| (State.rouse_ctl _ _).trans (State.modPort_ctl _ _ _)
    · split
      · exact (State.reply_ctl _ _ _ _).trans <| (State.begun_ctl _ _).trans <| (State.rouse_ctl _ _).trans (State.modPort_ctl _ _ _)
      · exact (State.rouse_ctl _ _).trans (State.modPort_ctl _ _ _)
@[simp] theorem State.taken_ctl (h : Hdr) (op : Nat) (s : State) : (State.taken h op s).control = s.control := by
  unfold State.taken
  first | (simp; done) | rfl | (repeat' (first | (simp; done) | split))
@[simp] theorem State.cmdMargin_ctl (h : Hdr) (op : Nat) (s : State) : (State.cmdMargin h op s).control = s.control := by
  unfold State.cmdMargin
  first | (simp; done) | rfl | (repeat' (first | (simp; done) | split))
@[simp] theorem State.begin__ctl (h : Hdr) (op : Nat) (c : Cmd) (act : State → State × Option Reply) (s : State) (h_act : ∀ s, (act s).1.control = s.control) : (State.begin_ h op c act s).control = s.control := by
  unfold State.begin_
  (try simp [h_act])
  repeat' (first | done | (simp [h_act]; done) | split | intro _ | (simp [h_act]; split))
@[simp] theorem State.runCmd_ctl (h : Hdr) (op : Nat) (c : Cmd) (act : State → State × Option Reply) (s : State) (h_act : ∀ s, (act s).1.control = s.control) : (State.runCmd h op c act s).control = s.control := by
  unfold State.runCmd
  (try simp [h_act])
  repeat' (first | done | (simp [h_act]; done) | split | intro _ | (simp [h_act]; split))
@[simp] theorem State.waitPast_ctl (p : PortId) (r n : Nat) (s : State) : (State.waitPast p r n s).control = s.control := by
  unfold State.waitPast
  first | (simp; done) | rfl | (repeat' (first | (simp; done) | split))
@[simp] theorem State.ackOne_ctl (k i : Nat) (s : State) : (State.ackOne k i s).control = s.control := by
  unfold State.ackOne
  first | (simp; done) | rfl | (repeat' (first | (simp; done) | split))
@[simp] theorem State.endOrphans_ctl (t : Nat) (s : State) : (State.endOrphans t s).control = s.control := by
  unfold State.endOrphans
  first | (simp; done) | rfl | (repeat' (first | (simp; done) | split))
@[simp] theorem State.ackBlk_ctl (k mask : Nat) (s : State) : (State.ackBlk k mask s).1.control = s.control := by
  unfold State.ackBlk
  first | (simp; done) | rfl | (repeat' (first | (simp; done) | split))
@[simp] theorem State.presentEnd_ctl (k i : Nat) (s : State) : (State.presentEnd k i s).control = s.control := by
  unfold State.presentEnd
  first | (simp; done) | rfl | (repeat' (first | (simp; done) | split))
@[simp] theorem State.logRead_ctl (h : Hdr) (log count addr start : Nat) (s : State) : (State.logRead h log count addr start s).1.control = s.control := by
  unfold State.logRead
  first | (simp; done) | rfl | (repeat' (first | (simp; done) | split))
@[simp] theorem State.windowEnd_ctl (s : State) : (State.windowEnd s).control = s.control := by
  unfold State.windowEnd
  first | (simp; done) | rfl | (repeat' (first | (simp; done) | split))
@[simp] theorem State.mirrorWrite_ctl (fails : Bool) (s : State) : (State.mirrorWrite fails s).control = s.control := by
  unfold State.mirrorWrite
  first | (simp; done) | rfl | (repeat' (first | (simp; done) | split))
@[simp] theorem State.selfchk_ctl (k diff : Nat) (s : State) : (State.selfchk k diff s).control = s.control := by
  unfold State.selfchk
  first | (simp; done) | rfl | (repeat' (first | (simp; done) | split))
@[simp] theorem State.fsafeFall_ctl (s : State) : (State.fsafeFall s).control = s.control := by
  unfold State.fsafeFall
  first | (simp; done) | rfl | (repeat' (first | (simp; done) | split))
@[simp] theorem State.fsafeRise_ctl (s : State) : (State.fsafeRise s).control = s.control := by
  unfold State.fsafeRise
  first | (simp; done) | rfl | (repeat' (first | (simp; done) | split))
@[simp] theorem State.gateServe_ctl (s : State) : (State.gateServe s).control = s.control := by
  unfold State.gateServe
  first | (simp; done) | rfl | (repeat' (first | (simp; done) | split))
@[simp] theorem State.gateMiss_ctl (s : State) : (State.gateMiss s).control = s.control := by
  unfold State.gateMiss
  first | (simp; done) | rfl | (repeat' (first | (simp; done) | split))
@[simp] theorem State.aliveEdge_ctl (s : State) : (State.aliveEdge s).control = s.control := by
  unfold State.aliveEdge
  first | (simp; done) | rfl | (repeat' (first | (simp; done) | split))
@[simp] theorem State.queueFrame_ctl (h : Hdr) (r : FrameRec) (resAddr : Nat) (fails : Bool) (s : State) : (State.queueFrame h r resAddr fails s).1.control = s.control := by
  unfold State.queueFrame
  first | (simp; done) | rfl | (repeat' (first | (simp; done) | split))
@[simp] theorem State.dropFrame_ctl (n : Nat) (f : Frame) (r : Reply) (s : State) : (State.dropFrame n f r s).control = s.control := by
  unfold State.dropFrame
  first | (simp; done) | rfl | (repeat' (first | (simp; done) | split))
@[simp] theorem State.startFrame_ctl (n : Nat) (s : State) : (State.startFrame n s).control = s.control := by
  unfold State.startFrame
  (try simp)
  repeat' (first | done | (simp; done) | split | intro _ | (simp; split))
@[simp] theorem State.endFrame_ctl (n : Nat) (ws : List Word) (edges : Nat) (s : State) : (State.endFrame n ws edges s).control = s.control := by
  unfold State.endFrame
  first | (simp; done) | rfl | (repeat' (first | (simp; done) | split))
@[simp] theorem State.abortFrames_ctl (n : Nat) (s : State) : (State.abortFrames n s).1.control = s.control := by
  unfold State.abortFrames
  first | (simp; done) | rfl | (repeat' (first | (simp; done) | split))
@[simp] theorem State.strayEdge_ctl (n : Nat) (s : State) : (State.strayEdge n s).control = s.control := by
  unfold State.strayEdge
  first | (simp; done) | rfl | (repeat' (first | (simp; done) | split))
@[simp] theorem State.latchNow_ctl (p : PortId) (s : State) : (State.latchNow p s).control = s.control := by
  unfold State.latchNow
  first | (simp; done) | rfl | (repeat' (first | (simp; done) | split))
@[simp] theorem State.doTestWrite_ctl (t : Nat) (w : Word) (s : State) : (State.doTestWrite t w s).1.control = s.control := by
  unfold State.doTestWrite
  first | (simp; done) | rfl | (repeat' (first | (simp; done) | split))
@[simp] theorem State.trimWrite_ctl (t c reg : Nat) (w : Word) (s : State) : (State.trimWrite t c reg w s).1.control = s.control := by
  unfold State.trimWrite
  first | (simp; done) | rfl | (repeat' (first | (simp; done) | split))
@[simp] theorem State.convCtrl_ctl (t : Nat) (w : Word) (s : State) : (State.convCtrl t w s).1.control = s.control := by
  unfold State.convCtrl
  first | (simp; done) | rfl | (repeat' (first | (simp; done) | split))
@[simp] theorem State.injCfg_ctl (t : Nat) (w : Word) (s : State) : (State.injCfg t w s).1.control = s.control := by
  unfold State.injCfg
  first | (simp; done) | rfl | (repeat' (first | (simp; done) | split))
@[simp] theorem State.seqAdm_ctl (t n adm : Nat) (s : State) : (State.seqAdm t n adm s).1.control = s.control := by
  unfold State.seqAdm
  first | (simp; done) | rfl | (repeat' (first | (simp; done) | split))
@[simp] theorem State.seqCfg_ctl (t n : Nat) (w : Word) (s : State) : (State.seqCfg t n w s).1.control = s.control := by
  unfold State.seqCfg
  first | (simp; done) | rfl | (repeat' (first | (simp; done) | split))
@[simp] theorem State.seqReg_ctl (t n j : Nat) (w : Word) (s : State) : (State.seqReg t n j w s).1.control = s.control := by
  unfold State.seqReg
  first | (simp; done) | rfl | (repeat' (first | (simp; done) | split))
@[simp] theorem State.slotWrite_ctl (t n k : Nat) (w : Word) (s : State) : (State.slotWrite t n k w s).1.control = s.control := by
  unfold State.slotWrite
  first | (simp; done) | rfl | (repeat' (first | (simp; done) | split))
@[simp] theorem State.putRule_ctl (t i : Nat) (r : Rule) (s : State) : (State.putRule t i r s).control = s.control := by
  unfold State.putRule
  first | (simp; done) | rfl | (repeat' (first | (simp; done) | split))
@[simp] theorem State.ruleReg_ctl (t i j : Nat) (w : Word) (s : State) : (State.ruleReg t i j w s).1.control = s.control := by
  unfold State.ruleReg
  first | (simp; done) | rfl | (repeat' (first | (simp; done) | split))
@[simp] theorem State.vitSel_ctl (p : PortId) (t : Nat) (w : Word) (s : State) : (State.vitSel p t w s).control = s.control := by
  unfold State.vitSel
  first | (simp; done) | rfl | (repeat' (first | (simp; done) | split))
@[simp] theorem State.pokeTile_ctl (p : PortId) (t o : Nat) (w : Word) (s : State) : (State.pokeTile p t o w s).1.control = s.control := by
  unfold State.pokeTile
  (try simp)
  repeat' (first | done | (simp; done) | split | intro _ | (simp; split))
@[simp] theorem State.horizonWrite_ctl (w : Word) (s : State) : (State.horizonWrite w s).control = s.control := by
  unfold State.horizonWrite
  first | (simp; done) | rfl | (repeat' (first | (simp; done) | split))
@[simp] theorem State.pokePipe_ctl (i o : Nat) (w : Word) (s : State) : (State.pokePipe i o w s).1.control = s.control := by
  unfold State.pokePipe
  first | (simp; done) | rfl | (repeat' (first | (simp; done) | split))
@[simp] theorem State.pokePort_ctl (q : PortId) (o : Nat) (w : Word) (s : State) : (State.pokePort q o w s).control = s.control := by
  unfold State.pokePort
  first | (simp; done) | rfl | (repeat' (first | (simp; done) | split))
@[simp] theorem State.pwrCtrl_ctl (w : Word) (s : State) : (State.pwrCtrl w s).control = s.control := by
  unfold State.pwrCtrl
  first | (simp; done) | rfl | (repeat' (first | (simp; done) | split))
@[simp] theorem State.reactWrite_ctl (k i : Nat) (w : Word) (s : State) : (State.reactWrite k i w s).control = s.control := by
  unfold State.reactWrite
  first | (simp; done) | rfl | (repeat' (first | (simp; done) | split))
@[simp] theorem State.headerWrite_ctl (k j : Nat) (w : Word) (s : State) : (State.headerWrite k j w s).control = s.control := by
  unfold State.headerWrite
  first | (simp; done) | rfl | (repeat' (first | (simp; done) | split))
@[simp] theorem State.pokeSp_ctl (n o : Nat) (w : Word) (s : State) : (State.pokeSp n o w s).control = s.control := by
  unfold State.pokeSp
  first | (simp; done) | rfl | (repeat' (first | (simp; done) | split))
@[simp] theorem State.countDiscard_ctl (p : PortId) (a : Nat) (s : State) : (State.countDiscard p a s).control = s.control := by
  unfold State.countDiscard
  first | (simp; done) | rfl | (repeat' (first | (simp; done) | split))
@[simp] theorem State.catRead_ctl (h : Hdr) (start count addr : Nat) (s : State) : (State.catRead h start count addr s).1.control = s.control := by
  unfold State.catRead
  first | (simp; done) | rfl | (repeat' (first | (simp; done) | split))
@[simp] theorem State.modRec_ctl (b : Nat) (f : BankRec → BankRec) (s : State) : (State.modRec b f s).control = s.control := by
  unfold State.modRec
  first | (simp; done) | rfl | (repeat' (first | (simp; done) | split))
@[simp] theorem State.storePut_ctl (a : Nat) (bs : List Byte) (s : State) : (State.storePut a bs s).control = s.control := by
  unfold State.storePut
  first | (simp; done) | rfl | (repeat' (first | (simp; done) | split))
@[simp] theorem State.storeFail_ctl (s : State) : (State.storeFail s).control = s.control := by
  unfold State.storeFail
  first | (simp; done) | rfl | (repeat' (first | (simp; done) | split))
@[simp] theorem State.openSession_ctl (p : PortId) (s : State) : (State.openSession p s).control = s.control := by
  unfold State.openSession
  first | (simp; done) | rfl | (repeat' (first | (simp; done) | split))
@[simp] theorem State.imageWrite_ctl (h : Hdr) (kiln : Bool) (offset len : Nat) (bytes : List Byte) (fails : Bool) (s : State) : (State.imageWrite h kiln offset len bytes fails s).1.control = s.control := by
  unfold State.imageWrite
  (try simp)
  repeat' (first | done | (simp; done) | split | intro _ | (simp; split))
@[simp] theorem State.checkDelta_ctl (s : State) : (State.checkDelta s).1.control = s.control := by
  unfold State.checkDelta
  (try simp)
  repeat' (first | done | (simp; done) | split | intro _ | (simp; split))
@[simp] theorem State.verifiedRec_ctl (s : State) : (State.verifiedRec s).control = s.control := by
  unfold State.verifiedRec
  first | (simp; done) | rfl | (repeat' (first | (simp; done) | split))
@[simp] theorem State.imageVerify_ctl (h : Hdr) (kiln fails : Bool) (s : State) : (State.imageVerify h kiln fails s).1.control = s.control := by
  unfold State.imageVerify
  first | (simp; done) | rfl | (repeat' (first | (simp; done) | split))
@[simp] theorem State.imageErase_ctl (h : Hdr) (s : State) : (State.imageErase h s).1.control = s.control := by
  unfold State.imageErase
  first | (simp; done) | rfl | (repeat' (first | (simp; done) | split))
@[simp] theorem State.sessionEnd_ctl (s : State) : (State.sessionEnd s).control = s.control := by
  unfold State.sessionEnd
  first | (simp; done) | rfl | (repeat' (first | (simp; done) | split))
@[simp] theorem State.saveSettings_ctl (b : Nat) (s : State) : (State.saveSettings b s).control = s.control := by
  unfold State.saveSettings
  first | (simp; done) | rfl | (repeat' (first | (simp; done) | split))
@[simp] theorem State.settingsSave_ctl (h : Hdr) (s : State) : (State.settingsSave h s).1.control = s.control := by
  unfold State.settingsSave
  first | (simp; done) | rfl | (repeat' (first | (simp; done) | split))
@[simp] theorem State.trimSave_ctl (s : State) : (State.trimSave s).control = s.control := by
  unfold State.trimSave
  first | (simp; done) | rfl | (repeat' (first | (simp; done) | split))
@[simp] theorem State.loadDepot_ctl (b : Nat) (s : State) : (State.loadDepot b s).control = s.control := by
  unfold State.loadDepot
  first | (simp; done) | rfl | (repeat' (first | (simp; done) | split))
@[simp] theorem State.activateLive_ctl (h : Hdr) (secs : Nat) (s : State) : (State.activateLive h secs s).1.control = s.control := by
  unfold State.activateLive
  first | (simp; done) | rfl | (repeat' (first | (simp; done) | split))
@[simp] theorem State.dropActivation_ctl (b st : Nat) (s : State) : (State.dropActivation b st s).control = s.control := by
  unfold State.dropActivation
  first | (simp; done) | rfl | (repeat' (first | (simp; done) | split))
@[simp] theorem State.endRevert_ctl (s : State) : (State.endRevert s).control = s.control := by
  unfold State.endRevert
  first | (simp; done) | rfl | (repeat' (first | (simp; done) | split))
@[simp] theorem State.enterTrial_ctl (s : State) : (State.enterTrial s).control = s.control := by
  unfold State.enterTrial
  first | (simp; done) | rfl | (repeat' (first | (simp; done) | split))
@[simp] theorem State.chain_ctl (s : State) : (State.chain s).control = s.control := by
  unfold State.chain
  (try simp)
  repeat' (first | done | (simp; done) | split | intro _ | (simp; split))
@[simp] theorem State.countRotated_ctl (s : State) : (State.countRotated s).control = s.control := by
  unfold State.countRotated
  first | (simp; done) | rfl | (repeat' (first | (simp; done) | split))
@[simp] theorem State.svSwitch_ctl (ok : Bool) (s : State) : (State.svSwitch ok s).control = s.control := by
  unfold State.svSwitch
  first | (simp; done) | rfl | (repeat' (first | (simp; done) | split))
@[simp] theorem State.revertLive_ctl (cause : Nat) (h : Option Hdr) (s : State) : (State.revertLive cause h s).control = s.control := by
  unfold State.revertLive
  first | (simp; done) | rfl | (repeat' (first | (simp; done) | split))
@[simp] theorem State.confirm_ctl (fails : Bool) (s : State) : (State.confirm fails s).1.control = s.control := by
  unfold State.confirm
  first | (simp; done) | rfl | (repeat' (first | (simp; done) | split))
@[simp] theorem State.wake_ctl (s : State) : (State.wake s).control = s.control := by
  unfold State.wake
  first | (simp; done) | rfl | (repeat' (first | (simp; done) | split))
@[simp] theorem State.enterRecovery_ctl (s : State) : (State.enterRecovery s).control = s.control := by
  unfold State.enterRecovery
  first | (simp; done) | rfl | (repeat' (first | (simp; done) | split))
@[simp] theorem State.boot_ctl (b : Nat) (trial : Bool) (s : State) : (State.boot b trial s).control = s.control := by
  unfold State.boot
  first | (simp; done) | rfl | (repeat' (first | (simp; done) | split))
@[simp] theorem State.endTrials_ctl (s : State) : (State.endTrials s).control = s.control := by
  unfold State.endTrials
  first | (simp; done) | rfl | (repeat' (first | (simp; done) | split))
@[simp] theorem State.lowFsafe_ctl (s : State) : (State.lowFsafe s).control = s.control := by
  unfold State.lowFsafe
  first | (simp; done) | rfl | (repeat' (first | (simp; done) | split))
@[simp] theorem State.tilePower_ctl (t : Nat) (s : State) : (State.tilePower t s).control = s.control := by
  unfold State.tilePower
  first | (simp; done) | rfl | (repeat' (first | (simp; done) | split))
@[simp] theorem State.countRefused_ctl (s : State) : (State.countRefused s).control = s.control := by
  unfold State.countRefused
  first | (simp; done) | rfl | (repeat' (first | (simp; done) | split))
@[simp] theorem State.restoreChan_ctl (rank : Nat) (regs : List (Nat × Word)) (t c : Nat) (s : State) : (State.restoreChan rank regs t c s).control = s.control := by
  unfold State.restoreChan
  (try simp)
  repeat' (first | done | (simp; done) | split | intro _ | (simp; split))
@[simp] theorem State.blockReset_ctl (k i : Nat) (s : State) : (State.blockReset k i s).control = s.control := by
  unfold State.blockReset
  first | (simp; done) | rfl | (repeat' (first | (simp; done) | split))
@[simp] theorem State.modeCmd_ctl (g mode par : Nat) (carry : Bool) (cfg diag : Word) (s : State) : (State.modeCmd g mode par carry cfg diag s).1.control = s.control := by
  unfold State.modeCmd
  first | (simp; done) | rfl | (repeat' (first | (simp; done) | split))
@[simp] theorem State.sendAction_ctl (h : Hdr) (kind value commit op : Nat) (s : State) : (State.sendAction h kind value commit op s).control = s.control := by
  unfold State.sendAction
  first | (simp; done) | rfl | (repeat' (first | (simp; done) | split))
@[simp] theorem State.outSet_ctl (h : Hdr) (commit value : Nat) (s : State) : (State.outSet h commit value s).1.control = s.control := by
  unfold State.outSet
  first | (simp; done) | rfl | (repeat' (first | (simp; done) | split))
@[simp] theorem State.mirForce_ctl (h : Hdr) (commit value : Nat) (s : State) : (State.mirForce h commit value s).1.control = s.control := by
  unfold State.mirForce
  first | (simp; done) | rfl | (repeat' (first | (simp; done) | split))
@[simp] theorem State.trimSet_ctl (g : Nat) (ofs : Int) (gain : Nat) (s : State) : (State.trimSet g ofs gain s).1.control = s.control := by
  unfold State.trimSet
  first | (simp; done) | rfl | (repeat' (first | (simp; done) | split))
@[simp] theorem State.trimWait_ctl (h : Hdr) (span : Bool) (ref : Int) (s : State) : (State.trimWait h span ref s).1.control = s.control := by
  unfold State.trimWait
  first | (simp; done) | rfl | (repeat' (first | (simp; done) | split))
@[simp] theorem State.rfxWrite_ctl (arg : Nat) (r : Rule) (s : State) : (State.rfxWrite arg r s).1.control = s.control := by
  unfold State.rfxWrite
  first | (simp; done) | rfl | (repeat' (first | (simp; done) | split))
@[simp] theorem State.rfxEnable_ctl (arg : Nat) (en : Bool) (s : State) : (State.rfxEnable arg en s).1.control = s.control := by
  unfold State.rfxEnable
  first | (simp; done) | rfl | (repeat' (first | (simp; done) | split))
@[simp] theorem State.armCmd_ctl (arg : Nat) (s : State) : (State.armCmd arg s).1.control = s.control := by
  unfold State.armCmd
  first | (simp; done) | rfl | (repeat' (first | (simp; done) | split))
@[simp] theorem State.triggerCmd_ctl (h : Hdr) (tick : Nat) (s : State) : (State.triggerCmd h tick s).1.control = s.control := by
  unfold State.triggerCmd
  first | (simp; done) | rfl | (repeat' (first | (simp; done) | split))
@[simp] theorem State.injectCmd_ctl (h : Hdr) (slot : Word) (s : State) : (State.injectCmd h slot s).1.control = s.control := by
  unfold State.injectCmd
  first | (simp; done) | rfl | (repeat' (first | (simp; done) | split))
@[simp] theorem State.calibrateCmd_ctl (h : Hdr) (s : State) : (State.calibrateCmd h s).1.control = s.control := by
  unfold State.calibrateCmd
  first | (simp; done) | rfl | (repeat' (first | (simp; done) | split))
@[simp] theorem State.calibrateExcl_ctl (h : Hdr) (conv : Nat) (s : State) : (State.calibrateExcl h conv s).1.control = s.control := by
  unfold State.calibrateExcl
  first | (simp; done) | rfl | (repeat' (first | (simp; done) | split))
@[simp] theorem State.rotateCmd_ctl (h : Hdr) (newImg : Bool) (s : State) : (State.rotateCmd h newImg s).1.control = s.control := by
  unfold State.rotateCmd
  first | (simp; done) | rfl | (repeat' (first | (simp; done) | split))
theorem State.streamFull_ctl (p c : Nat) (port : PortId) (s t : State) (h : s.streamFull p c port = some t) :
    t.control = s.control := by
  unfold State.streamFull at h
  dsimp only at h
  split at h
  · cases h; simp
  · split at h
    · cases h; simp
    · split at h
      · cases h; simp
      · cases h
@[simp] theorem State.streamStart_ctl (h : Hdr) (ring : Nat) (s : State) : (State.streamStart h ring s).1.control = s.control := by
  unfold State.streamStart
  dsimp only
  split
  · rfl
  · split
    · rfl
    · split
      · rfl
      · split
        · rename_i u hu
          exact State.streamFull_ctl _ _ _ _ _ hu
        · simp
@[simp] theorem State.streamStop_ctl (h : Hdr) (s : State) : (State.streamStop h s).1.control = s.control := by
  unfold State.streamStop
  first | (simp; done) | rfl | (repeat' (first | (simp; done) | split))
@[simp] theorem State.streamSource_ctl (h : Hdr) (n : Nat) (s : State) : (State.streamSource h n s).1.control = s.control := by
  unfold State.streamSource
  (try simp)
  repeat' (first | done | (simp; done) | split | intro _ | (simp; split))
@[simp] theorem State.bankLoad_ctl (arg : Nat) (image : List Int) (s : State) : (State.bankLoad arg image s).1.control = s.control := by
  unfold State.bankLoad
  first | (simp; done) | rfl | (repeat' (first | (simp; done) | split))
@[simp] theorem State.bankSelect_ctl (h : Hdr) (bank f : Nat) (s : State) : (State.bankSelect h bank f s).1.control = s.control := by
  unfold State.bankSelect
  first | (simp; done) | rfl | (repeat' (first | (simp; done) | split))
@[simp] theorem State.liveCmd_ctl (h : Hdr) (dflt : Bool) (secs : Nat) (s : State) : (State.liveCmd h dflt secs s).1.control = s.control := by
  unfold State.liveCmd
  first | (simp; done) | rfl | (repeat' (first | (simp; done) | split))
@[simp] theorem State.fsafePin_ctl (level : Bool) (s : State) : (State.fsafePin level s).control = s.control := by
  unfold State.fsafePin
  first | (simp; done) | rfl | (repeat' (first | (simp; done) | split))
@[simp] theorem State.captureOver_ctl (t c : Nat) (s : State) : (State.captureOver t c s).control = s.control := by
  unfold State.captureOver
  first | (simp; done) | rfl | (repeat' (first | (simp; done) | split))
@[simp] theorem State.actionCame_ctl (p : PortId) (ring cnt : Nat) (s : State) : (State.actionCame p ring cnt s).control = s.control := by
  unfold State.actionCame
  first | (simp; done) | rfl | (repeat' (first | (simp; done) | split))
@[simp] theorem State.timerTrigger_ctl (t n : Nat) (s : State) : (State.timerTrigger t n s).control = s.control := by
  unfold State.timerTrigger
  first | (simp; done) | rfl | (repeat' (first | (simp; done) | split))
@[simp] theorem State.heldTrigger_ctl (t n : Nat) (s : State) : (State.heldTrigger t n s).control = s.control := by
  unfold State.heldTrigger
  (try simp)
  repeat' (first | done | (simp; done) | split | intro _ | (simp; split))
@[simp] theorem State.speculate_ctl (t n : Nat) (s : State) : (State.speculate t n s).control = s.control := by
  unfold State.speculate
  (try simp)
  repeat' (first | done | (simp; done) | split | intro _ | (simp; split))
@[simp] theorem State.specOver_ctl (t n : Nat) (s : State) : (State.specOver t n s).control = s.control := by
  unfold State.specOver
  (try simp)
  repeat' (first | done | (simp; done) | split | intro _ | (simp; split))
@[simp] theorem State.startSlot_ctl (t n : Nat) (s : State) : (State.startSlot t n s).control = s.control := by
  unfold State.startSlot
  (try simp)
  repeat' (first | done | (simp; done) | split | intro _ | (simp; split))
@[simp] theorem State.reattempt_ctl (t v : Nat) (s : State) : (State.reattempt t v s).control = s.control := by
  unfold State.reattempt
  first | (simp; done) | rfl | (repeat' (first | (simp; done) | split))
@[simp] theorem State.injMissed_ctl (t : Nat) (e : Inj) (s : State) : (State.injMissed t e s).control = s.control := by
  unfold State.injMissed
  first | (simp; done) | rfl | (repeat' (first | (simp; done) | split))
@[simp] theorem State.startInj_ctl (t v : Nat) (s : State) : (State.startInj t v s).control = s.control := by
  unfold State.startInj
  first | (simp; done) | rfl | (repeat' (first | (simp; done) | split))
@[simp] theorem State.injPast_ctl (t : Nat) (p : PortId) (ring cnt : Nat) (s : State) : (State.injPast t p ring cnt s).control = s.control := by
  unfold State.injPast
  first | (simp; done) | rfl | (repeat' (first | (simp; done) | split))
@[simp] theorem State.calDue_ctl (t : Nat) (s : State) : (State.calDue t s).control = s.control := by
  unfold State.calDue
  (try simp)
  repeat' (first | done | (simp; done) | split | intro _ | (simp; split))
@[simp] theorem State.refSettled_ctl (t : Nat) (dev : Int) (s : State) : (State.refSettled t dev s).control = s.control := by
  unfold State.refSettled
  first | (simp; done) | rfl | (repeat' (first | (simp; done) | split))
@[simp] theorem State.lineToHub_ctl (l : Nat) (s : State) : (State.lineToHub l s).control = s.control := by
  unfold State.lineToHub
  (try simp)
  repeat' (first | done | (simp; done) | split | intro _ | (simp; split))
@[simp] theorem State.lineToTile_ctl (t l : Nat) (s : State) : (State.lineToTile t l s).control = s.control := by
  unfold State.lineToTile
  (try simp)
  repeat' (first | done | (simp; done) | split | intro _ | (simp; split))
@[simp] theorem State.mergeTakes_ctl (src : Nat) (s : State) : (State.mergeTakes src s).control = s.control := by
  unfold State.mergeTakes
  first | (simp; done) | rfl | (repeat' (first | (simp; done) | split))
@[simp] theorem State.horizonOver_ctl (s : State) : (State.horizonOver s).control = s.control := by
  unfold State.horizonOver
  first | (simp; done) | rfl | (repeat' (first | (simp; done) | split))
@[simp] theorem State.pipeTakes_ctl (p : Nat) (s : State) : (State.pipeTakes p s).control = s.control := by
  unfold State.pipeTakes
  first | (simp; done) | rfl | (repeat' (first | (simp; done) | split))
@[simp] theorem State.blockOver_ctl (p c : Nat) (s : State) : (State.blockOver p c s).control = s.control := by
  unfold State.blockOver
  first | (simp; done) | rfl | (repeat' (first | (simp; done) | split))
@[simp] theorem State.deliveryPast_ctl (p c : Nat) (s : State) : (State.deliveryPast p c s).control = s.control := by
  unfold State.deliveryPast
  first | (simp; done) | rfl | (repeat' (first | (simp; done) | split))
@[simp] theorem State.ifOnline_ctl (t : Nat) (f : State → State) (s : State) (h_f : ∀ s, (f s).control = s.control) : (State.ifOnline t f s).control = s.control := by
  unfold State.ifOnline
  first | (simp [h_f]; done) | rfl | (repeat' (first | (simp [h_f]; done) | split))
@[simp] theorem State.timerRest_ctl (t n : Nat) (hi : Tick) (s : State) : (State.timerRest t n hi s).control = s.control := by
  unfold State.timerRest
  first | (simp; done) | rfl | (repeat' (first | (simp; done) | split))
@[simp] theorem State.syncLead_ctl (s : State) : (State.syncLead s).control = s.control := by
  unfold State.syncLead
  first | (simp; done) | rfl | (repeat' (first | (simp; done) | split))
@[simp] theorem State.syncLost_ctl (s : State) : (State.syncLost s).control = s.control := by
  unfold State.syncLost
  first | (simp; done) | rfl | (repeat' (first | (simp; done) | split))
@[simp] theorem State.handOver_ctl (s : State) : (State.handOver s).control = s.control := by
  unfold State.handOver
  first | (simp; done) | rfl | (repeat' (first | (simp; done) | split))

end Sys2Proof.Machine
end

