-- ==== Sys2Proof/Laws/Store.lean ====
section
/-!
SUPPORT. Every operation but the four that write the store leaves its bytes and the identity words as they are: one lemma for each operation.
-/
namespace Sys2Proof.Machine

@[simp] theorem Persist.kept_mk (a b c d e f g h i j k l m) : (Persist.mk a b c d e f g h i j k l m).kept = (a, h, i, j, k, l) := rfl
@[simp] theorem Persist.kept_fold (p : Persist) : (p.cells, p.revId, p.hwType, p.pciVendor, p.pciSubsys, p.unitId) = p.kept := rfl
@[simp] theorem State.per_ite (c : Prop) [Decidable c] (a b : State) : (if c then a else b).per = if c then a.per else b.per := by split <;> rfl
@[simp] theorem State.per_ite1 {α} (c : Prop) [Decidable c] (a b : State × α) : (if c then a else b).1.per = if c then a.1.per else b.1.per := by split <;> rfl
@[simp] theorem State.per_kept_ite (c : Prop) [Decidable c] (a b : Persist) : (if c then a else b).kept = if c then a.kept else b.kept := by split <;> rfl
@[simp] theorem forAll_kept {α : Type} (f : α → State → State) (h : ∀ x s, (f x s).per.kept = s.per.kept) (xs : List α) (s : State) : (forAll f xs s).per.kept = s.per.kept := by induction xs generalizing s with | nil => rfl | cons x xs ih => simp [forAll, ih, h]
@[simp] theorem State.modTile_kept (t : Nat) (f : Tile → Tile) (s : State) : (State.modTile t f s).per.kept = s.per.kept := by
  unfold State.modTile
  first | (simp; done) | rfl | (repeat' (first | (simp; done) | split))
@[simp] theorem State.modChan_kept (t c : Nat) (f : Chan → Chan) (s : State) : (State.modChan t c f s).per.kept = s.per.kept := by
  unfold State.modChan
  first | (simp; done) | rfl | (repeat' (first | (simp; done) | split))
@[simp] theorem State.modPort_kept (p : PortId) (f : Port → Port) (s : State) : (State.modPort p f s).per.kept = s.per.kept := by
  unfold State.modPort
  first | (simp; done) | rfl | (repeat' (first | (simp; done) | split))
@[simp] theorem State.modSeq_kept (t n : Nat) (f : Seq → Seq) (s : State) : (State.modSeq t n f s).per.kept = s.per.kept := by
  unfold State.modSeq
  first | (simp; done) | rfl | (repeat' (first | (simp; done) | split))
@[simp] theorem State.modCv_kept (t : Nat) (f : ConvUnit → ConvUnit) (s : State) : (State.modCv t f s).per.kept = s.per.kept := by
  unfold State.modCv
  first | (simp; done) | rfl | (repeat' (first | (simp; done) | split))
@[simp] theorem State.modLink_kept (t : Nat) (f : Link → Link) (s : State) : (State.modLink t f s).per.kept = s.per.kept := by
  unfold State.modLink
  first | (simp; done) | rfl | (repeat' (first | (simp; done) | split))
@[simp] theorem State.modSaf_kept (t : Nat) (f : Safety → Safety) (s : State) : (State.modSaf t f s).per.kept = s.per.kept := by
  unfold State.modSaf
  first | (simp; done) | rfl | (repeat' (first | (simp; done) | split))
@[simp] theorem State.modOut_kept (t c : Nat) (f : OutState → OutState) (s : State) : (State.modOut t c f s).per.kept = s.per.kept := by
  unfold State.modOut
  first | (simp; done) | rfl | (repeat' (first | (simp; done) | split))
@[simp] theorem State.modMeas_kept (t c : Nat) (f : MeasState → MeasState) (s : State) : (State.modMeas t c f s).per.kept = s.per.kept := by
  unfold State.modMeas
  first | (simp; done) | rfl | (repeat' (first | (simp; done) | split))
@[simp] theorem State.modCtx_kept (p c : Nat) (f : Ctx → Ctx) (s : State) : (State.modCtx p c f s).per.kept = s.per.kept := by
  unfold State.modCtx
  first | (simp; done) | rfl | (repeat' (first | (simp; done) | split))
@[simp] theorem State.modSp_kept (n : Nat) (f : SPort → SPort) (s : State) : (State.modSp n f s).per.kept = s.per.kept := by
  unfold State.modSp
  first | (simp; done) | rfl | (repeat' (first | (simp; done) | split))
@[simp] theorem State.modEngine_kept (n : Nat) (f : Engine → Engine) (s : State) : (State.modEngine n f s).per.kept = s.per.kept := by
  unfold State.modEngine
  first | (simp; done) | rfl | (repeat' (first | (simp; done) | split))
@[simp] theorem State.modBlk_kept (k : Nat) (f : FBlk → FBlk) (s : State) : (State.modBlk k f s).per.kept = s.per.kept := by
  unfold State.modBlk
  first | (simp; done) | rfl | (repeat' (first | (simp; done) | split))
@[simp] theorem State.modSrc_kept (k i : Nat) (f : Src → Src) (s : State) : (State.modSrc k i f s).per.kept = s.per.kept := by
  unfold State.modSrc
  first | (simp; done) | rfl | (repeat' (first | (simp; done) | split))
@[simp] theorem State.lateness_kept (k i idx x : Nat) (s : State) : (State.lateness k i idx x s).per.kept = s.per.kept := by
  unfold State.lateness
  first | (simp; done) | rfl | (repeat' (first | (simp; done) | split))
@[simp] theorem State.advance_kept (τ : Tick) (s : State) : (State.advance τ s).per.kept = s.per.kept := by
  unfold State.advance
  first | (simp; done) | rfl | (repeat' (first | (simp; done) | split))
@[simp] theorem State.tickOn_kept (s : State) : (State.tickOn s).per.kept = s.per.kept := by
  unfold State.tickOn
  first | (simp; done) | rfl | (repeat' (first | (simp; done) | split))
@[simp] theorem State.emitHubAt_kept (ts kind pl : Nat) (wide : List Int) (toPorts : Bool) (s : State) : (State.emitHubAt ts kind pl wide toPorts s).per.kept = s.per.kept := by
  unfold State.emitHubAt
  first | (simp; done) | rfl | (repeat' (first | (simp; done) | split))
@[simp] theorem State.emitHub_kept (kind pl : Nat) (s : State) : (State.emitHub kind pl s).per.kept = s.per.kept := by
  unfold State.emitHub
  first | (simp; done) | rfl | (repeat' (first | (simp; done) | split))
@[simp] theorem State.enterScope_kept (t : Nat) (f : Safety → Safety) (s : State) : (State.enterScope t f s).per.kept = s.per.kept := by
  unfold State.enterScope
  first | (simp; done) | rfl | (repeat' (first | (simp; done) | split))
@[simp] theorem State.leaveScope_kept (t : Nat) (f : Safety → Safety) (s : State) : (State.leaveScope t f s).per.kept = s.per.kept := by
  unfold State.leaveScope
  first | (simp; done) | rfl | (repeat' (first | (simp; done) | split))
@[simp] theorem State.netEvent_kept (action : Nat) (s : State) : (State.netEvent action s).per.kept = s.per.kept := by
  unfold State.netEvent
  first | (simp; done) | rfl | (repeat' (first | (simp; done) | split))
@[simp] theorem State.assertNet_kept (k i : Nat) (s : State) : (State.assertNet k i s).per.kept = s.per.kept := by
  unfold State.assertNet
  first | (simp; done) | rfl | (repeat' (first | (simp; done) | split))
@[simp] theorem State.msix_kept (p : PortId) (v : Nat) (s : State) : (State.msix p v s).per.kept = s.per.kept := by
  unfold State.msix
  first | (simp; done) | rfl | (repeat' (first | (simp; done) | split))
@[simp] theorem State.faultMsi_kept (k : Nat) (p : PortId) (s : State) : (State.faultMsi k p s).per.kept = s.per.kept := by
  unfold State.faultMsi
  first | (simp; done) | rfl | (repeat' (first | (simp; done) | split))
@[simp] theorem State.graveRecord_kept (s : State) : (State.graveRecord s).per.kept = s.per.kept := by
  unfold State.graveRecord
  first | (simp; done) | rfl | (repeat' (first | (simp; done) | split))
@[simp] theorem State.record_kept (k i ch idx code aux : Nat) (τ : Tick) (s : State) : (State.record k i ch idx code aux τ s).1.per.kept = s.per.kept := by
  unfold State.record
  first | (simp; done) | rfl | (repeat' (first | (simp; done) | split))
@[simp] theorem State.linkPush_kept (t : Nat) (x : LinkItem) (s : State) : (State.linkPush t x s).per.kept = s.per.kept := by
  unfold State.linkPush
  first | (simp; done) | rfl | (repeat' (first | (simp; done) | split))
@[simp] theorem State.emitAt_kept (t c ts kind pl : Nat) (toPorts : Bool) (s : State) : (State.emitAt t c ts kind pl toPorts s).per.kept = s.per.kept := by
  unfold State.emitAt
  first | (simp; done) | rfl | (repeat' (first | (simp; done) | split))
@[simp] theorem State.emit_kept (t c kind pl : Nat) (s : State) : (State.emit t c kind pl s).per.kept = s.per.kept := by
  unfold State.emit
  first | (simp; done) | rfl | (repeat' (first | (simp; done) | split))
@[simp] theorem State.raiseCh_kept (k i ch idx code aux : Nat) (s : State) : (State.raiseCh k i ch idx code aux s).per.kept = s.per.kept := by
  unfold State.raiseCh
  first | (simp; done) | rfl | (repeat' (first | (simp; done) | split))
@[simp] theorem State.raise_kept (k i idx code aux : Nat) (s : State) : (State.raise k i idx code aux s).per.kept = s.per.kept := by
  unfold State.raise
  first | (simp; done) | rfl | (repeat' (first | (simp; done) | split))
@[simp] theorem State.endPresent_kept (k i : Nat) (s : State) : (State.endPresent k i s).per.kept = s.per.kept := by
  unfold State.endPresent
  first | (simp; done) | rfl | (repeat' (first | (simp; done) | split))
@[simp] theorem State.notice_kept (t ch idx kind : Nat) (s : State) : (State.notice t ch idx kind s).per.kept = s.per.kept := by
  unfold State.notice
  first | (simp; done) | rfl | (repeat' (first | (simp; done) | split))
@[simp] theorem State.scopeEvent_kept (t action scope : Nat) (c : Cause) (s : State) : (State.scopeEvent t action scope c s).per.kept = s.per.kept := by
  unfold State.scopeEvent
  first | (simp; done) | rfl | (repeat' (first | (simp; done) | split))
@[simp] theorem State.endNet_kept (s : State) : (State.endNet s).per.kept = s.per.kept := by
  unfold State.endNet
  first | (simp; done) | rfl | (repeat' (first | (simp; done) | split))
@[simp] theorem State.pump_kept (s : State) : (State.pump s).per.kept = s.per.kept := by
  unfold State.pump
  first | (simp; done) | rfl | (repeat' (first | (simp; done) | split))
@[simp] theorem State.reply_kept (h : Hdr) (op : Nat) (r : Reply) (s : State) : (State.reply h op r s).per.kept = s.per.kept := by
  unfold State.reply
  first | (simp; done) | rfl | (repeat' (first | (simp; done) | split))
@[simp] theorem State.begun_kept (h : Hdr) (s : State) : (State.begun h s).per.kept = s.per.kept := by
  unfold State.begun
  first | (simp; done) | rfl | (repeat' (first | (simp; done) | split))
@[simp] theorem State.margin_kept (k j m : Nat) (s : State) : (State.margin k j m s).per.kept = s.per.kept := by
  unfold State.margin
  first | (simp; done) | rfl | (repeat' (first | (simp; done) | split))
@[simp] theorem State.modPwr_kept (k : Nat) (f : Pwr → Pwr) (s : State) : (State.modPwr k f s).per.kept = s.per.kept := by
  unfold State.modPwr
  first | (simp; done) | rfl | (repeat' (first | (simp; done) | split))
@[simp] theorem State.rouse_kept (k : Nat) (s : State) : (State.rouse k s).per.kept = s.per.kept := by
  unfold State.rouse
  first | (simp; done) | rfl | (repeat' (first | (simp; done) | split))
@[simp] theorem State.raiseCmd_kept (h : Hdr) (e : Option Nat) (s : State) : (State.raiseCmd h e s).per.kept = s.per.kept := by
  unfold State.raiseCmd
  first | (simp; done) | rfl | (repeat' (first | (simp; done) | split))
@[simp] theorem State.archPut_kept (n : Nat) (x : ArchEntry) (s : State) : (State.archPut n x s).per.kept = s.per.kept := by
  unfold State.archPut
  first | (simp; done) | rfl | (repeat' (first | (simp; done) | split))
@[simp] theorem State.archive_kept (e : Event) (s : State) : (State.archive e s).per.kept = s.per.kept := by
  unfold State.archive
  first | (simp; done) | rfl | (repeat' (first | (simp; done) | split))
@[simp] theorem State.release_kept (late : Bool) (e : Event) (s : State) : (State.release late e s).per.kept = s.per.kept := by
  unfold State.release
  first | (simp; done) | rfl | (repeat' (first | (simp; done) | split))
@[simp] theorem releaseDue_kept (es : List Event) (s : State) : (releaseDue es s).per.kept = s.per.kept := by
  induction es generalizing s with
  | nil => simp [releaseDue]
  | cons e es ih => simp [releaseDue, ih]
@[simp] theorem State.releaseHeld_kept (s : State) : (State.releaseHeld s).per.kept = s.per.kept := by
  unfold State.releaseHeld
  (try simp)
  repeat' (first | done | (simp; done) | split | intro _ | (simp; split))
@[simp] theorem State.releaseEarly_kept (s : State) : (State.releaseEarly s).per.kept = s.per.kept := by
  unfold State.releaseEarly
  first | (simp; done) | rfl | (repeat' (first | (simp; done) | split))
@[simp] theorem State.arrive_kept (e : Event) (s : State) : (State.arrive e s).per.kept = s.per.kept := by
  unfold State.arrive
  first | (simp; done) | rfl | (repeat' (first | (simp; done) | split))
@[simp] theorem State.setDiagX_kept (t c b : Nat) (on : Bool) (partner burn : Nat) (s : State) : (State.setDiagX t c b on partner burn s).per.kept = s.per.kept := by
  unfold State.setDiagX
  first | (simp; done) | rfl | (repeat' (first | (simp; done) | split))
@[simp] theorem State.setDiag_kept (t c b : Nat) (on : Bool) (s : State) : (State.setDiag t c b on s).per.kept = s.per.kept := by
  unfold State.setDiag
  first | (simp; done) | rfl | (repeat' (first | (simp; done) | split))
@[simp] theorem State.discard_kept (t c v fate : Nat) (s : State) : (State.discard t c v fate s).per.kept = s.per.kept := by
  unfold State.discard
  first | (simp; done) | rfl | (repeat' (first | (simp; done) | split))
@[simp] theorem State.accessioned_kept (t c v val : Nat) (ts : Tick) (attempt gain : Nat) (s : State) : (State.accessioned t c v val ts attempt gain s).per.kept = s.per.kept := by
  unfold State.accessioned
  first | (simp; done) | rfl | (repeat' (first | (simp; done) | split))
@[simp] theorem State.accessionOut_kept (t c kind v origin port rule tag : Nat) (s : State) : (State.accessionOut t c kind v origin port rule tag s).per.kept = s.per.kept := by
  unfold State.accessionOut
  first | (simp; done) | rfl | (repeat' (first | (simp; done) | split))
@[simp] theorem State.dropAfter_kept (t c v : Nat) (off : Nat → Nat → Nat → State → State) (s : State)
    (h_off : ∀ a b k s, (off a b k s).per.kept = s.per.kept) : (State.dropAfter t c v off s).per.kept = s.per.kept := by
  unfold State.dropAfter
  first | (simp [h_off]; done) | (repeat' (first | (simp [h_off]; done) | split))
@[simp] theorem State.offAction_kept (t c origin : Nat) (s : State) : (State.offAction t c origin s).per.kept = s.per.kept := by
  unfold State.offAction
  first | (simp; done) | rfl | (repeat' (first | (simp; done) | split))
@[simp] theorem State.accDue_kept (t c : Nat) (d : Due) (s : State) : (State.accDue t c d s).per.kept = s.per.kept := by
  unfold State.accDue
  first | (simp; done) | rfl | (repeat' (first | (simp; done) | split))
@[simp] theorem State.commandsFirst_kept (t c : Nat) (s : State) : (State.commandsFirst t c s).per.kept = s.per.kept := by
  unfold State.commandsFirst
  first | (simp; done) | rfl | (repeat' (first | (simp; done) | split))
@[simp] theorem State.driveLine_kept (t r l : Nat) (v : Bool) (ts : Tick) (s : State) : (State.driveLine t r l v ts s).per.kept = s.per.kept := by
  unfold State.driveLine
  first | (simp; done) | rfl | (repeat' (first | (simp; done) | split))
@[simp] theorem State.freeLine_kept (t r l : Nat) (ts : Tick) (s : State) : (State.freeLine t r l ts s).per.kept = s.per.kept := by
  unfold State.freeLine
  first | (simp; done) | rfl | (repeat' (first | (simp; done) | split))
@[simp] theorem State.fireRule_kept (t i : Nat) (ts : Tick) (s : State) : (State.fireRule t i ts s).per.kept = s.per.kept := by
  unfold State.fireRule
  (try simp)
  repeat' (first | done | (simp; done) | split | intro _ | (simp; split))
@[simp] theorem State.judgeRule_kept (t : Nat) (e : Option Edge) (ts : Tick) (i : Nat) (s : State) : (State.judgeRule t e ts i s).per.kept = s.per.kept := by
  unfold State.judgeRule
  first | (simp; done) | rfl | (repeat' (first | (simp; done) | split))
@[simp] theorem State.reflex_kept (t : Nat) (e : Option Edge) (ts : Tick) (s : State) : (State.reflex t e ts s).per.kept = s.per.kept := by
  unfold State.reflex
  first | (simp; done) | rfl | (repeat' (first | (simp; done) | split))
@[simp] theorem State.deriveChan_kept (t c : Nat) (s : State) : (State.deriveChan t c s).per.kept = s.per.kept := by
  unfold State.deriveChan
  first | (simp; done) | rfl | (repeat' (first | (simp; done) | split))
@[simp] theorem State.refreshAt_kept (t : Nat) (e : Option Edge) (ts : Tick) (s : State) : (State.refreshAt t e ts s).per.kept = s.per.kept := by
  unfold State.refreshAt
  first | (simp; done) | rfl | (repeat' (first | (simp; done) | split))
@[simp] theorem State.refresh_kept (t : Nat) (s : State) : (State.refresh t s).per.kept = s.per.kept := by
  unfold State.refresh
  first | (simp; done) | rfl | (repeat' (first | (simp; done) | split))
@[simp] theorem State.trimChange_kept (t c : Nat) (ofs : Int) (gain : Nat) (s : State) : (State.trimChange t c ofs gain s).per.kept = s.per.kept := by
  unfold State.trimChange
  first | (simp; done) | rfl | (repeat' (first | (simp; done) | split))
@[simp] theorem State.endCtx_kept (p c : Nat) (s : State) : (State.endCtx p c s).per.kept = s.per.kept := by
  unfold State.endCtx
  first | (simp; done) | rfl | (repeat' (first | (simp; done) | split))
@[simp] theorem State.pumpCtx_kept (p c : Nat) (s : State) : (State.pumpCtx p c s).per.kept = s.per.kept := by
  unfold State.pumpCtx
  (try simp)
  repeat' (first | done | (simp; done) | split | intro _ | (simp; split))
@[simp] theorem State.pumpStreams_kept (s : State) : (State.pumpStreams s).per.kept = s.per.kept := by
  unfold State.pumpStreams
  first | (simp; done) | rfl | (repeat' (first | (simp; done) | split))
@[simp] theorem State.closeBlock_kept (p c : Nat) (final : Bool) (s : State) : (State.closeBlock p c final s).per.kept = s.per.kept := by
  unfold State.closeBlock
  first | (simp; done) | rfl | (repeat' (first | (simp; done) | split))
@[simp] theorem State.pipeAct_kept (p c : Nat) (a : PipeAct) (s : State) : (State.pipeAct p c a s).per.kept = s.per.kept := by
  unfold State.pipeAct
  first | (simp; done) | rfl | (repeat' (first | (simp; done) | split))
@[simp] theorem State.feedCtx_kept (p c : Nat) (v : Int) (mark : Nat) (tau : Int) (ts : Tick) (dic : Bool) (s : State) : (State.feedCtx p c v mark tau ts dic s).per.kept = s.per.kept := by
  unfold State.feedCtx
  first | (simp; done) | rfl | (repeat' (first | (simp; done) | split))
@[simp] theorem State.gapCtx_kept (p c : Nat) (tau : Int) (ts : Tick) (dic : Bool) (s : State) : (State.gapCtx p c tau ts dic s).per.kept = s.per.kept := by
  unfold State.gapCtx
  first | (simp; done) | rfl | (repeat' (first | (simp; done) | split))
@[simp] theorem State.gapRun_kept (p c per k i : Nat) (s : State) : (State.gapRun p c per k i s).per.kept = s.per.kept := by
  induction k generalizing i s with
  | zero => simp [State.gapRun]
  | succ k ih => simp [State.gapRun, ih]
@[simp] theorem State.gridInput_kept (p c : Nat) (i : PipeIn) (s : State) : (State.gridInput p c i s).per.kept = s.per.kept := by
  unfold State.gridInput
  (try simp)
  repeat' (first | done | (simp; done) | split | intro _ | (simp; split))
@[simp] theorem State.switchCtx_kept (p c ch : Nat) (h : Hdr) (s : State) : (State.switchCtx p c ch h s).per.kept = s.per.kept := by
  unfold State.switchCtx
  first | (simp; done) | rfl | (repeat' (first | (simp; done) | split))
@[simp] theorem State.ctxInput_kept (p c : Nat) (i : PipeIn) (s : State) : (State.ctxInput p c i s).per.kept = s.per.kept := by
  unfold State.ctxInput
  (try simp)
  repeat' (first | done | (simp; done) | split | intro _ | (simp; split))
@[simp] theorem State.stopCtx_kept (p c reason : Nat) (h : Option Hdr) (s : State) : (State.stopCtx p c reason h s).per.kept = s.per.kept := by
  unfold State.stopCtx
  (try simp)
  repeat' (first | done | (simp; done) | split | intro _ | (simp; split))
@[simp] theorem State.stopWhere_kept (p reason : Nat) (f : Ctx → Bool) (s : State) : (State.stopWhere p reason f s).per.kept = s.per.kept := by
  unfold State.stopWhere
  first | (simp; done) | rfl | (repeat' (first | (simp; done) | split))
@[simp] theorem State.startCtx_kept (p c : Nat) (port : PortId) (ring : Nat) (s : State) : (State.startCtx p c port ring s).per.kept = s.per.kept := by
  unfold State.startCtx
  first | (simp; done) | rfl | (repeat' (first | (simp; done) | split))
@[simp] theorem State.endCapture_kept (t c : Nat) (cap : TrimCap) (st : Nat) (s : State) : (State.endCapture t c cap st s).per.kept = s.per.kept := by
  unfold State.endCapture
  first | (simp; done) | rfl | (repeat' (first | (simp; done) | split))
@[simp] theorem State.captureOne_kept (t c : Nat) (x : Int) (cap : TrimCap) (s : State) : (State.captureOne t c x cap s).per.kept = s.per.kept := by
  unfold State.captureOne
  first | (simp; done) | rfl | (repeat' (first | (simp; done) | split))
@[simp] theorem State.captureTrim_kept (t c : Nat) (x : Int) (s : State) : (State.captureTrim t c x s).per.kept = s.per.kept := by
  unfold State.captureTrim
  first | (simp; done) | rfl | (repeat' (first | (simp; done) | split))
@[simp] theorem State.discardIn_kept (t i fate : Nat) (s : State) : (State.discardIn t i fate s).per.kept = s.per.kept := by
  unfold State.discardIn
  first | (simp; done) | rfl | (repeat' (first | (simp; done) | split))
@[simp] theorem State.gapNotice_kept (t c : Nat) (seqSlot : Option (Nat × Nat)) (trig : Tick) (s : State) : (State.gapNotice t c seqSlot trig s).per.kept = s.per.kept := by
  unfold State.gapNotice
  first | (simp; done) | rfl | (repeat' (first | (simp; done) | split))
@[simp] theorem State.classify_kept (t c : Nat) (x : Int) (s : State) : (State.classify t c x s).per.kept = s.per.kept := by
  unfold State.classify
  first | (simp; done) | rfl | (repeat' (first | (simp; done) | split))
@[simp] theorem State.accResult_kept (t c : Nat) (raw : Int) (ts : Tick) (flags attempt gain : Nat) (seqSlot : Option (Nat × Nat)) (trig : Tick) (evt tested : Bool) (s : State) : (State.accResult t c raw ts flags attempt gain seqSlot trig evt tested s).1.per.kept = s.per.kept := by
  unfold State.accResult
  first | (simp; done) | rfl | (repeat' (first | (simp; done) | split))
@[simp] theorem State.accInternal_kept (t i : Nat) (v : Int) (ts : Tick) (flags : Nat) (seqSlot : Option (Nat × Nat)) (evt : Bool) (s : State) : (State.accInternal t i v ts flags seqSlot evt s).1.per.kept = s.per.kept := by
  unfold State.accInternal
  first | (simp; done) | rfl | (repeat' (first | (simp; done) | split))
@[simp] theorem State.dropResult_kept (t c fate : Nat) (broken ovr : Bool) (seqSlot : Option (Nat × Nat)) (trig : Tick) (s : State) : (State.dropResult t c fate broken ovr seqSlot trig s).per.kept = s.per.kept := by
  unfold State.dropResult
  first | (simp; done) | rfl | (repeat' (first | (simp; done) | split))
@[simp] theorem State.setJob_kept (t v : Nat) (j : Option Job) (s : State) : (State.setJob t v j s).per.kept = s.per.kept := by
  unfold State.setJob
  first | (simp; done) | rfl | (repeat' (first | (simp; done) | split))
@[simp] theorem State.finishDisarm_kept (t n : Nat) (s : State) : (State.finishDisarm t n s).per.kept = s.per.kept := by
  unfold State.finishDisarm
  first | (simp; done) | rfl | (repeat' (first | (simp; done) | split))
@[simp] theorem State.restSeq_kept (t n : Nat) (s : State) : (State.restSeq t n s).per.kept = s.per.kept := by
  unfold State.restSeq
  first | (simp; done) | rfl | (repeat' (first | (simp; done) | split))
@[simp] theorem State.gapSlots_kept (t n from_ trig : Nat) (s : State) : (State.gapSlots t n from_ trig s).per.kept = s.per.kept := by
  unfold State.gapSlots
  first | (simp; done) | rfl | (repeat' (first | (simp; done) | split))
@[simp] theorem State.cancelSpec_kept (t n : Nat) (s : State) : (State.cancelSpec t n s).per.kept = s.per.kept := by
  unfold State.cancelSpec
  first | (simp; done) | rfl | (repeat' (first | (simp; done) | split))
@[simp] theorem State.disarmSeq_kept (t n : Nat) (hs : List Hdr) (s : State) : (State.disarmSeq t n hs s).per.kept = s.per.kept := by
  unfold State.disarmSeq
  (try simp)
  repeat' (first | done | (simp; done) | split | intro _ | (simp; split))
@[simp] theorem State.disarmNow_kept (t n : Nat) (s : State) : (State.disarmNow t n s).per.kept = s.per.kept := by
  unfold State.disarmNow
  (try simp)
  repeat' (first | done | (simp; done) | split | intro _ | (simp; split))
@[simp] theorem State.armSeq_kept (t n : Nat) (cfg : Word) (s : State) : (State.armSeq t n cfg s).1.per.kept = s.per.kept := by
  unfold State.armSeq
  first | (simp; done) | rfl | (repeat' (first | (simp; done) | split))
@[simp] theorem State.missScan_kept (t n : Nat) (s : State) : (State.missScan t n s).per.kept = s.per.kept := by
  unfold State.missScan
  (try simp)
  repeat' (first | done | (simp; done) | split | intro _ | (simp; split))
@[simp] theorem State.missJob_kept (t : Nat) (j : Job) (s : State) : (State.missJob t j s).per.kept = s.per.kept := by
  unfold State.missJob
  first | (simp; done) | rfl | (repeat' (first | (simp; done) | split))
@[simp] theorem State.startScan_kept (t n trig : Nat) (keep : Bool) (s : State) : (State.startScan t n trig keep s).per.kept = s.per.kept := by
  unfold State.startScan
  first | (simp; done) | rfl | (repeat' (first | (simp; done) | split))
@[simp] theorem State.overrun_kept (t n : Nat) (s : State) : (State.overrun t n s).per.kept = s.per.kept := by
  unfold State.overrun
  first | (simp; done) | rfl | (repeat' (first | (simp; done) | split))
@[simp] theorem State.policy_kept (t n trig : Nat) (s : State) : (State.policy t n trig s).1.per.kept = s.per.kept := by
  unfold State.policy
  (try simp)
  repeat' (first | done | (simp; done) | split | intro _ | (simp; split))
@[simp] theorem State.triggerIdle_kept (t n trig : Nat) (s : State) : (State.triggerIdle t n trig s).1.per.kept = s.per.kept := by
  unfold State.triggerIdle
  first | (simp; done) | rfl | (repeat' (first | (simp; done) | split))
@[simp] theorem State.accHeld_kept (t n trig : Nat) (late : Bool) (rs : List Result) (s : State) : (State.accHeld t n trig late rs s).per.kept = s.per.kept := by
  unfold State.accHeld
  first | (simp; done) | rfl | (repeat' (first | (simp; done) | split))
@[simp] theorem State.endScanOne_kept (t n : Nat) (s : State) : (State.endScanOne t n s).per.kept = s.per.kept := by
  unfold State.endScanOne
  (try simp)
  repeat' (first | done | (simp; done) | split | intro _ | (simp; split))
@[simp] theorem State.trigger_kept (t n trig : Nat) (s : State) : (State.trigger t n trig s).1.per.kept = s.per.kept := by
  unfold State.trigger
  (try simp)
  repeat' (first | done | (simp; done) | split | intro _ | (simp; split))
@[simp] theorem State.settleScan_kept (t k n : Nat) (s : State) : (State.settleScan t k n s).per.kept = s.per.kept := by
  induction k generalizing n s with
  | zero => simp [State.settleScan]
  | succ k ih =>
    have hc (n : Nat) (s : State) : (forAll (fun m s =>
        if (((s.tile t).seq m).active && ((s.tile t).seq m).src = 4 && ((s.tile t).seq m).param % 8 = n && m ≠ n) = true then
          State.settleScan t k m (s.trigger t m (s.tnow t)).1
        else s) (List.range 8) s).per.kept = s.per.kept :=
      forAll_kept _ (fun m s => by split <;> simp [ih]) _ s
    unfold State.settleScan
    dsimp only
    split
    · split
      · rw [hc]
        simp only [State.restSeq_kept]
        split
        · split <;> simp
        · simp
      · rfl
    · simp
@[simp] theorem State.fire_kept (t n trig : Nat) (s : State) : (State.fire t n trig s).1.per.kept = s.per.kept := by
  unfold State.fire
  (try simp)
  repeat' (first | done | (simp; done) | split | intro _ | (simp; split))
@[simp] theorem State.fireWhere_kept (t src : Nat) (f : Nat → Bool) (trig : Nat) (s : State) : (State.fireWhere t src f trig s).per.kept = s.per.kept := by
  unfold State.fireWhere
  first | (simp; done) | rfl | (repeat' (first | (simp; done) | split))
@[simp] theorem State.startJob_kept (t v : Nat) (src : JobSrc) (input : Nat) (w : Word) (spec : Bool) (s : State) : (State.startJob t v src input w spec s).per.kept = s.per.kept := by
  unfold State.startJob
  first | (simp; done) | rfl | (repeat' (first | (simp; done) | split))
@[simp] theorem State.endInj_kept (t : Nat) (e : Inj) (r : Reply) (s : State) : (State.endInj t e r s).per.kept = s.per.kept := by
  unfold State.endInj
  first | (simp; done) | rfl | (repeat' (first | (simp; done) | split))
@[simp] theorem State.dropJob_kept (t : Nat) (j : Job) (fate : Nat) (broken ovr : Bool) (trig : Tick) (s : State) : (State.dropJob t j fate broken ovr trig s).per.kept = s.per.kept := by
  unfold State.dropJob
  first | (simp; done) | rfl | (repeat' (first | (simp; done) | split))
@[simp] theorem State.slotDone_kept (t : Nat) (j : Job) (acc disc : Nat) (s : State) : (State.slotDone t j acc disc s).per.kept = s.per.kept := by
  unfold State.slotDone
  (try simp)
  repeat' (first | done | (simp; done) | split | intro _ | (simp; split))
@[simp] theorem State.finishJob_kept (t v : Nat) (j : Job) (raw : Int) (ts : Tick) (sides : List (Nat × Nat × Int)) (s : State) : (State.finishJob t v j raw ts sides s).per.kept = s.per.kept := by
  unfold State.finishJob
  (try simp)
  repeat' (first | done | (simp; done) | split | intro _ | (simp; split))
@[simp] theorem State.freeJob_kept (t v : Nat) (s : State) : (State.freeJob t v s).per.kept = s.per.kept := by
  unfold State.freeJob
  first | (simp; done) | rfl | (repeat' (first | (simp; done) | split))
@[simp] theorem State.burnout_kept (t : Nat) (j : Job) (burn : Bool) (x : Sample) (s : State) : (State.burnout t j burn x s).per.kept = s.per.kept := by
  unfold State.burnout
  first | (simp; done) | rfl | (repeat' (first | (simp; done) | split))
@[simp] theorem State.convEnd_kept (t v : Nat) (x : Sample) (s : State) : (State.convEnd t v x s).per.kept = s.per.kept := by
  unfold State.convEnd
  (try simp)
  repeat' (first | done | (simp; done) | split | intro _ | (simp; split))
@[simp] theorem State.dmdOne_kept (t : Nat) (j : Job) (c : Nat) (raw : Int) (forced : Option Nat) (broken past : Bool) (trig : Tick) (s : State) : (State.dmdOne t j c raw forced broken past trig s).1.per.kept = s.per.kept := by
  unfold State.dmdOne
  (try simp)
  repeat' (first | done | (simp; done) | split | intro _ | (simp; split))
@[simp] theorem State.dmdEnd_kept (t : Nat) (d : Demod) (s : State) : (State.dmdEnd t d s).per.kept = s.per.kept := by
  unfold State.dmdEnd
  (try simp)
  repeat' (first | done | (simp; done) | split | intro _ | (simp; split))
@[simp] theorem State.abortInj_kept (t st : Nat) (s : State) : (State.abortInj t st s).per.kept = s.per.kept := by
  unfold State.abortInj
  first | (simp; done) | rfl | (repeat' (first | (simp; done) | split))
@[simp] theorem State.calBackground_kept (t : Nat) (hs : List Hdr) (s : State) : (State.calBackground t hs s).per.kept = s.per.kept := by
  unfold State.calBackground
  first | (simp; done) | rfl | (repeat' (first | (simp; done) | split))
@[simp] theorem State.calApply_kept (t v : Nat) (coef : List (Int × Int)) (bad : Bool) (s : State) : (State.calApply t v coef bad s).per.kept = s.per.kept := by
  unfold State.calApply
  first | (simp; done) | rfl | (repeat' (first | (simp; done) | split))
@[simp] theorem State.calFinish_kept (t : Nat) (s : State) : (State.calFinish t s).per.kept = s.per.kept := by
  unfold State.calFinish
  first | (simp; done) | rfl | (repeat' (first | (simp; done) | split))
@[simp] theorem State.calStepOn_kept (t v : Nat) (coef : List (Int × Int)) (bad : Bool) (s : State) : (State.calStepOn t v coef bad s).per.kept = s.per.kept := by
  unfold State.calStepOn
  first | (simp; done) | rfl | (repeat' (first | (simp; done) | split))
@[simp] theorem State.refRise_kept (t : Nat) (s : State) : (State.refRise t s).per.kept = s.per.kept := by
  unfold State.refRise
  first | (simp; done) | rfl | (repeat' (first | (simp; done) | split))
@[simp] theorem State.refCompareAt_kept (t : Nat) (dev : Int) (s : State) : (State.refCompareAt t dev s).per.kept = s.per.kept := by
  unfold State.refCompareAt
  first | (simp; done) | rfl | (repeat' (first | (simp; done) | split))
@[simp] theorem State.modDi_kept (t c : Nat) (f : DiState → DiState) (s : State) : (State.modDi t c f s).per.kept = s.per.kept := by
  unfold State.modDi
  first | (simp; done) | rfl | (repeat' (first | (simp; done) | split))
@[simp] theorem State.modDic_kept (t c : Nat) (f : DicState → DicState) (s : State) : (State.modDic t c f s).per.kept = s.per.kept := by
  unfold State.modDic
  first | (simp; done) | rfl | (repeat' (first | (simp; done) | split))
@[simp] theorem State.button_kept (t c : Nat) (lvl : Bool) (s : State) : (State.button t c lvl s).per.kept = s.per.kept := by
  unfold State.button
  first | (simp; done) | rfl | (repeat' (first | (simp; done) | split))
@[simp] theorem State.accLevel_kept (t c : Nat) (lvl ev cnt : Bool) (s : State) : (State.accLevel t c lvl ev cnt s).per.kept = s.per.kept := by
  unfold State.accLevel
  first | (simp; done) | rfl | (repeat' (first | (simp; done) | split))
@[simp] theorem State.setValid_kept (t c : Nat) (want lvl : Bool) (s : State) : (State.setValid t c want lvl s).per.kept = s.per.kept := by
  unfold State.setValid
  first | (simp; done) | rfl | (repeat' (first | (simp; done) | split))
@[simp] theorem State.chatLevel_kept (t c : Nat) (lvl : Bool) (s : State) : (State.chatLevel t c lvl s).per.kept = s.per.kept := by
  unfold State.chatLevel
  first | (simp; done) | rfl | (repeat' (first | (simp; done) | split))
@[simp] theorem State.judgeValid_kept (t c : Nat) (s : State) : (State.judgeValid t c s).per.kept = s.per.kept := by
  unfold State.judgeValid
  first | (simp; done) | rfl | (repeat' (first | (simp; done) | split))
@[simp] theorem State.firstLevel_kept (t c : Nat) (s : State) : (State.firstLevel t c s).per.kept = s.per.kept := by
  unfold State.firstLevel
  first | (simp; done) | rfl | (repeat' (first | (simp; done) | split))
@[simp] theorem State.leaveChatter_kept (t c : Nat) (s : State) : (State.leaveChatter t c s).per.kept = s.per.kept := by
  unfold State.leaveChatter
  first | (simp; done) | rfl | (repeat' (first | (simp; done) | split))
@[simp] theorem State.sieveAcc_kept (t c : Nat) (s : State) : (State.sieveAcc t c s).per.kept = s.per.kept := by
  unfold State.sieveAcc
  first | (simp; done) | rfl | (repeat' (first | (simp; done) | split))
@[simp] theorem State.crossing_kept (t c : Nat) (lvl : Bool) (s : State) : (State.crossing t c lvl s).per.kept = s.per.kept := by
  unfold State.crossing
  first | (simp; done) | rfl | (repeat' (first | (simp; done) | split))
@[simp] theorem State.gateEnd_kept (t c : Nat) (s : State) : (State.gateEnd t c s).per.kept = s.per.kept := by
  unfold State.gateEnd
  first | (simp; done) | rfl | (repeat' (first | (simp; done) | split))
@[simp] theorem State.chatWindow_kept (t c : Nat) (s : State) : (State.chatWindow t c s).per.kept = s.per.kept := by
  unfold State.chatWindow
  first | (simp; done) | rfl | (repeat' (first | (simp; done) | split))
@[simp] theorem State.stuckCheck_kept (t c : Nat) (s : State) : (State.stuckCheck t c s).per.kept = s.per.kept := by
  unfold State.stuckCheck
  first | (simp; done) | rfl | (repeat' (first | (simp; done) | split))
@[simp] theorem State.buttonAct_kept (t lo op : Nat) (s : State) : (State.buttonAct t lo op s).per.kept = s.per.kept := by
  unfold State.buttonAct
  first | (simp; done) | rfl | (repeat' (first | (simp; done) | split))
@[simp] theorem State.buttonHold_kept (t lo : Nat) (s : State) : (State.buttonHold t lo s).per.kept = s.per.kept := by
  unfold State.buttonHold
  (try simp)
  repeat' (first | done | (simp; done) | split | intro _ | (simp; split))
@[simp] theorem State.buttonStuck_kept (t c : Nat) (s : State) : (State.buttonStuck t c s).per.kept = s.per.kept := by
  unfold State.buttonStuck
  (try simp)
  repeat' (first | done | (simp; done) | split | intro _ | (simp; split))
@[simp] theorem State.abortAction_kept (t c : Nat) (a : Action) (s : State) : (State.abortAction t c a s).per.kept = s.per.kept := by
  unfold State.abortAction
  first | (simp; done) | rfl | (repeat' (first | (simp; done) | split))
@[simp] theorem State.abortStaged_kept (t c : Nat) (s : State) : (State.abortStaged t c s).per.kept = s.per.kept := by
  unfold State.abortStaged
  first | (simp; done) | rfl | (repeat' (first | (simp; done) | split))
@[simp] theorem State.dropInj_kept (t c : Nat) (left : Bool) (s : State) : (State.dropInj t c left s).per.kept = s.per.kept := by
  unfold State.dropInj
  first | (simp; done) | rfl | (repeat' (first | (simp; done) | split))
@[simp] theorem State.endDiags_kept (t c : Nat) (s : State) : (State.endDiags t c s).per.kept = s.per.kept := by
  unfold State.endDiags
  first | (simp; done) | rfl | (repeat' (first | (simp; done) | split))
@[simp] theorem State.railIdle_kept (t : Nat) (s : State) : (State.railIdle t s).per.kept = s.per.kept := by
  unfold State.railIdle
  first | (simp; done) | rfl | (repeat' (first | (simp; done) | split))
@[simp] theorem State.enterMode_kept (t c : Nat) (n : Chan) (s : State) : (State.enterMode t c n s).per.kept = s.per.kept := by
  unfold State.enterMode
  (try simp)
  repeat' (first | done | (simp; done) | split | intro _ | (simp; split))
@[simp] theorem State.inputCfg_kept (t c : Nat) (old : Chan) (s : State) : (State.inputCfg t c old s).per.kept = s.per.kept := by
  unfold State.inputCfg
  first | (simp; done) | rfl | (repeat' (first | (simp; done) | split))
@[simp] theorem State.chWrite_kept (t c : Nat) (n : Chan) (modeReg cfgReg : Bool) (s : State) : (State.chWrite t c n modeReg cfgReg s).1.per.kept = s.per.kept := by
  unfold State.chWrite
  first | (simp; done) | rfl | (repeat' (first | (simp; done) | split))
@[simp] theorem State.modeWrite_kept (t c : Nat) (w : Word) (s : State) : (State.modeWrite t c w s).1.per.kept = s.per.kept := by
  unfold State.modeWrite
  first | (simp; done) | rfl | (repeat' (first | (simp; done) | split))
@[simp] theorem State.cfgWrite_kept (t c : Nat) (w : Word) (s : State) : (State.cfgWrite t c w s).1.per.kept = s.per.kept := by
  unfold State.cfgWrite
  first | (simp; done) | rfl | (repeat' (first | (simp; done) | split))
@[simp] theorem State.diagWrite_kept (t c : Nat) (w : Word) (s : State) : (State.diagWrite t c w s).1.per.kept = s.per.kept := by
  unfold State.diagWrite
  first | (simp; done) | rfl | (repeat' (first | (simp; done) | split))
@[simp] theorem State.statWrite_kept (t c : Nat) (w : Word) (s : State) : (State.statWrite t c w s).per.kept = s.per.kept := by
  unfold State.statWrite
  first | (simp; done) | rfl | (repeat' (first | (simp; done) | split))
@[simp] theorem State.commitDueOne_kept (t c : Nat) (d : Due) (s : State) : (State.commitDueOne t c d s).per.kept = s.per.kept := by
  unfold State.commitDueOne
  first | (simp; done) | rfl | (repeat' (first | (simp; done) | split))
@[simp] theorem State.commitAction_kept (t c : Nat) (a : Action) (s : State) : (State.commitAction t c a s).per.kept = s.per.kept := by
  unfold State.commitAction
  first | (simp; done) | rfl | (repeat' (first | (simp; done) | split))
@[simp] theorem State.refuseAction_kept (t c reason : Nat) (a : Action) (s : State) : (State.refuseAction t c reason a s).per.kept = s.per.kept := by
  unfold State.refuseAction
  first | (simp; done) | rfl | (repeat' (first | (simp; done) | split))
@[simp] theorem State.arriveAction_kept (a : Action) (s : State) : (State.arriveAction a s).per.kept = s.per.kept := by
  unfold State.arriveAction
  (try simp)
  repeat' (first | done | (simp; done) | split | intro _ | (simp; split))
@[simp] theorem State.commitDue_kept (t c : Nat) (f : Due → Bool) (s : State) : (State.commitDue t c f s).per.kept = s.per.kept := by
  unfold State.commitDue
  first | (simp; done) | rfl | (repeat' (first | (simp; done) | split))
@[simp] theorem State.protect_kept (t l : Nat) (f : OutState → OutState) (s : State) : (State.protect t l f s).per.kept = s.per.kept := by
  unfold State.protect
  first | (simp; done) | rfl | (repeat' (first | (simp; done) | split))
@[simp] theorem State.shortGnd_kept (t c : Nat) (s : State) : (State.shortGnd t c s).per.kept = s.per.kept := by
  unfold State.shortGnd
  first | (simp; done) | rfl | (repeat' (first | (simp; done) | split))
@[simp] theorem State.mirAnew_kept (t c : Nat) (s : State) : (State.mirAnew t c s).per.kept = s.per.kept := by
  unfold State.mirAnew
  first | (simp; done) | rfl | (repeat' (first | (simp; done) | split))
@[simp] theorem State.endProt_kept (t l : Nat) (retry : Bool) (s : State) : (State.endProt t l retry s).per.kept = s.per.kept := by
  unfold State.endProt
  first | (simp; done) | rfl | (repeat' (first | (simp; done) | split))
@[simp] theorem State.overloadRetry_kept (t c : Nat) (s : State) : (State.overloadRetry t c s).per.kept = s.per.kept := by
  unfold State.overloadRetry
  (try simp)
  repeat' (first | done | (simp; done) | split | intro _ | (simp; split))
@[simp] theorem State.thermal_kept (t c : Nat) (s : State) : (State.thermal t c s).per.kept = s.per.kept := by
  unfold State.thermal
  (try simp)
  repeat' (first | done | (simp; done) | split | intro _ | (simp; split))
@[simp] theorem State.thermalEnd_kept (t c : Nat) (s : State) : (State.thermalEnd t c s).per.kept = s.per.kept := by
  unfold State.thermalEnd
  (try simp)
  repeat' (first | done | (simp; done) | split | intro _ | (simp; split))
@[simp] theorem State.overDecl_kept (t c : Nat) (s : State) : (State.overDecl t c s).per.kept = s.per.kept := by
  unfold State.overDecl
  first | (simp; done) | rfl | (repeat' (first | (simp; done) | split))
@[simp] theorem State.shortOver_kept (t : Nat) (s : State) : (State.shortOver t s).per.kept = s.per.kept := by
  unfold State.shortOver
  refine forAll_kept _ (fun c s => ?_) _ _
  dsimp only
  split
  · split
    · simp
    · split <;> simp
  · rfl
@[simp] theorem State.openOn_kept (t c : Nat) (low : Bool) (s : State) : (State.openOn t c low s).per.kept = s.per.kept := by
  unfold State.openOn
  first | (simp; done) | rfl | (repeat' (first | (simp; done) | split))
@[simp] theorem State.resolve_kept (t c : Nat) (s : State) : (State.resolve t c s).per.kept = s.per.kept := by
  unfold State.resolve
  first | (simp; done) | rfl | (repeat' (first | (simp; done) | split))
@[simp] theorem State.suspectPin_kept (t c how : Nat) (mv : Int) (s : State) : (State.suspectPin t c how mv s).per.kept = s.per.kept := by
  unfold State.suspectPin
  first | (simp; done) | rfl | (repeat' (first | (simp; done) | split))
@[simp] theorem State.tie_kept (t a b : Nat) (s : State) : (State.tie t a b s).per.kept = s.per.kept := by
  unfold State.tie
  first | (simp; done) | rfl | (repeat' (first | (simp; done) | split))
@[simp] theorem State.untie_kept (t a : Nat) (s : State) : (State.untie t a s).per.kept = s.per.kept := by
  unfold State.untie
  first | (simp; done) | rfl | (repeat' (first | (simp; done) | split))
@[simp] theorem State.offCheck_kept (t c : Nat) (mv : Int) (s : State) : (State.offCheck t c mv s).per.kept = s.per.kept := by
  unfold State.offCheck
  first | (simp; done) | rfl | (repeat' (first | (simp; done) | split))
@[simp] theorem State.ownPin_kept (t l k : Nat) (mv : Int) (s : State) : (State.ownPin t l k mv s).per.kept = s.per.kept := by
  unfold State.ownPin
  (try simp)
  repeat' (first | done | (simp; done) | split | intro _ | (simp; split))
@[simp] theorem State.otherPin_kept (t l k : Nat) (mv : Int) (s : State) : (State.otherPin t l k mv s).per.kept = s.per.kept := by
  unfold State.otherPin
  first | (simp; done) | rfl | (repeat' (first | (simp; done) | split))
@[simp] theorem State.darkPulse_kept (t c ua : Nat) (pins : List (Nat × Int)) (s : State) : (State.darkPulse t c ua pins s).per.kept = s.per.kept := by
  unfold State.darkPulse
  first | (simp; done) | rfl | (repeat' (first | (simp; done) | split))
@[simp] theorem State.pinClamp_kept (t c : Nat) (acting : Bool) (s : State) : (State.pinClamp t c acting s).per.kept = s.per.kept := by
  unfold State.pinClamp
  first | (simp; done) | rfl | (repeat' (first | (simp; done) | split))
@[simp] theorem State.surge_kept (t c : Nat) (mv : Int) (ma : Nat) (s : State) : (State.surge t c mv ma s).per.kept = s.per.kept := by
  unfold State.surge
  first | (simp; done) | rfl | (repeat' (first | (simp; done) | split))
@[simp] theorem State.surgeOver_kept (t c : Nat) (s : State) : (State.surgeOver t c s).per.kept = s.per.kept := by
  unfold State.surgeOver
  first | (simp; done) | rfl | (repeat' (first | (simp; done) | split))
@[simp] theorem State.dropStaged_kept (t c : Nat) (s : State) : (State.dropStaged t c s).per.kept = s.per.kept := by
  unfold State.dropStaged
  first | (simp; done) | rfl | (repeat' (first | (simp; done) | split))
@[simp] theorem State.loseField_kept (t : Nat) (s : State) : (State.loseField t s).per.kept = s.per.kept := by
  unfold State.loseField
  first | (simp; done) | rfl | (repeat' (first | (simp; done) | split))
@[simp] theorem State.energise_kept (t c : Nat) (s : State) : (State.energise t c s).per.kept = s.per.kept := by
  unfold State.energise
  first | (simp; done) | rfl | (repeat' (first | (simp; done) | split))
@[simp] theorem State.regainField_kept (t : Nat) (s : State) : (State.regainField t s).per.kept = s.per.kept := by
  unfold State.regainField
  first | (simp; done) | rfl | (repeat' (first | (simp; done) | split))
@[simp] theorem State.reenSlot_kept (t : Nat) (s : State) : (State.reenSlot t s).per.kept = s.per.kept := by
  unfold State.reenSlot
  first | (simp; done) | rfl | (repeat' (first | (simp; done) | split))
@[simp] theorem State.lplus_kept (t : Nat) (cv : Int) (s : State) : (State.lplus t cv s).per.kept = s.per.kept := by
  unfold State.lplus
  first | (simp; done) | rfl | (repeat' (first | (simp; done) | split))
@[simp] theorem State.aoDiag_kept (t c b n : Nat) (on : Bool) (s : State) : (State.aoDiag t c b n on s).per.kept = s.per.kept := by
  unfold State.aoDiag
  first | (simp; done) | rfl | (repeat' (first | (simp; done) | split))
@[simp] theorem State.aoLatch_kept (t c : Nat) (s : State) : (State.aoLatch t c s).per.kept = s.per.kept := by
  unfold State.aoLatch
  first | (simp; done) | rfl | (repeat' (first | (simp; done) | split))
@[simp] theorem State.aoReadback_kept (t c : Nat) (r : Readback) (s : State) : (State.aoReadback t c r s).per.kept = s.per.kept := by
  unfold State.aoReadback
  first | (simp; done) | rfl | (repeat' (first | (simp; done) | split))
@[simp] theorem State.crail_kept (t dv : Nat) (s : State) : (State.crail t dv s).per.kept = s.per.kept := by
  unfold State.crail
  first | (simp; done) | rfl | (repeat' (first | (simp; done) | split))
@[simp] theorem State.foldback_kept (t c : Nat) (s : State) : (State.foldback t c s).per.kept = s.per.kept := by
  unfold State.foldback
  first | (simp; done) | rfl | (repeat' (first | (simp; done) | split))
@[simp] theorem State.foldRetry_kept (t c ua : Nat) (s : State) : (State.foldRetry t c ua s).per.kept = s.per.kept := by
  unfold State.foldRetry
  first | (simp; done) | rfl | (repeat' (first | (simp; done) | split))
@[simp] theorem State.excCycle_kept (t c : Nat) (lim : Limiting) (na : Nat) (s : State) : (State.excCycle t c lim na s).per.kept = s.per.kept := by
  unfold State.excCycle
  first | (simp; done) | rfl | (repeat' (first | (simp; done) | split))
@[simp] theorem State.mirStart_kept (t c : Nat) (s : State) : (State.mirStart t c s).per.kept = s.per.kept := by
  unfold State.mirStart
  (try simp)
  repeat' (first | done | (simp; done) | split | intro _ | (simp; split))
@[simp] theorem State.tileTemp_kept (t : Nat) (a b d : Int) (s : State) : (State.tileTemp t a b d s).per.kept = s.per.kept := by
  unfold State.tileTemp
  first | (simp; done) | rfl | (repeat' (first | (simp; done) | split))
@[simp] theorem State.modTxn_kept (p : PortId) (tag : Nat) (f : Txn → Txn) (s : State) : (State.modTxn p tag f s).per.kept = s.per.kept := by
  unfold State.modTxn
  first | (simp; done) | rfl | (repeat' (first | (simp; done) | split))
@[simp] theorem State.submitTxn_kept (h : Hdr) (c : Tick) (ms : List Member) (s : State) : (State.submitTxn h c ms s).1.per.kept = s.per.kept := by
  unfold State.submitTxn
  (try simp)
  repeat' (first | done | (simp; done) | split | intro _ | (simp; split))
@[simp] theorem State.txnArrive_kept (p : PortId) (tag t : Nat) (s : State) : (State.txnArrive p tag t s).per.kept = s.per.kept := by
  unfold State.txnArrive
  first | (simp; done) | rfl | (repeat' (first | (simp; done) | split))
@[simp] theorem State.txnGot_kept (p : PortId) (tag t : Nat) (s : State) : (State.txnGot p tag t s).per.kept = s.per.kept := by
  unfold State.txnGot
  (try simp)
  repeat' (first | done | (simp; done) | split | intro _ | (simp; split))
@[simp] theorem State.holdPulses_kept (c : Tick) (mem : List Member) (s : State) : (State.holdPulses c mem s).per.kept = s.per.kept := by
  unfold State.holdPulses
  first | (simp; done) | rfl | (repeat' (first | (simp; done) | split))
@[simp] theorem State.txnDecide_kept (p : PortId) (tag : Nat) (s : State) : (State.txnDecide p tag s).per.kept = s.per.kept := by
  unfold State.txnDecide
  first | (simp; done) | rfl | (repeat' (first | (simp; done) | split))
@[simp] theorem State.txnTold_kept (p : PortId) (tag t : Nat) (s : State) : (State.txnTold p tag t s).per.kept = s.per.kept := by
  unfold State.txnTold
  first | (simp; done) | rfl | (repeat' (first | (simp; done) | split))
@[simp] theorem State.txnMember_kept (x : Txn) (m : Member) (s : State) : (State.txnMember x m s).per.kept = s.per.kept := by
  unfold State.txnMember
  first | (simp; done) | rfl | (repeat' (first | (simp; done) | split))
@[simp] theorem State.txnOrphan_kept (x : Txn) (t : Nat) (s : State) : (State.txnOrphan x t s).per.kept = s.per.kept := by
  unfold State.txnOrphan
  first | (simp; done) | rfl | (repeat' (first | (simp; done) | split))
@[simp] theorem State.txnCommit_kept (p : PortId) (tag t : Nat) (s : State) : (State.txnCommit p tag t s).per.kept = s.per.kept := by
  unfold State.txnCommit
  first | (simp; done) | rfl | (repeat' (first | (simp; done) | split))
@[simp] theorem State.txnReport_kept (p : PortId) (tag t : Nat) (s : State) : (State.txnReport p tag t s).per.kept = s.per.kept := by
  unfold State.txnReport
  (try simp)
  repeat' (first | done | (simp; done) | split | intro _ | (simp; split))
@[simp] theorem State.cancelTxn_kept (p : PortId) (tag : Nat) (s : State) : (State.cancelTxn p tag s).1.per.kept = s.per.kept := by
  unfold State.cancelTxn
  first | (simp; done) | rfl | (repeat' (first | (simp; done) | split))
@[simp] theorem State.txnOffline_kept (t : Nat) (s : State) : (State.txnOffline t s).per.kept = s.per.kept := by
  unfold State.txnOffline
  first | (simp; done) | rfl | (repeat' (first | (simp; done) | split))
@[simp] theorem State.txnLost_kept (t : Nat) (s : State) : (State.txnLost t s).per.kept = s.per.kept := by
  unfold State.txnLost
  first | (simp; done) | rfl | (repeat' (first | (simp; done) | split))
@[simp] theorem State.cancelActions_kept (p : PortId) (g : Nat) (s : State) : (State.cancelActions p g s).1.per.kept = s.per.kept := by
  unfold State.cancelActions
  first | (simp; done) | rfl | (repeat' (first | (simp; done) | split))
@[simp] theorem State.linkDisarm_kept (t n : Nat) (s : State) : (State.linkDisarm t n s).per.kept = s.per.kept := by
  unfold State.linkDisarm
  first | (simp; done) | rfl | (repeat' (first | (simp; done) | split))
@[simp] theorem State.linkStreams_kept (t : Nat) (cs : List Nat) (n : Nat) (b : Bool) (s : State) :
    (State.linkStreams t cs n b s).per.kept = s.per.kept := by
  induction cs generalizing n b s with
  | nil => simp [State.linkStreams]
  | cons c cs ih => simp [State.linkStreams, ih]
@[simp] theorem State.linkReadmit_kept (t : Nat) (s : State) : (State.linkReadmit t s).per.kept = s.per.kept := by
  unfold State.linkReadmit
  (try simp)
  repeat' (first | done | (simp; done) | split | intro _ | (simp; split))
@[simp] theorem State.loseSight_kept (t : Nat) (s : State) : (State.loseSight t s).per.kept = s.per.kept := by
  unfold State.loseSight
  first | (simp; done) | rfl | (repeat' (first | (simp; done) | split))
@[simp] theorem State.findSight_kept (t : Nat) (f : Link → Link) (s : State) : (State.findSight t f s).per.kept = s.per.kept := by
  unfold State.findSight
  first | (simp; done) | rfl | (repeat' (first | (simp; done) | split))
@[simp] theorem State.laneFail_kept (t m : Nat) (s : State) : (State.laneFail t m s).per.kept = s.per.kept := by
  unfold State.laneFail
  first | (simp; done) | rfl | (repeat' (first | (simp; done) | split))
@[simp] theorem State.badFrame_kept (t lane : Nat) (s : State) : (State.badFrame t lane s).per.kept = s.per.kept := by
  unfold State.badFrame
  first | (simp; done) | rfl | (repeat' (first | (simp; done) | split))
@[simp] theorem State.linkReturn_kept (t lanes : Nat) (s : State) : (State.linkReturn t lanes s).per.kept = s.per.kept := by
  unfold State.linkReturn
  first | (simp; done) | rfl | (repeat' (first | (simp; done) | split))
@[simp] theorem State.abandonSeqs_kept (t : Nat) (s : State) : (State.abandonSeqs t s).per.kept = s.per.kept := by
  unfold State.abandonSeqs
  dsimp only
  refine (forAll_kept _ (fun n s => ?_) _ _).trans ?_
  · split <;> simp
  · simp
@[simp] theorem State.staleLines_kept (t : Nat) (on : Bool) (s : State) : (State.staleLines t on s).per.kept = s.per.kept := by
  unfold State.staleLines
  first | (simp; done) | rfl | (repeat' (first | (simp; done) | split))
@[simp] theorem State.tileDown_kept (t : Nat) (s : State) : (State.tileDown t s).per.kept = s.per.kept := by
  have h (s : State) : (forAll (fun c s => s.abortStaged t c) chanNos s).per.kept = s.per.kept := by simp
  unfold State.tileDown
  refine (State.refresh_kept _ _).trans <| (State.staleLines_kept _ _ _).trans <| (State.stopWhere_kept _ _ _ _).trans <|
    (State.stopWhere_kept _ _ _ _).trans <| (State.abortInj_kept _ _ _).trans <| (State.abandonSeqs_kept _ _).trans <|
    (State.txnOffline_kept _ _).trans <| h s
@[simp] theorem State.startReadmit_kept (t : Nat) (h : Option Hdr) (s : State) : (State.startReadmit t h s).per.kept = s.per.kept := by
  unfold State.startReadmit
  first | (simp; done) | rfl | (repeat' (first | (simp; done) | split))
@[simp] theorem State.enterBlock_kept (t : Nat) (off : Bool) (c : Cause) (s : State) : (State.enterBlock t off c s).per.kept = s.per.kept := by
  unfold State.enterBlock
  first | (simp; done) | rfl | (repeat' (first | (simp; done) | split))
@[simp] theorem State.takeDown_kept (t : Nat) (off : Bool) (c : Cause) (s : State) : (State.takeDown t off c s).per.kept = s.per.kept := by
  unfold State.takeDown
  first | (simp; done) | rfl | (repeat' (first | (simp; done) | split))
@[simp] theorem State.goOffline_kept (t : Nat) (h : Hdr) (s : State) : (State.goOffline t h s).per.kept = s.per.kept := by
  unfold State.goOffline
  first | (simp; done) | rfl | (repeat' (first | (simp; done) | split))
@[simp] theorem State.nowOffline_kept (t : Nat) (s : State) : (State.nowOffline t s).per.kept = s.per.kept := by
  unfold State.nowOffline
  first | (simp; done) | rfl | (repeat' (first | (simp; done) | split))
@[simp] theorem State.leaveBlock_kept (t : Nat) (s : State) : (State.leaveBlock t s).per.kept = s.per.kept := by
  unfold State.leaveBlock
  first | (simp; done) | rfl | (repeat' (first | (simp; done) | split))
@[simp] theorem State.endReadmit_kept (t : Nat) (ok : Bool) (lanes : Nat) (s : State) : (State.endReadmit t ok lanes s).per.kept = s.per.kept := by
  unfold State.endReadmit
  first | (simp; done) | rfl | (repeat' (first | (simp; done) | split))
@[simp] theorem State.barrierLoss_kept (t : Nat) (s : State) : (State.barrierLoss t s).per.kept = s.per.kept := by
  unfold State.barrierLoss
  first | (simp; done) | rfl | (repeat' (first | (simp; done) | split))
@[simp] theorem State.barrierResume_kept (t : Nat) (s : State) : (State.barrierResume t s).per.kept = s.per.kept := by
  unfold State.barrierResume
  first | (simp; done) | rfl | (repeat' (first | (simp; done) | split))
@[simp] theorem State.loadEng_kept (n t : Nat) (b : Option Nat) (s : State) : (State.loadEng n t b s).per.kept = s.per.kept := by
  unfold State.loadEng
  first | (simp; done) | rfl | (repeat' (first | (simp; done) | split))
@[simp] theorem State.loaded_kept (n : Nat) (st : EngSt) (t : Nat) (s : State) : (State.loaded n st t s).per.kept = s.per.kept := by
  unfold State.loaded
  first | (simp; done) | rfl | (repeat' (first | (simp; done) | split))
@[simp] theorem State.startRot_kept (t b : Nat) (h : Option Hdr) (s : State) : (State.startRot t b h s).per.kept = s.per.kept := by
  unfold State.startRot
  first | (simp; done) | rfl | (repeat' (first | (simp; done) | split))
@[simp] theorem State.endRot_kept (outcome st : Nat) (keep : Bool) (s : State) : (State.endRot outcome st keep s).per.kept = s.per.kept := by
  unfold State.endRot
  first | (simp; done) | rfl | (repeat' (first | (simp; done) | split))
@[simp] theorem State.rotLoaded_kept (ok : Bool) (s : State) : (State.rotLoaded ok s).per.kept = s.per.kept := by
  unfold State.rotLoaded
  first | (simp; done) | rfl | (repeat' (first | (simp; done) | split))
@[simp] theorem State.rotCopied_kept (ok : Bool) (s : State) : (State.rotCopied ok s).per.kept = s.per.kept := by
  unfold State.rotCopied
  first | (simp; done) | rfl | (repeat' (first | (simp; done) | split))
@[simp] theorem State.rotGap_kept (s : State) : (State.rotGap s).per.kept = s.per.kept := by
  unfold State.rotGap
  first | (simp; done) | rfl | (repeat' (first | (simp; done) | split))
@[simp] theorem State.rotDone_kept (s : State) : (State.rotDone s).per.kept = s.per.kept := by
  unfold State.rotDone
  first | (simp; done) | rfl | (repeat' (first | (simp; done) | split))
@[simp] theorem State.failCommands_kept (t : Nat) (s : State) : (State.failCommands t s).per.kept = s.per.kept := by
  unfold State.failCommands
  first | (simp; done) | rfl | (repeat' (first | (simp; done) | split))
@[simp] theorem State.dropWaiting_kept (t : Nat) (s : State) : (State.dropWaiting t s).per.kept = s.per.kept := by
  unfold State.dropWaiting
  first | (simp; done) | rfl | (repeat' (first | (simp; done) | split))
@[simp] theorem State.takeRepair_kept (t n k : Nat) (e : Tick) (img : Option Nat) (holds : Bool) (s : State) : (State.takeRepair t n k e img holds s).per.kept = s.per.kept := by
  unfold State.takeRepair
  first | (simp; done) | rfl | (repeat' (first | (simp; done) | split))
@[simp] theorem State.startRepair_kept (t n : Nat) (img : Option Nat) (s : State) : (State.startRepair t n img s).per.kept = s.per.kept := by
  unfold State.startRepair
  (try simp)
  repeat' (first | done | (simp; done) | split | intro _ | (simp; split))
@[simp] theorem State.endGap_kept (outcome st : Nat) (s : State) : (State.endGap outcome st s).per.kept = s.per.kept := by
  unfold State.endGap
  first | (simp; done) | rfl | (repeat' (first | (simp; done) | split))
@[simp] theorem State.rotTimeout_kept (s : State) : (State.rotTimeout s).per.kept = s.per.kept := by
  unfold State.rotTimeout
  first | (simp; done) | rfl | (repeat' (first | (simp; done) | split))
@[simp] theorem State.retire_kept (n : Nat) (s : State) : (State.retire n s).per.kept = s.per.kept := by
  unfold State.retire
  first | (simp; done) | rfl | (repeat' (first | (simp; done) | split))
@[simp] theorem State.assignRepairs_kept (s : State) : (State.assignRepairs s).per.kept = s.per.kept := by
  unfold State.assignRepairs
  (try simp)
  repeat' (first | done | (simp; done) | split | intro _ | (simp; split))
@[simp] theorem State.repaired_kept (t : Nat) (s : State) : (State.repaired t s).per.kept = s.per.kept := by
  unfold State.repaired
  first | (simp; done) | rfl | (repeat' (first | (simp; done) | split))
@[simp] theorem State.depotLoaded_kept (n : Nat) (ok : Bool) (s : State) : (State.depotLoaded n ok s).per.kept = s.per.kept := by
  unfold State.depotLoaded
  first | (simp; done) | rfl | (repeat' (first | (simp; done) | split))
@[simp] theorem State.abortRot_kept (t : Nat) (s : State) : (State.abortRot t s).per.kept = s.per.kept := by
  unfold State.abortRot
  first | (simp; done) | rfl | (repeat' (first | (simp; done) | split))
@[simp] theorem State.endWatchdog_kept (t : Nat) (s : State) : (State.endWatchdog t s).per.kept = s.per.kept := by
  unfold State.endWatchdog
  first | (simp; done) | rfl | (repeat' (first | (simp; done) | split))
@[simp] theorem State.serveWatchdog_kept (t : Nat) (s : State) : (State.serveWatchdog t s).per.kept = s.per.kept := by
  unfold State.serveWatchdog
  first | (simp; done) | rfl | (repeat' (first | (simp; done) | split))
@[simp] theorem State.expireWatchdog_kept (t : Nat) (s : State) : (State.expireWatchdog t s).per.kept = s.per.kept := by
  unfold State.expireWatchdog
  first | (simp; done) | rfl | (repeat' (first | (simp; done) | split))
@[simp] theorem State.modSram_kept (b : Nat) (f : Sram → Sram) (s : State) : (State.modSram b f s).per.kept = s.per.kept := by
  unfold State.modSram
  first | (simp; done) | rfl | (repeat' (first | (simp; done) | split))
@[simp] theorem State.railAdjust_kept (k margin : Nat) (s : State) : (State.railAdjust k margin s).per.kept = s.per.kept := by
  unfold State.railAdjust
  first | (simp; done) | rfl | (repeat' (first | (simp; done) | split))
@[simp] theorem State.railRecover_kept (k : Nat) (s : State) : (State.railRecover k s).per.kept = s.per.kept := by
  unfold State.railRecover
  first | (simp; done) | rfl | (repeat' (first | (simp; done) | split))
@[simp] theorem State.retention_kept (k : Nat) (s : State) : (State.retention k s).per.kept = s.per.kept := by
  unfold State.retention
  first | (simp; done) | rfl | (repeat' (first | (simp; done) | split))
@[simp] theorem State.renewPower_kept (draws : List Nat) (s : State) : (State.renewPower draws s).per.kept = s.per.kept := by
  unfold State.renewPower
  first | (simp; done) | rfl | (repeat' (first | (simp; done) | split))
@[simp] theorem State.repairRow_kept (b row : Nat) (s : State) : (State.repairRow b row s).per.kept = s.per.kept := by
  unfold State.repairRow
  first | (simp; done) | rfl | (repeat' (first | (simp; done) | split))
@[simp] theorem State.scrub_kept (b row : Nat) (single : Bool) (s : State) : (State.scrub b row single s).per.kept = s.per.kept := by
  unfold State.scrub
  first | (simp; done) | rfl | (repeat' (first | (simp; done) | split))
@[simp] theorem State.loseMerge_kept (item : Nat) (s : State) : (State.loseMerge item s).per.kept = s.per.kept := by
  unfold State.loseMerge
  first | (simp; done) | rfl | (repeat' (first | (simp; done) | split))
@[simp] theorem State.loseCtx_kept (p c : Nat) (s : State) : (State.loseCtx p c s).per.kept = s.per.kept := by
  unfold State.loseCtx
  first | (simp; done) | rfl | (repeat' (first | (simp; done) | split))
@[simp] theorem State.doubleBit_kept (b row item : Nat) (s : State) : (State.doubleBit b row item s).per.kept = s.per.kept := by
  unfold State.doubleBit
  first | (simp; done) | rfl | (repeat' (first | (simp; done) | split))
@[simp] theorem State.ringError_kept (p : PortId) (r kind : Nat) (s : State) : (State.ringError p r kind s).per.kept = s.per.kept := by
  unfold State.ringError
  first | (simp; done) | rfl | (repeat' (first | (simp; done) | split))
@[simp] theorem State.rejoin_kept (p : PortId) (r : Nat) (s : State) : (State.rejoin p r s).per.kept = s.per.kept := by
  unfold State.rejoin
  first | (simp; done) | rfl | (repeat' (first | (simp; done) | split))
@[simp] theorem State.ringEnable_kept (p : PortId) (r : Nat) (w : Word) (s : State) : (State.ringEnable p r w s).per.kept = s.per.kept := by
  unfold State.ringEnable
  first | (simp; done) | rfl | (repeat' (first | (simp; done) | split))
@[simp] theorem State.ringDisable_kept (p : PortId) (r : Nat) (w : Word) (s : State) : (State.ringDisable p r w s).per.kept = s.per.kept := by
  unfold State.ringDisable
  first | (simp; done) | rfl | (repeat' (first | (simp; done) | split))
@[simp] theorem State.pumpAll_kept (s : State) : (State.pumpAll s).per.kept = s.per.kept := by
  unfold State.pumpAll
  first | (simp; done) | rfl | (repeat' (first | (simp; done) | split))
@[simp] theorem State.setLive_kept (p : PortId) (s : State) : (State.setLive p s).per.kept = s.per.kept := by
  unfold State.setLive
  first | (simp; done) | rfl | (repeat' (first | (simp; done) | split))
@[simp] theorem State.portCtrl_kept (p : PortId) (w : Word) (s : State) : (State.portCtrl p w s).per.kept = s.per.kept := by
  unfold State.portCtrl
  first | (simp; done) | rfl | (repeat' (first | (simp; done) | split))
@[simp] theorem State.portLive_kept (p : PortId) (linkUp busMaster : Bool) (speed width : Nat) (l1 : Bool) (s : State) : (State.portLive p linkUp busMaster speed width l1 s).per.kept = s.per.kept := by
  unfold State.portLive
  first | (simp; done) | rfl | (repeat' (first | (simp; done) | split))
@[simp] theorem State.resetPort_kept (p : PortId) (s : State) : (State.resetPort p s).per.kept = s.per.kept := by
  unfold State.resetPort
  first | (simp; done) | rfl | (repeat' (first | (simp; done) | split))
@[simp] theorem State.takeProd_kept (p : PortId) (r v : Nat) (s : State) : (State.takeProd p r v s).per.kept = s.per.kept := by
  unfold State.takeProd
  first | (simp; done) | rfl | (repeat' (first | (simp; done) | split))
@[simp] theorem State.poll_kept (p : PortId) (prods : List Nat) (fails : Bool) (s : State) : (State.poll p prods fails s).per.kept = s.per.kept := by
  unfold State.poll
  first | (simp; done) | rfl | (repeat' (first | (simp; done) | split))
@[simp] theorem State.bar2Write_kept (p : PortId) (offset : Nat) (w : Word) (s : State) : (State.bar2Write p offset w s).per.kept = s.per.kept := by
  unfold State.bar2Write
  first | (simp; done) | rfl | (repeat' (first | (simp; done) | split))
@[simp] theorem State.message_kept (p : PortId) (r : Nat) (s : State) : (State.message p r s).per.kept = s.per.kept := by
  unfold State.message
  first | (simp; done) | rfl | (repeat' (first | (simp; done) | split))
@[simp] theorem State.fetch_kept (p : PortId) (r : Nat) (d : Desc) (s : State) : (State.fetch p r d s).per.kept = s.per.kept := by
  unfold State.fetch
  dsimp only
  split
  · rfl
  · split
    · exact (State.reply_kept _ _ _ _).trans <| (State.begun_kept _ _).trans <| (State.rouse_kept _ _).trans (State.modPort_kept _ _ _)
    · split
      · exact (State.reply_kept _ _ _ _).trans <| (State.begun_kept _ _).trans <| (State.rouse_kept _ _).trans (State.modPort_kept _ _ _)
      · exact (State.rouse_kept _ _).trans (State.modPort_kept _ _ _)
@[simp] theorem State.taken_kept (h : Hdr) (op : Nat) (s : State) : (State.taken h op s).per.kept = s.per.kept := by
  unfold State.taken
  first | (simp; done) | rfl | (repeat' (first | (simp; done) | split))
@[simp] theorem State.cmdMargin_kept (h : Hdr) (op : Nat) (s : State) : (State.cmdMargin h op s).per.kept = s.per.kept := by
  unfold State.cmdMargin
  first | (simp; done) | rfl | (repeat' (first | (simp; done) | split))
@[simp] theorem State.begin__kept (h : Hdr) (op : Nat) (c : Cmd) (act : State → State × Option Reply) (s : State) (h_act : ∀ s, (act s).1.per.kept = s.per.kept) : (State.begin_ h op c act s).per.kept = s.per.kept := by
  unfold State.begin_
  (try simp [h_act])
  repeat' (first | done | (simp [h_act]; done) | split | intro _ | (simp [h_act]; split))
@[simp] theorem State.runCmd_kept (h : Hdr) (op : Nat) (c : Cmd) (act : State → State × Option Reply) (s : State) (h_act : ∀ s, (act s).1.per.kept = s.per.kept) : (State.runCmd h op c act s).per.kept = s.per.kept := by
  unfold State.runCmd
  (try simp [h_act])
  repeat' (first | done | (simp [h_act]; done) | split | intro _ | (simp [h_act]; split))
@[simp] theorem State.waitPast_kept (p : PortId) (r n : Nat) (s : State) : (State.waitPast p r n s).per.kept = s.per.kept := by
  unfold State.waitPast
  first | (simp; done) | rfl | (repeat' (first | (simp; done) | split))
@[simp] theorem State.grant_kept (o : Own) (p : PortId) (cls first count cause : Nat) (f : Option PortId → Bool) (v : Option PortId) (s : State) : (State.grant o p cls first count cause f v s).per.kept = s.per.kept := by
  unfold State.grant
  first | (simp; done) | rfl | (repeat' (first | (simp; done) | split))
@[simp] theorem State.denied_kept (p : PortId) (cls first count : Nat) (s : State) : (State.denied p cls first count s).per.kept = s.per.kept := by
  unfold State.denied
  first | (simp; done) | rfl | (repeat' (first | (simp; done) | split))
@[simp] theorem State.claimIn_kept (o : Own) (p : PortId) (cls first count : Nat) (s : State) : (State.claimIn o p cls first count s).1.per.kept = s.per.kept := by
  unfold State.claimIn
  (try simp)
  repeat' (first | done | (simp; done) | split | intro _ | (simp; split))
@[simp] theorem State.releaseIn_kept (o : Own) (p : PortId) (cls first count : Nat) (s : State) : (State.releaseIn o p cls first count s).1.per.kept = s.per.kept := by
  unfold State.releaseIn
  first | (simp; done) | rfl | (repeat' (first | (simp; done) | split))
@[simp] theorem State.handoverIn_kept (o : Own) (p : PortId) (cls first count : Nat) (s : State) : (State.handoverIn o p cls first count s).1.per.kept = s.per.kept := by
  unfold State.handoverIn
  (try simp)
  repeat' (first | done | (simp; done) | split | intro _ | (simp; split))
@[simp] theorem State.takeoverIn_kept (o : Own) (p : PortId) (cls first count : Nat) (s : State) : (State.takeoverIn o p cls first count s).1.per.kept = s.per.kept := by
  unfold State.takeoverIn
  (try simp)
  repeat' (first | done | (simp; done) | split | intro _ | (simp; split))
@[simp] theorem State.ownRow_kept (c : Instr) (s : State) : (State.ownRow c s).per.kept = s.per.kept := by
  unfold State.ownRow
  first | (simp; done) | rfl | (repeat' (first | (simp; done) | split))
@[simp] theorem State.claim_kept (p : PortId) (cls first count : Nat) (s : State) : (State.claim p cls first count s).1.per.kept = s.per.kept := by
  unfold State.claim
  (try simp)
  repeat' (first | done | (simp; done) | split | intro _ | (simp; split))
@[simp] theorem State.releaseOwn_kept (p : PortId) (cls first count : Nat) (s : State) : (State.releaseOwn p cls first count s).1.per.kept = s.per.kept := by
  unfold State.releaseOwn
  first | (simp; done) | rfl | (repeat' (first | (simp; done) | split))
@[simp] theorem State.handover_kept (p : PortId) (cls first count : Nat) (s : State) : (State.handover p cls first count s).1.per.kept = s.per.kept := by
  unfold State.handover
  (try simp)
  repeat' (first | done | (simp; done) | split | intro _ | (simp; split))
@[simp] theorem State.takeover_kept (p : PortId) (cls first count : Nat) (s : State) : (State.takeover p cls first count s).1.per.kept = s.per.kept := by
  unfold State.takeover
  first | (simp; done) | rfl | (repeat' (first | (simp; done) | split))
@[simp] theorem State.lockRow_kept (c : Instr) (s : State) : (State.lockRow c s).per.kept = s.per.kept := by
  unfold State.lockRow
  first | (simp; done) | rfl | (repeat' (first | (simp; done) | split))
@[simp] theorem State.lockCmd_kept (p : PortId) (unlock : Bool) (key : Nat) (s : State) : (State.lockCmd p unlock key s).1.per.kept = s.per.kept := by
  unfold State.lockCmd
  first | (simp; done) | rfl | (repeat' (first | (simp; done) | split))
@[simp] theorem State.ackOne_kept (k i : Nat) (s : State) : (State.ackOne k i s).per.kept = s.per.kept := by
  unfold State.ackOne
  first | (simp; done) | rfl | (repeat' (first | (simp; done) | split))
@[simp] theorem State.endOrphans_kept (t : Nat) (s : State) : (State.endOrphans t s).per.kept = s.per.kept := by
  unfold State.endOrphans
  first | (simp; done) | rfl | (repeat' (first | (simp; done) | split))
@[simp] theorem State.ackBlk_kept (k mask : Nat) (s : State) : (State.ackBlk k mask s).1.per.kept = s.per.kept := by
  unfold State.ackBlk
  first | (simp; done) | rfl | (repeat' (first | (simp; done) | split))
@[simp] theorem State.presentEnd_kept (k i : Nat) (s : State) : (State.presentEnd k i s).per.kept = s.per.kept := by
  unfold State.presentEnd
  first | (simp; done) | rfl | (repeat' (first | (simp; done) | split))
@[simp] theorem State.logRead_kept (h : Hdr) (log count addr start : Nat) (s : State) : (State.logRead h log count addr start s).1.per.kept = s.per.kept := by
  unfold State.logRead
  first | (simp; done) | rfl | (repeat' (first | (simp; done) | split))
@[simp] theorem State.windowEnd_kept (s : State) : (State.windowEnd s).per.kept = s.per.kept := by
  unfold State.windowEnd
  first | (simp; done) | rfl | (repeat' (first | (simp; done) | split))
@[simp] theorem State.mirrorWrite_kept (fails : Bool) (s : State) : (State.mirrorWrite fails s).per.kept = s.per.kept := by
  unfold State.mirrorWrite
  first | (simp; done) | rfl | (repeat' (first | (simp; done) | split))
@[simp] theorem State.selfchk_kept (k diff : Nat) (s : State) : (State.selfchk k diff s).per.kept = s.per.kept := by
  unfold State.selfchk
  first | (simp; done) | rfl | (repeat' (first | (simp; done) | split))
@[simp] theorem State.fsafeFall_kept (s : State) : (State.fsafeFall s).per.kept = s.per.kept := by
  unfold State.fsafeFall
  first | (simp; done) | rfl | (repeat' (first | (simp; done) | split))
@[simp] theorem State.fsafeRise_kept (s : State) : (State.fsafeRise s).per.kept = s.per.kept := by
  unfold State.fsafeRise
  first | (simp; done) | rfl | (repeat' (first | (simp; done) | split))
@[simp] theorem State.gateServe_kept (s : State) : (State.gateServe s).per.kept = s.per.kept := by
  unfold State.gateServe
  first | (simp; done) | rfl | (repeat' (first | (simp; done) | split))
@[simp] theorem State.gateMiss_kept (s : State) : (State.gateMiss s).per.kept = s.per.kept := by
  unfold State.gateMiss
  first | (simp; done) | rfl | (repeat' (first | (simp; done) | split))
@[simp] theorem State.aliveEdge_kept (s : State) : (State.aliveEdge s).per.kept = s.per.kept := by
  unfold State.aliveEdge
  first | (simp; done) | rfl | (repeat' (first | (simp; done) | split))
@[simp] theorem State.hubTemp_kept (tj : Int) (s : State) : (State.hubTemp tj s).per.kept = s.per.kept := by
  unfold State.hubTemp
  first | (simp; done) | rfl | (repeat' (first | (simp; done) | split))
@[simp] theorem State.railSample_kept (rail : Nat) (mv : Int) (s : State) : (State.railSample rail mv s).per.kept = s.per.kept := by
  unfold State.railSample
  first | (simp; done) | rfl | (repeat' (first | (simp; done) | split))
@[simp] theorem State.queueFrame_kept (h : Hdr) (r : FrameRec) (resAddr : Nat) (fails : Bool) (s : State) : (State.queueFrame h r resAddr fails s).1.per.kept = s.per.kept := by
  unfold State.queueFrame
  first | (simp; done) | rfl | (repeat' (first | (simp; done) | split))
@[simp] theorem State.dropFrame_kept (n : Nat) (f : Frame) (r : Reply) (s : State) : (State.dropFrame n f r s).per.kept = s.per.kept := by
  unfold State.dropFrame
  first | (simp; done) | rfl | (repeat' (first | (simp; done) | split))
@[simp] theorem State.startFrame_kept (n : Nat) (s : State) : (State.startFrame n s).per.kept = s.per.kept := by
  unfold State.startFrame
  (try simp)
  repeat' (first | done | (simp; done) | split | intro _ | (simp; split))
@[simp] theorem State.endFrame_kept (n : Nat) (ws : List Word) (edges : Nat) (s : State) : (State.endFrame n ws edges s).per.kept = s.per.kept := by
  unfold State.endFrame
  first | (simp; done) | rfl | (repeat' (first | (simp; done) | split))
@[simp] theorem State.abortFrames_kept (n : Nat) (s : State) : (State.abortFrames n s).1.per.kept = s.per.kept := by
  unfold State.abortFrames
  first | (simp; done) | rfl | (repeat' (first | (simp; done) | split))
@[simp] theorem State.strayEdge_kept (n : Nat) (s : State) : (State.strayEdge n s).per.kept = s.per.kept := by
  unfold State.strayEdge
  first | (simp; done) | rfl | (repeat' (first | (simp; done) | split))
@[simp] theorem State.latchNow_kept (p : PortId) (s : State) : (State.latchNow p s).per.kept = s.per.kept := by
  unfold State.latchNow
  first | (simp; done) | rfl | (repeat' (first | (simp; done) | split))
@[simp] theorem State.doTestWrite_kept (t : Nat) (w : Word) (s : State) : (State.doTestWrite t w s).1.per.kept = s.per.kept := by
  unfold State.doTestWrite
  first | (simp; done) | rfl | (repeat' (first | (simp; done) | split))
@[simp] theorem State.trimWrite_kept (t c reg : Nat) (w : Word) (s : State) : (State.trimWrite t c reg w s).1.per.kept = s.per.kept := by
  unfold State.trimWrite
  first | (simp; done) | rfl | (repeat' (first | (simp; done) | split))
@[simp] theorem State.convCtrl_kept (t : Nat) (w : Word) (s : State) : (State.convCtrl t w s).1.per.kept = s.per.kept := by
  unfold State.convCtrl
  first | (simp; done) | rfl | (repeat' (first | (simp; done) | split))
@[simp] theorem State.injCfg_kept (t : Nat) (w : Word) (s : State) : (State.injCfg t w s).1.per.kept = s.per.kept := by
  unfold State.injCfg
  first | (simp; done) | rfl | (repeat' (first | (simp; done) | split))
@[simp] theorem State.seqAdm_kept (t n adm : Nat) (s : State) : (State.seqAdm t n adm s).1.per.kept = s.per.kept := by
  unfold State.seqAdm
  first | (simp; done) | rfl | (repeat' (first | (simp; done) | split))
@[simp] theorem State.seqCfg_kept (t n : Nat) (w : Word) (s : State) : (State.seqCfg t n w s).1.per.kept = s.per.kept := by
  unfold State.seqCfg
  first | (simp; done) | rfl | (repeat' (first | (simp; done) | split))
@[simp] theorem State.seqReg_kept (t n j : Nat) (w : Word) (s : State) : (State.seqReg t n j w s).1.per.kept = s.per.kept := by
  unfold State.seqReg
  first | (simp; done) | rfl | (repeat' (first | (simp; done) | split))
@[simp] theorem State.slotWrite_kept (t n k : Nat) (w : Word) (s : State) : (State.slotWrite t n k w s).1.per.kept = s.per.kept := by
  unfold State.slotWrite
  first | (simp; done) | rfl | (repeat' (first | (simp; done) | split))
@[simp] theorem State.putRule_kept (t i : Nat) (r : Rule) (s : State) : (State.putRule t i r s).per.kept = s.per.kept := by
  unfold State.putRule
  first | (simp; done) | rfl | (repeat' (first | (simp; done) | split))
@[simp] theorem State.ruleReg_kept (t i j : Nat) (w : Word) (s : State) : (State.ruleReg t i j w s).1.per.kept = s.per.kept := by
  unfold State.ruleReg
  first | (simp; done) | rfl | (repeat' (first | (simp; done) | split))
@[simp] theorem State.vitSel_kept (p : PortId) (t : Nat) (w : Word) (s : State) : (State.vitSel p t w s).per.kept = s.per.kept := by
  unfold State.vitSel
  first | (simp; done) | rfl | (repeat' (first | (simp; done) | split))
@[simp] theorem State.pokeTile_kept (p : PortId) (t o : Nat) (w : Word) (s : State) : (State.pokeTile p t o w s).1.per.kept = s.per.kept := by
  unfold State.pokeTile
  (try simp)
  repeat' (first | done | (simp; done) | split | intro _ | (simp; split))
@[simp] theorem State.horizonWrite_kept (w : Word) (s : State) : (State.horizonWrite w s).per.kept = s.per.kept := by
  unfold State.horizonWrite
  first | (simp; done) | rfl | (repeat' (first | (simp; done) | split))
@[simp] theorem State.pokeGlobal_kept (a : Nat) (w : Word) (s : State) : (State.pokeGlobal a w s).per.kept = s.per.kept := by
  unfold State.pokeGlobal
  first | (simp; done) | rfl | (repeat' (first | (simp; done) | split))
@[simp] theorem State.pokePipe_kept (i o : Nat) (w : Word) (s : State) : (State.pokePipe i o w s).1.per.kept = s.per.kept := by
  unfold State.pokePipe
  first | (simp; done) | rfl | (repeat' (first | (simp; done) | split))
@[simp] theorem State.pokePort_kept (q : PortId) (o : Nat) (w : Word) (s : State) : (State.pokePort q o w s).per.kept = s.per.kept := by
  unfold State.pokePort
  first | (simp; done) | rfl | (repeat' (first | (simp; done) | split))
@[simp] theorem State.pwrCtrl_kept (w : Word) (s : State) : (State.pwrCtrl w s).per.kept = s.per.kept := by
  unfold State.pwrCtrl
  first | (simp; done) | rfl | (repeat' (first | (simp; done) | split))
@[simp] theorem State.reactWrite_kept (k i : Nat) (w : Word) (s : State) : (State.reactWrite k i w s).per.kept = s.per.kept := by
  unfold State.reactWrite
  first | (simp; done) | rfl | (repeat' (first | (simp; done) | split))
@[simp] theorem State.headerWrite_kept (k j : Nat) (w : Word) (s : State) : (State.headerWrite k j w s).per.kept = s.per.kept := by
  unfold State.headerWrite
  first | (simp; done) | rfl | (repeat' (first | (simp; done) | split))
@[simp] theorem State.pokeSp_kept (n o : Nat) (w : Word) (s : State) : (State.pokeSp n o w s).per.kept = s.per.kept := by
  unfold State.pokeSp
  first | (simp; done) | rfl | (repeat' (first | (simp; done) | split))
@[simp] theorem State.poke_kept (p : PortId) (a : Nat) (w : Word) (s : State) : (State.poke p a w s).1.per.kept = s.per.kept := by
  unfold State.poke
  first | (simp; done) | rfl | (repeat' (first | (simp; done) | split))
@[simp] theorem State.countDiscard_kept (p : PortId) (a : Nat) (s : State) : (State.countDiscard p a s).per.kept = s.per.kept := by
  unfold State.countDiscard
  first | (simp; done) | rfl | (repeat' (first | (simp; done) | split))
@[simp] theorem State.barWrite_kept (p : PortId) (a dwords be : Nat) (w : Word) (s : State) : (State.barWrite p a dwords be w s).per.kept = s.per.kept := by
  unfold State.barWrite
  first | (simp; done) | rfl | (repeat' (first | (simp; done) | split))
@[simp] theorem State.catRead_kept (h : Hdr) (start count addr : Nat) (s : State) : (State.catRead h start count addr s).1.per.kept = s.per.kept := by
  unfold State.catRead
  first | (simp; done) | rfl | (repeat' (first | (simp; done) | split))
@[simp] theorem catPut_kept (p : PortId) (a : Nat) (ws : List Word) (k : Nat) (s : State) :
    (catPut p a ws k s).1.per.kept = s.per.kept := by
  induction ws generalizing k s with
  | nil => simp [catPut]
  | cons w ws ih =>
    unfold catPut
    dsimp only
    split
    · rfl
    · have h := State.poke_kept p (a + 4 * k) w s
      split <;> simp_all
@[simp] theorem State.catWrite_kept (h : Hdr) (start count : Nat) (words : List Word) (s : State) :
    (State.catWrite h start count words s).1.per.kept = s.per.kept := by
  have hp := catPut_kept h.port start (words.take (catReach start count).1) 0 s
  unfold State.catWrite
  dsimp only
  split
  · rfl
  · split
    · rfl
    · split
      · split <;> simp_all
      · simp_all
@[simp] theorem State.modRec_kept (b : Nat) (f : BankRec → BankRec) (s : State) : (State.modRec b f s).per.kept = s.per.kept := by
  unfold State.modRec
  first | (simp; done) | rfl | (repeat' (first | (simp; done) | split))
@[simp] theorem State.storeFail_kept (s : State) : (State.storeFail s).per.kept = s.per.kept := by
  unfold State.storeFail
  first | (simp; done) | rfl | (repeat' (first | (simp; done) | split))
@[simp] theorem State.openSession_kept (p : PortId) (s : State) : (State.openSession p s).per.kept = s.per.kept := by
  unfold State.openSession
  first | (simp; done) | rfl | (repeat' (first | (simp; done) | split))
@[simp] theorem State.verifiedRec_kept (s : State) : (State.verifiedRec s).per.kept = s.per.kept := by
  unfold State.verifiedRec
  first | (simp; done) | rfl | (repeat' (first | (simp; done) | split))
@[simp] theorem State.imageErase_kept (h : Hdr) (s : State) : (State.imageErase h s).1.per.kept = s.per.kept := by
  unfold State.imageErase
  first | (simp; done) | rfl | (repeat' (first | (simp; done) | split))
@[simp] theorem State.sessionEnd_kept (s : State) : (State.sessionEnd s).per.kept = s.per.kept := by
  unfold State.sessionEnd
  first | (simp; done) | rfl | (repeat' (first | (simp; done) | split))
@[simp] theorem State.saveSettings_kept (b : Nat) (s : State) : (State.saveSettings b s).per.kept = s.per.kept := by
  unfold State.saveSettings
  first | (simp; done) | rfl | (repeat' (first | (simp; done) | split))
@[simp] theorem State.settingsSave_kept (h : Hdr) (s : State) : (State.settingsSave h s).1.per.kept = s.per.kept := by
  unfold State.settingsSave
  first | (simp; done) | rfl | (repeat' (first | (simp; done) | split))
@[simp] theorem State.trimSave_kept (s : State) : (State.trimSave s).per.kept = s.per.kept := by
  unfold State.trimSave
  first | (simp; done) | rfl | (repeat' (first | (simp; done) | split))
@[simp] theorem State.loadDepot_kept (b : Nat) (s : State) : (State.loadDepot b s).per.kept = s.per.kept := by
  unfold State.loadDepot
  first | (simp; done) | rfl | (repeat' (first | (simp; done) | split))
@[simp] theorem State.activateLive_kept (h : Hdr) (secs : Nat) (s : State) : (State.activateLive h secs s).1.per.kept = s.per.kept := by
  unfold State.activateLive
  first | (simp; done) | rfl | (repeat' (first | (simp; done) | split))
@[simp] theorem State.dropActivation_kept (b st : Nat) (s : State) : (State.dropActivation b st s).per.kept = s.per.kept := by
  unfold State.dropActivation
  first | (simp; done) | rfl | (repeat' (first | (simp; done) | split))
@[simp] theorem State.endRevert_kept (s : State) : (State.endRevert s).per.kept = s.per.kept := by
  unfold State.endRevert
  first | (simp; done) | rfl | (repeat' (first | (simp; done) | split))
@[simp] theorem State.enterTrial_kept (s : State) : (State.enterTrial s).per.kept = s.per.kept := by
  unfold State.enterTrial
  first | (simp; done) | rfl | (repeat' (first | (simp; done) | split))
@[simp] theorem State.chain_kept (s : State) : (State.chain s).per.kept = s.per.kept := by
  unfold State.chain
  (try simp)
  repeat' (first | done | (simp; done) | split | intro _ | (simp; split))
@[simp] theorem State.countRotated_kept (s : State) : (State.countRotated s).per.kept = s.per.kept := by
  unfold State.countRotated
  first | (simp; done) | rfl | (repeat' (first | (simp; done) | split))
@[simp] theorem State.svSwitch_kept (ok : Bool) (s : State) : (State.svSwitch ok s).per.kept = s.per.kept := by
  unfold State.svSwitch
  first | (simp; done) | rfl | (repeat' (first | (simp; done) | split))
@[simp] theorem State.revertLive_kept (cause : Nat) (h : Option Hdr) (s : State) : (State.revertLive cause h s).per.kept = s.per.kept := by
  unfold State.revertLive
  first | (simp; done) | rfl | (repeat' (first | (simp; done) | split))
@[simp] theorem State.confirm_kept (fails : Bool) (s : State) : (State.confirm fails s).1.per.kept = s.per.kept := by
  unfold State.confirm
  first | (simp; done) | rfl | (repeat' (first | (simp; done) | split))
@[simp] theorem State.restart_kept (pw : Power) (cause : Nat) (s : State) : (State.restart pw cause s).per.kept = s.per.kept := by
  unfold State.restart
  first | (simp; done) | rfl | (repeat' (first | (simp; done) | split))
@[simp] theorem State.chipRestart_kept (s : State) : (State.chipRestart s).per.kept = s.per.kept := by
  unfold State.chipRestart
  first | (simp; done) | rfl | (repeat' (first | (simp; done) | split))
@[simp] theorem State.porst_kept (s : State) : (State.porst s).per.kept = s.per.kept := by
  unfold State.porst
  first | (simp; done) | rfl | (repeat' (first | (simp; done) | split))
@[simp] theorem State.brownOut_kept (s : State) : (State.brownOut s).per.kept = s.per.kept := by
  unfold State.brownOut
  first | (simp; done) | rfl | (repeat' (first | (simp; done) | split))
@[simp] theorem State.powerOn_kept (lowMs : Nat) (vkaOk : Bool) (s : State) : (State.powerOn lowMs vkaOk s).per.kept = s.per.kept := by
  unfold State.powerOn
  first | (simp; done) | rfl | (repeat' (first | (simp; done) | split))
@[simp] theorem State.enterFallow_kept (s : State) : (State.enterFallow s).per.kept = s.per.kept := by
  unfold State.enterFallow
  first | (simp; done) | rfl | (repeat' (first | (simp; done) | split))
@[simp] theorem State.loseVka_kept (s : State) : (State.loseVka s).per.kept = s.per.kept := by
  unfold State.loseVka
  first | (simp; done) | rfl | (repeat' (first | (simp; done) | split))
@[simp] theorem State.wake_kept (s : State) : (State.wake s).per.kept = s.per.kept := by
  unfold State.wake
  first | (simp; done) | rfl | (repeat' (first | (simp; done) | split))
@[simp] theorem State.enterRecovery_kept (s : State) : (State.enterRecovery s).per.kept = s.per.kept := by
  unfold State.enterRecovery
  first | (simp; done) | rfl | (repeat' (first | (simp; done) | split))
@[simp] theorem State.boot_kept (b : Nat) (trial : Bool) (s : State) : (State.boot b trial s).per.kept = s.per.kept := by
  unfold State.boot
  first | (simp; done) | rfl | (repeat' (first | (simp; done) | split))
@[simp] theorem State.bootTrial_kept (b : Nat) (s : State) : (State.bootTrial b s).per.kept = s.per.kept := by
  unfold State.bootTrial
  first | (simp; done) | rfl | (repeat' (first | (simp; done) | split))
@[simp] theorem State.endTrials_kept (s : State) : (State.endTrials s).per.kept = s.per.kept := by
  unfold State.endTrials
  first | (simp; done) | rfl | (repeat' (first | (simp; done) | split))
@[simp] theorem State.selectBank_kept (recov : Bool) (s : State) : (State.selectBank recov s).per.kept = s.per.kept := by
  unfold State.selectBank
  (try simp)
  repeat' (first | done | (simp; done) | split | intro _ | (simp; split))
@[simp] theorem State.atP_kept (s : State) : (State.atP s).per.kept = s.per.kept := by
  unfold State.atP
  first | (simp; done) | rfl | (repeat' (first | (simp; done) | split))
@[simp] theorem State.takeVio_kept (mv : Nat) (s : State) : (State.takeVio mv s).per.kept = s.per.kept := by
  unfold State.takeVio
  first | (simp; done) | rfl | (repeat' (first | (simp; done) | split))
@[simp] theorem State.lowFsafe_kept (s : State) : (State.lowFsafe s).per.kept = s.per.kept := by
  unfold State.lowFsafe
  first | (simp; done) | rfl | (repeat' (first | (simp; done) | split))
@[simp] theorem State.startup_kept (chip recovN tmode : Bool) (vioMv : Nat) (s : State) : (State.startup chip recovN tmode vioMv s).per.kept = s.per.kept := by
  unfold State.startup
  first | (simp; done) | rfl | (repeat' (first | (simp; done) | split))
@[simp] theorem State.tilePower_kept (t : Nat) (s : State) : (State.tilePower t s).per.kept = s.per.kept := by
  unfold State.tilePower
  first | (simp; done) | rfl | (repeat' (first | (simp; done) | split))
@[simp] theorem State.countRefused_kept (s : State) : (State.countRefused s).per.kept = s.per.kept := by
  unfold State.countRefused
  first | (simp; done) | rfl | (repeat' (first | (simp; done) | split))
@[simp] theorem State.restorePassOf_kept (k : Nat) (regs : List (Nat × Word)) (s : State) :
    (State.restorePassOf k regs s).per.kept = s.per.kept := by
  unfold State.restorePassOf
  refine forAll_kept _ (fun x s => ?_) _ _
  have h := State.poke_kept .ha x.1 x.2 s
  split
  · split <;> simp_all
  · rfl
@[simp] theorem State.restoreChan_kept (rank : Nat) (regs : List (Nat × Word)) (t c : Nat) (s : State) : (State.restoreChan rank regs t c s).per.kept = s.per.kept := by
  unfold State.restoreChan
  (try simp)
  repeat' (first | done | (simp; done) | split | intro _ | (simp; split))
@[simp] theorem State.restore_kept (regs : List (Nat × Word)) (banks : List CBank) (s : State) :
    (State.restore regs banks s).per.kept = s.per.kept := by
  have h1 (rank t : Nat) (s : State) : (forAll (fun c s => s.restoreChan rank regs t c) chanNos s).per.kept = s.per.kept :=
    forAll_kept _ (fun c s => State.restoreChan_kept rank regs t c s) _ s
  have h2 (rank : Nat) (s : State) :
      (forAll (fun t s => forAll (fun c s => s.restoreChan rank regs t c) chanNos s) tileNos s).per.kept = s.per.kept :=
    forAll_kept _ (fun t s => h1 rank t s) _ s
  unfold State.restore
  simp [h2]
@[simp] theorem State.completeStart_kept (s : State) : (State.completeStart s).per.kept = s.per.kept := by
  unfold State.completeStart
  first | (simp; done) | rfl | (repeat' (first | (simp; done) | split))
@[simp] theorem State.activateRestart_kept (h : Hdr) (dflt : Bool) (secs : Nat) (s : State) : (State.activateRestart h dflt secs s).1.per.kept = s.per.kept := by
  unfold State.activateRestart
  first | (simp; done) | rfl | (repeat' (first | (simp; done) | split))
@[simp] theorem State.revertRestart_kept (cause : Nat) (s : State) : (State.revertRestart cause s).per.kept = s.per.kept := by
  unfold State.revertRestart
  first | (simp; done) | rfl | (repeat' (first | (simp; done) | split))
@[simp] theorem State.revert_kept (cause : Nat) (h : Option Hdr) (s : State) : (State.revert cause h s).per.kept = s.per.kept := by
  unfold State.revert
  first | (simp; done) | rfl | (repeat' (first | (simp; done) | split))
@[simp] theorem State.imageRevert_kept (h : Hdr) (s : State) : (State.imageRevert h s).1.per.kept = s.per.kept := by
  unfold State.imageRevert
  first | (simp; done) | rfl | (repeat' (first | (simp; done) | split))
@[simp] theorem State.trialOver_kept (s : State) : (State.trialOver s).per.kept = s.per.kept := by
  unfold State.trialOver
  first | (simp; done) | rfl | (repeat' (first | (simp; done) | split))
@[simp] theorem State.imageRecover_kept (h : Hdr) (s : State) : (State.imageRecover h s).per.kept = s.per.kept := by
  unfold State.imageRecover
  first | (simp; done) | rfl | (repeat' (first | (simp; done) | split))
@[simp] theorem State.blockReset_kept (k i : Nat) (s : State) : (State.blockReset k i s).per.kept = s.per.kept := by
  unfold State.blockReset
  first | (simp; done) | rfl | (repeat' (first | (simp; done) | split))
@[simp] theorem State.retireTrial_kept (n : Nat) (s : State) : (State.retireTrial n s).per.kept = s.per.kept := by
  unfold State.retireTrial
  first | (simp; done) | rfl | (repeat' (first | (simp; done) | split))
@[simp] theorem State.react_kept (x : Nat × Nat × Nat) (s : State) : (State.react x s).per.kept = s.per.kept := by
  unfold State.react
  first | (simp; done) | rfl | (repeat' (first | (simp; done) | split))
@[simp] theorem State.settleIn_kept (k : Nat) (s : State) : (State.settleIn k s).per.kept = s.per.kept := by
  induction k generalizing s with
  | zero => simp [State.settleIn]
  | succ k ih =>
    unfold State.settleIn
    split
    · rfl
    · rw [ih]; simp
@[simp] theorem State.settle_kept (s : State) : (State.settle s).per.kept = s.per.kept := by
  unfold State.settle
  (try simp)
  repeat' (first | done | (simp; done) | split | intro _ | (simp; split))
@[simp] theorem State.finish_kept (s : State) : (State.finish s).per.kept = s.per.kept := by
  unfold State.finish
  first | (simp; done) | rfl | (repeat' (first | (simp; done) | split))
@[simp] theorem State.onTick_kept (τ : Tick) (f : State → State) (s : State) (h_f : ∀ s, (f s).per.kept = s.per.kept) : (State.onTick τ f s).per.kept = s.per.kept := by
  unfold State.onTick
  first | (simp [h_f]; done) | rfl | (repeat' (first | (simp [h_f]; done) | split))
@[simp] theorem State.onSv_kept (τ : Tick) (f : State → State) (s : State) (h_f : ∀ s, (f s).per.kept = s.per.kept) : (State.onSv τ f s).per.kept = s.per.kept := by
  unfold State.onSv
  first | (simp [h_f]; done) | rfl | (repeat' (first | (simp [h_f]; done) | split))
@[simp] theorem State.onRing_kept (h : Hdr) (op : Nat) (c : State → Cmd) (act : State → State × Option Reply) (s : State) (h_act : ∀ s, (act s).1.per.kept = s.per.kept) : (State.onRing h op c act s).per.kept = s.per.kept := by
  unfold State.onRing
  first | (simp [h_act]; done) | rfl | (repeat' (first | (simp [h_act]; done) | split))
@[simp] theorem State.onWrite_kept (τ : Tick) (p : PortId) (a dwords be : Nat) (w : Word) (s : State) : (State.onWrite τ p a dwords be w s).per.kept = s.per.kept := by
  unfold State.onWrite
  first | (simp; done) | rfl | (repeat' (first | (simp; done) | split))
@[simp] theorem State.modeCmd_kept (g mode par : Nat) (carry : Bool) (cfg diag : Word) (s : State) : (State.modeCmd g mode par carry cfg diag s).1.per.kept = s.per.kept := by
  unfold State.modeCmd
  first | (simp; done) | rfl | (repeat' (first | (simp; done) | split))
@[simp] theorem State.sendAction_kept (h : Hdr) (kind value commit op : Nat) (s : State) : (State.sendAction h kind value commit op s).per.kept = s.per.kept := by
  unfold State.sendAction
  first | (simp; done) | rfl | (repeat' (first | (simp; done) | split))
@[simp] theorem State.outSet_kept (h : Hdr) (commit value : Nat) (s : State) : (State.outSet h commit value s).1.per.kept = s.per.kept := by
  unfold State.outSet
  first | (simp; done) | rfl | (repeat' (first | (simp; done) | split))
@[simp] theorem State.mirForce_kept (h : Hdr) (commit value : Nat) (s : State) : (State.mirForce h commit value s).1.per.kept = s.per.kept := by
  unfold State.mirForce
  first | (simp; done) | rfl | (repeat' (first | (simp; done) | split))
@[simp] theorem State.trimSet_kept (g : Nat) (ofs : Int) (gain : Nat) (s : State) : (State.trimSet g ofs gain s).1.per.kept = s.per.kept := by
  unfold State.trimSet
  first | (simp; done) | rfl | (repeat' (first | (simp; done) | split))
@[simp] theorem State.trimWait_kept (h : Hdr) (span : Bool) (ref : Int) (s : State) : (State.trimWait h span ref s).1.per.kept = s.per.kept := by
  unfold State.trimWait
  first | (simp; done) | rfl | (repeat' (first | (simp; done) | split))
@[simp] theorem State.rfxWrite_kept (arg : Nat) (r : Rule) (s : State) : (State.rfxWrite arg r s).1.per.kept = s.per.kept := by
  unfold State.rfxWrite
  first | (simp; done) | rfl | (repeat' (first | (simp; done) | split))
@[simp] theorem State.rfxEnable_kept (arg : Nat) (en : Bool) (s : State) : (State.rfxEnable arg en s).1.per.kept = s.per.kept := by
  unfold State.rfxEnable
  first | (simp; done) | rfl | (repeat' (first | (simp; done) | split))
@[simp] theorem State.armCmd_kept (arg : Nat) (s : State) : (State.armCmd arg s).1.per.kept = s.per.kept := by
  unfold State.armCmd
  first | (simp; done) | rfl | (repeat' (first | (simp; done) | split))
@[simp] theorem State.triggerCmd_kept (h : Hdr) (tick : Nat) (s : State) : (State.triggerCmd h tick s).1.per.kept = s.per.kept := by
  unfold State.triggerCmd
  first | (simp; done) | rfl | (repeat' (first | (simp; done) | split))
@[simp] theorem State.injectCmd_kept (h : Hdr) (slot : Word) (s : State) : (State.injectCmd h slot s).1.per.kept = s.per.kept := by
  unfold State.injectCmd
  first | (simp; done) | rfl | (repeat' (first | (simp; done) | split))
@[simp] theorem State.calibrateCmd_kept (h : Hdr) (s : State) : (State.calibrateCmd h s).1.per.kept = s.per.kept := by
  unfold State.calibrateCmd
  first | (simp; done) | rfl | (repeat' (first | (simp; done) | split))
@[simp] theorem State.calibrateExcl_kept (h : Hdr) (conv : Nat) (s : State) : (State.calibrateExcl h conv s).1.per.kept = s.per.kept := by
  unfold State.calibrateExcl
  first | (simp; done) | rfl | (repeat' (first | (simp; done) | split))
@[simp] theorem State.rotateCmd_kept (h : Hdr) (newImg : Bool) (s : State) : (State.rotateCmd h newImg s).1.per.kept = s.per.kept := by
  unfold State.rotateCmd
  first | (simp; done) | rfl | (repeat' (first | (simp; done) | split))
theorem State.streamFull_kept (p c : Nat) (port : PortId) (s t : State) (h : s.streamFull p c port = some t) :
    t.per.kept = s.per.kept := by
  unfold State.streamFull at h
  dsimp only at h
  split at h
  · cases h; simp
  · split at h
    · cases h; simp
    · split at h
      · cases h; simp
      · cases h
@[simp] theorem State.streamStart_kept (h : Hdr) (ring : Nat) (s : State) : (State.streamStart h ring s).1.per.kept = s.per.kept := by
  unfold State.streamStart
  dsimp only
  split
  · rfl
  · split
    · rfl
    · split
      · rfl
      · split
        · rename_i u hu
          exact State.streamFull_kept _ _ _ _ _ hu
        · simp
@[simp] theorem State.streamStop_kept (h : Hdr) (s : State) : (State.streamStop h s).1.per.kept = s.per.kept := by
  unfold State.streamStop
  first | (simp; done) | rfl | (repeat' (first | (simp; done) | split))
@[simp] theorem State.streamSource_kept (h : Hdr) (n : Nat) (s : State) : (State.streamSource h n s).1.per.kept = s.per.kept := by
  unfold State.streamSource
  (try simp)
  repeat' (first | done | (simp; done) | split | intro _ | (simp; split))
@[simp] theorem State.bankLoad_kept (arg : Nat) (image : List Int) (s : State) : (State.bankLoad arg image s).1.per.kept = s.per.kept := by
  unfold State.bankLoad
  first | (simp; done) | rfl | (repeat' (first | (simp; done) | split))
@[simp] theorem State.bankSelect_kept (h : Hdr) (bank f : Nat) (s : State) : (State.bankSelect h bank f s).1.per.kept = s.per.kept := by
  unfold State.bankSelect
  first | (simp; done) | rfl | (repeat' (first | (simp; done) | split))
@[simp] theorem State.liveCmd_kept (h : Hdr) (dflt : Bool) (secs : Nat) (s : State) : (State.liveCmd h dflt secs s).1.per.kept = s.per.kept := by
  unfold State.liveCmd
  first | (simp; done) | rfl | (repeat' (first | (simp; done) | split))
@[simp] theorem State.restartCmd_kept (h : Hdr) (dflt : Bool) (secs : Nat) (s : State) : (State.restartCmd h dflt secs s).1.per.kept = s.per.kept := by
  unfold State.restartCmd
  first | (simp; done) | rfl | (repeat' (first | (simp; done) | split))
@[simp] theorem State.fsafePin_kept (level : Bool) (s : State) : (State.fsafePin level s).per.kept = s.per.kept := by
  unfold State.fsafePin
  first | (simp; done) | rfl | (repeat' (first | (simp; done) | split))
@[simp] theorem State.onTile_kept (τ : Tick) (t : Nat) (f : State → State) (s : State) (h_f : ∀ s, (f s).per.kept = s.per.kept) : (State.onTile τ t f s).per.kept = s.per.kept := by
  unfold State.onTile
  first | (simp [h_f]; done) | rfl | (repeat' (first | (simp [h_f]; done) | split))
@[simp] theorem State.onPower_kept (τ : Tick) (t : Nat) (f : State → State) (s : State) (h_f : ∀ s, (f s).per.kept = s.per.kept) : (State.onPower τ t f s).per.kept = s.per.kept := by
  unfold State.onPower
  first | (simp [h_f]; done) | rfl | (repeat' (first | (simp [h_f]; done) | split))
@[simp] theorem State.captureOver_kept (t c : Nat) (s : State) : (State.captureOver t c s).per.kept = s.per.kept := by
  unfold State.captureOver
  first | (simp; done) | rfl | (repeat' (first | (simp; done) | split))
@[simp] theorem State.actionCame_kept (p : PortId) (ring cnt : Nat) (s : State) : (State.actionCame p ring cnt s).per.kept = s.per.kept := by
  unfold State.actionCame
  first | (simp; done) | rfl | (repeat' (first | (simp; done) | split))
@[simp] theorem State.timerTrigger_kept (t n : Nat) (s : State) : (State.timerTrigger t n s).per.kept = s.per.kept := by
  unfold State.timerTrigger
  first | (simp; done) | rfl | (repeat' (first | (simp; done) | split))
@[simp] theorem State.heldTrigger_kept (t n : Nat) (s : State) : (State.heldTrigger t n s).per.kept = s.per.kept := by
  unfold State.heldTrigger
  (try simp)
  repeat' (first | done | (simp; done) | split | intro _ | (simp; split))
@[simp] theorem State.speculate_kept (t n : Nat) (s : State) : (State.speculate t n s).per.kept = s.per.kept := by
  unfold State.speculate
  (try simp)
  repeat' (first | done | (simp; done) | split | intro _ | (simp; split))
@[simp] theorem State.specOver_kept (t n : Nat) (s : State) : (State.specOver t n s).per.kept = s.per.kept := by
  unfold State.specOver
  (try simp)
  repeat' (first | done | (simp; done) | split | intro _ | (simp; split))
@[simp] theorem State.startSlot_kept (t n : Nat) (s : State) : (State.startSlot t n s).per.kept = s.per.kept := by
  unfold State.startSlot
  (try simp)
  repeat' (first | done | (simp; done) | split | intro _ | (simp; split))
@[simp] theorem State.reattempt_kept (t v : Nat) (s : State) : (State.reattempt t v s).per.kept = s.per.kept := by
  unfold State.reattempt
  first | (simp; done) | rfl | (repeat' (first | (simp; done) | split))
@[simp] theorem State.injMissed_kept (t : Nat) (e : Inj) (s : State) : (State.injMissed t e s).per.kept = s.per.kept := by
  unfold State.injMissed
  first | (simp; done) | rfl | (repeat' (first | (simp; done) | split))
@[simp] theorem State.startInj_kept (t v : Nat) (s : State) : (State.startInj t v s).per.kept = s.per.kept := by
  unfold State.startInj
  first | (simp; done) | rfl | (repeat' (first | (simp; done) | split))
@[simp] theorem State.injPast_kept (t : Nat) (p : PortId) (ring cnt : Nat) (s : State) : (State.injPast t p ring cnt s).per.kept = s.per.kept := by
  unfold State.injPast
  first | (simp; done) | rfl | (repeat' (first | (simp; done) | split))
@[simp] theorem State.calDue_kept (t : Nat) (s : State) : (State.calDue t s).per.kept = s.per.kept := by
  unfold State.calDue
  (try simp)
  repeat' (first | done | (simp; done) | split | intro _ | (simp; split))
@[simp] theorem State.refSettled_kept (t : Nat) (dev : Int) (s : State) : (State.refSettled t dev s).per.kept = s.per.kept := by
  unfold State.refSettled
  first | (simp; done) | rfl | (repeat' (first | (simp; done) | split))
@[simp] theorem State.lineToHub_kept (l : Nat) (s : State) : (State.lineToHub l s).per.kept = s.per.kept := by
  unfold State.lineToHub
  (try simp)
  repeat' (first | done | (simp; done) | split | intro _ | (simp; split))
@[simp] theorem State.lineToTile_kept (t l : Nat) (s : State) : (State.lineToTile t l s).per.kept = s.per.kept := by
  unfold State.lineToTile
  (try simp)
  repeat' (first | done | (simp; done) | split | intro _ | (simp; split))
@[simp] theorem State.mergeTakes_kept (src : Nat) (s : State) : (State.mergeTakes src s).per.kept = s.per.kept := by
  unfold State.mergeTakes
  first | (simp; done) | rfl | (repeat' (first | (simp; done) | split))
@[simp] theorem State.horizonOver_kept (s : State) : (State.horizonOver s).per.kept = s.per.kept := by
  unfold State.horizonOver
  first | (simp; done) | rfl | (repeat' (first | (simp; done) | split))
@[simp] theorem State.pipeTakes_kept (p : Nat) (s : State) : (State.pipeTakes p s).per.kept = s.per.kept := by
  unfold State.pipeTakes
  first | (simp; done) | rfl | (repeat' (first | (simp; done) | split))
@[simp] theorem State.blockOver_kept (p c : Nat) (s : State) : (State.blockOver p c s).per.kept = s.per.kept := by
  unfold State.blockOver
  first | (simp; done) | rfl | (repeat' (first | (simp; done) | split))
@[simp] theorem State.deliveryPast_kept (p c : Nat) (s : State) : (State.deliveryPast p c s).per.kept = s.per.kept := by
  unfold State.deliveryPast
  first | (simp; done) | rfl | (repeat' (first | (simp; done) | split))
theorem runDue_kept (ds : List DueAt) (h : ∀ d ∈ ds, ∀ s, (d.2 s).per.kept = s.per.kept) (s : State) :
    (runDue ds s).per.kept = s.per.kept :=
  runDue_keeps (fun u => u.per.kept = s.per.kept) ds (fun d hd u hu => (h d hd u).trans hu) s rfl
@[simp] theorem State.ifOnline_kept (t : Nat) (f : State → State) (s : State) (h_f : ∀ s, (f s).per.kept = s.per.kept) : (State.ifOnline t f s).per.kept = s.per.kept := by
  unfold State.ifOnline
  first | (simp [h_f]; done) | rfl | (repeat' (first | (simp [h_f]; done) | split))
@[simp] theorem State.timerRest_kept (t n : Nat) (hi : Tick) (s : State) : (State.timerRest t n hi s).per.kept = s.per.kept := by
  unfold State.timerRest
  first | (simp; done) | rfl | (repeat' (first | (simp; done) | split))
@[simp] theorem State.stepTo_kept (x : Tick) (s : State) : (State.stepTo x s).per.kept = s.per.kept := by
  have h (b u v : State) : (runDue (State.skipped b u) v).per.kept = v.per.kept :=
    runDue_kept _ (skipped_all (fun f => ∀ s, (f s).per.kept = s.per.kept)
      (fun t f hf s => by unfold State.ifOnline; split <;> simp [hf]) (fun t f hf s => by dsimp only; split <;> simp [hf])
      (by simp) (by simp) (by simp) (by simp) (by simp) (by simp) (by simp) (by simp) (by simp) (by simp) b u) v
  unfold State.stepTo
  refine (forAll_kept _ (fun t s => forAll_kept _ (fun n s => ?_) _ _) _ _).trans
    ((h _ _ _).trans (forAll_kept _ (fun t z => by simp) _ _))
  unfold State.ifOnline
  split <;> simp
@[simp] theorem State.syncEdge_kept (s : State) : (State.syncEdge s).per.kept = s.per.kept := by
  unfold State.syncEdge
  first | (simp; done) | rfl | (repeat' (first | (simp; done) | split))
@[simp] theorem State.syncLead_kept (s : State) : (State.syncLead s).per.kept = s.per.kept := by
  unfold State.syncLead
  first | (simp; done) | rfl | (repeat' (first | (simp; done) | split))
@[simp] theorem State.syncLost_kept (s : State) : (State.syncLost s).per.kept = s.per.kept := by
  unfold State.syncLost
  first | (simp; done) | rfl | (repeat' (first | (simp; done) | split))
@[simp] theorem State.runAgain_kept (c : Instr) (s : State) : (State.runAgain c s).per.kept = s.per.kept := by
  unfold State.runAgain
  split <;> first | rfl | simp [ranOr, execChMode, execOutSet, execMirForceOff, execMirForceOn, execMirRelease, execOutCancel,
    execChTrimSet, execChTrimZero, execChTrimSpan, execChTrimReset, execRfxWrite, execRfxEnable, execRfxStatus, execSeqArm,
    execSeqDisarm, execSeqTrigger, execInject, execCalibrate, execCalibrateExcl, execTileOffline, execTileReadmit, execRotate]
@[simp] theorem State.runWaiting_kept (s : State) : (State.runWaiting s).per.kept = s.per.kept := by
  unfold State.runWaiting
  first | (simp; done) | rfl | (repeat' (first | (simp; done) | split))
@[simp] theorem State.onEngine_kept (τ : Tick) (f : State → State) (s : State) (h_f : ∀ s, (f s).per.kept = s.per.kept) : (State.onEngine τ f s).per.kept = s.per.kept := by
  unfold State.onEngine
  first | (simp [h_f]; done) | rfl | (repeat' (first | (simp [h_f]; done) | split))
@[simp] theorem State.handOver_kept (s : State) : (State.handOver s).per.kept = s.per.kept := by
  unfold State.handOver
  first | (simp; done) | rfl | (repeat' (first | (simp; done) | split))

end Sys2Proof.Machine
end

