-- ==== Sys2Proof/Laws/Memory.lean ====
section
/-!
SUPPORT. The store's memory: reads after writes, and the canonical form under every operation that writes it.
-/
namespace Sys2Proof.Machine

/-! ## One byte -/

theorem Memory.read_below {lo a : Nat} {m : List Host.Cell} (h : Memory.wfFrom lo m = true) (ha : a < lo) :
    Memory.read m a = storeBlank := by
  induction m generalizing lo with
  | nil => rfl
  | cons x m ih =>
    obtain ⟨b, v⟩ := x
    simp only [Memory.wfFrom, Bool.and_eq_true, decide_eq_true_eq] at h
    have hb : b ≠ a := by omega
    simp only [Memory.read, if_neg hb]
    exact ih h.2 (by omega)

theorem Memory.wfFrom_mono {lo lo' : Nat} {m : List Host.Cell} (h : Memory.wfFrom lo m = true) (hl : lo' ≤ lo) :
    Memory.wfFrom lo' m = true := by
  cases m with
  | nil => rfl
  | cons x m =>
    obtain ⟨b, v⟩ := x
    simp only [Memory.wfFrom, Bool.and_eq_true, decide_eq_true_eq] at h ⊢
    exact ⟨⟨by omega, h.1.2⟩, h.2⟩

theorem Memory.wfFrom_write {lo a : Nat} {m : List Host.Cell} (v : Byte) (h : Memory.wfFrom lo m = true) (ha : lo ≤ a) :
    Memory.wfFrom lo (Memory.write m a v) = true := by
  induction m generalizing lo with
  | nil =>
    unfold Memory.write
    split <;> simp_all [Memory.wfFrom]
  | cons x m ih =>
    obtain ⟨b, w⟩ := x
    simp only [Memory.wfFrom, Bool.and_eq_true, decide_eq_true_eq] at h
    unfold Memory.write
    split
    · split
      · simp_all [Memory.wfFrom]
      · simp only [Memory.wfFrom, Bool.and_eq_true, decide_eq_true_eq]
        exact ⟨⟨ha, by assumption⟩, ⟨by omega, h.1.2⟩, h.2⟩
    · split
      · split
        · exact Memory.wfFrom_mono h.2 (by omega)
        · subst_vars
          simp only [Memory.wfFrom, Bool.and_eq_true, decide_eq_true_eq]
          exact ⟨⟨ha, by assumption⟩, h.2⟩
      · simp only [Memory.wfFrom, Bool.and_eq_true, decide_eq_true_eq]
        exact ⟨⟨h.1.1, h.1.2⟩, ih h.2 (by omega)⟩

/-- A write keeps the canonical form. -/
theorem Memory.wf_write {m : List Host.Cell} (a : Nat) (v : Byte) (h : Memory.wf m = true) :
    Memory.wf (Memory.write m a v) = true := Memory.wfFrom_write v h (Nat.zero_le a)

/-- A read after a write: the written byte at its address, and any other byte as before. -/
theorem Memory.read_write {lo : Nat} {m : List Host.Cell} (h : Memory.wfFrom lo m = true) (a : Nat) (v : Byte) (x : Nat) :
    Memory.read (Memory.write m a v) x = if x = a then v else Memory.read m x := by
  induction m generalizing lo with
  | nil =>
    unfold Memory.write
    by_cases hx : x = a
    · subst hx
      split
      · next hv => simp [Memory.read, hv]
      · simp [Memory.read]
    · split <;> simp [Memory.read, hx, Ne.symm hx]
  | cons y m ih =>
    obtain ⟨b, w⟩ := y
    simp only [Memory.wfFrom, Bool.and_eq_true, decide_eq_true_eq] at h
    unfold Memory.write
    split
    · split
      · by_cases hx : x = a
        · subst hx
          have hb : b ≠ x := by omega
          rw [if_pos rfl]
          simp only [Memory.read, if_neg hb]
          rw [Memory.read_below h.2 (by omega)]
          simp_all
        · rw [if_neg hx]
      · by_cases hx : x = a
        · simp [Memory.read, hx]
        · simp [Memory.read, hx, Ne.symm hx]
    · split
      · subst_vars
        split
        · by_cases hx : x = b
          · subst hx
            rw [if_pos rfl, Memory.read_below h.2 (by omega)]
            simp_all
          · simp [Memory.read, hx, Ne.symm hx]
        · by_cases hx : x = b
          · simp [Memory.read, hx]
          · simp [Memory.read, hx, Ne.symm hx]
      · simp only [Memory.read]
        by_cases hb : b = x
        · have : x ≠ a := by omega
          simp [hb, this]
        · simp [hb, ih h.2]

/-! ## Runs -/

/-- A run of writes keeps the canonical form. -/
theorem Memory.wf_writeRun {m : List Host.Cell} (a : Nat) (vs : List Byte) (h : Memory.wf m = true) :
    Memory.wf (Memory.writeRun m a vs) = true := by
  induction vs generalizing m a with
  | nil => exact h
  | cons v vs ih => exact ih (a + 1) (Memory.wf_write a v h)

/-- A read after a run of writes. -/
theorem Memory.read_writeRun {m : List Host.Cell} (a : Nat) (vs : List Byte) (h : Memory.wf m = true) (x : Nat) :
    Memory.read (Memory.writeRun m a vs) x =
      if a ≤ x ∧ x < a + vs.length then vs.getD (x - a) 0 else Memory.read m x := by
  induction vs generalizing m a with
  | nil => rw [if_neg (by simp only [List.length_nil]; omega)]; rfl
  | cons v vs ih =>
    simp only [Memory.writeRun, ih (a + 1) (Memory.wf_write a v h), List.length_cons]
    by_cases hx : a + 1 ≤ x ∧ x < a + 1 + vs.length
    · rw [if_pos hx, if_pos (by omega)]
      obtain ⟨k, rfl⟩ : ∃ k, x = a + (k + 1) := ⟨x - a - 1, by omega⟩
      simp [show a + (k + 1) - (a + 1) = k by omega]
    · rw [if_neg hx, Memory.read_write h]
      by_cases hxa : x = a
      · subst hxa
        rw [if_pos rfl, if_pos (by omega)]
        simp
      · rw [if_neg hxa, if_neg (by omega)]

/-! ## The store under the update's operations -/

theorem State.cells_of_kept {a b : State} (h : a.per.kept = b.per.kept) : a.per.cells = b.per.cells := congrArg (·.1) h

@[simp] theorem State.storeFail_cells (s : State) : s.storeFail.per.cells = s.per.cells := State.cells_of_kept (by simp)

@[simp] theorem State.openSession_cells (p : PortId) (s : State) : (s.openSession p).per.cells = s.per.cells :=
  State.cells_of_kept (by simp)

@[simp] theorem State.modRec_cells (b : Nat) (f : BankRec → BankRec) (s : State) : (s.modRec b f).per.cells = s.per.cells :=
  State.cells_of_kept (by simp)

@[simp] theorem State.verifiedRec_cells (s : State) : s.verifiedRec.per.cells = s.per.cells := State.cells_of_kept (by simp)

theorem State.storePut_wf {s : State} (a : Nat) (bs : List Byte) (h : Memory.wf s.per.cells = true) :
    Memory.wf (State.storePut a bs s).per.cells = true := Memory.wf_writeRun a bs h

theorem State.imageWrite_wf (h : Hdr) (kiln : Bool) (offset len : Nat) (bytes : List Byte) (fails : Bool) {s : State}
    (hw : Memory.wf s.per.cells = true) : Memory.wf (State.imageWrite h kiln offset len bytes fails s).1.per.cells = true := by
  unfold State.imageWrite
  dsimp only
  split
  · exact hw
  · split
    · simp only [State.storeFail_cells]
      split <;> simp [hw]
    · refine State.storePut_wf _ _ ?_
      split <;> simp [hw]

theorem State.checkDelta_wf {s : State} (hw : Memory.wf s.per.cells = true) : Memory.wf s.checkDelta.1.per.cells = true := by
  unfold State.checkDelta
  dsimp only
  split
  · exact hw
  · split
    · exact hw
    · generalize runDelta _ _ _ _ _ = r
      have h (a : Nat) (bs : List Byte) (b : Nat) (f : BankRec → BankRec) :
          Memory.wf (State.storePut a bs (s.modRec b f)).per.cells = true := by
        refine State.storePut_wf _ _ ?_
        rw [State.modRec_cells]
        exact hw
      split
      · exact h _ _ _ _
      · split <;> exact h _ _ _ _

theorem State.imageVerify_wf (h : Hdr) (kiln fails : Bool) {s : State} (hw : Memory.wf s.per.cells = true) :
    Memory.wf (State.imageVerify h kiln fails s).1.per.cells = true := by
  have ho : Memory.wf (s.openSession h.port).per.cells = true := by simpa using hw
  unfold State.imageVerify
  dsimp only
  split
  · exact hw
  · split
    · simpa using hw
    · cases kiln with
      | true =>
        have hd := State.checkDelta_wf ho
        simp only [if_true]
        split
        · exact hd
        · simpa using hd
      | false =>
        simp only [Bool.false_eq_true, if_false]
        split
        · exact ho
        · simpa using ho

end Sys2Proof.Machine
end

