-- ==== Sys2Proof/Laws/Queue.lean ====
section
/-!
SUPPORT. No operation of the machine touches the queue of waiting commands: one lemma for each operation.
-/
namespace Sys2Proof.Machine

@[simp] theorem State.pending_ite (c : Prop) [Decidable c] (a b : State) : (if c then a else b).pending = if c then a.pending else b.pending := by split <;> rfl
@[simp] theorem State.pending_ite1 {α} (c : Prop) [Decidable c] (a b : State × α) : (if c then a else b).1.pending = if c then a.1.pending else b.1.pending := by split <;> rfl
@[simp] theorem forAll_pend {α : Type} (f : α → State → State) (h : ∀ x s, (f x s).pending = s.pending) (xs : List α) (s : State) : (forAll f xs s).pending = s.pending := by induction xs generalizing s with | nil => rfl | cons x xs ih => simp [forAll, ih, h]
@[simp] theorem State.modTile_pend (t : Nat) (f : Tile → Tile) (s : State) : (State.modTile t f s).pending = s.pending := by
  unfold State.modTile
  first | (simp; done) | rfl | (repeat' (first | (simp; done) | split))
@[simp] theorem State.modChan_pend (t c : Nat) (f : Chan → Chan) (s : State) : (State.modChan t c f s).pending = s.pending := by
  unfold State.modChan
  first | (simp; done) | rfl | (repeat' (first | (simp; done) | split))
@[simp] theorem State.modPort_pend (p : PortId) (f : Port → Port) (s : State) : (State.modPort p f s).pending = s.pending := by
  unfold State.modPort
  first | (simp; done) | rfl | (repeat' (first | (simp; done) | split))
@[simp] theorem State.modSeq_pend (t n : Nat) (f : Seq → Seq) (s : State) : (State.modSeq t n f s).pending = s.pending := by
  unfold State.modSeq
  first | (simp; done) | rfl | (repeat' (first | (simp; done) | split))
@[simp] theorem State.modCv_pend (t : Nat) (f : ConvUnit → ConvUnit) (s : State) : (State.modCv t f s).pending = s.pending := by
  unfold State.modCv
  first | (simp; done) | rfl | (repeat' (first | (simp; done) | split))
@[simp] theorem State.modLink_pend (t : Nat) (f : Link → Link) (s : State) : (State.modLink t f s).pending = s.pending := by
  unfold State.modLink
  first | (simp; done) | rfl | (repeat' (first | (simp; done) | split))
@[simp] theorem State.modSaf_pend (t : Nat) (f : Safety → Safety) (s : State) : (State.modSaf t f s).pending = s.pending := by
  unfold State.modSaf
  first | (simp; done) | rfl | (repeat' (first | (simp; done) | split))
@[simp] theorem State.modOut_pend (t c : Nat) (f : OutState → OutState) (s : State) : (State.modOut t c f s).pending = s.pending := by
  unfold State.modOut
  first | (simp; done) | rfl | (repeat' (first | (simp; done) | split))
@[simp] theorem State.modMeas_pend (t c : Nat) (f : MeasState → MeasState) (s : State) : (State.modMeas t c f s).pending = s.pending := by
  unfold State.modMeas
  first | (simp; done) | rfl | (repeat' (first | (simp; done) | split))
@[simp] theorem State.modCtx_pend (p c : Nat) (f : Ctx → Ctx) (s : State) : (State.modCtx p c f s).pending = s.pending := by
  unfold State.modCtx
  first | (simp; done) | rfl | (repeat' (first | (simp; done) | split))
@[simp] theorem State.modSp_pend (n : Nat) (f : SPort → SPort) (s : State) : (State.modSp n f s).pending = s.pending := by
  unfold State.modSp
  first | (simp; done) | rfl | (repeat' (first | (simp; done) | split))
@[simp] theorem State.modEngine_pend (n : Nat) (f : Engine → Engine) (s : State) : (State.modEngine n f s).pending = s.pending := by
  unfold State.modEngine
  first | (simp; done) | rfl | (repeat' (first | (simp; done) | split))
@[simp] theorem State.modBlk_pend (k : Nat) (f : FBlk → FBlk) (s : State) : (State.modBlk k f s).pending = s.pending := by
  unfold State.modBlk
  first | (simp; done) | rfl | (repeat' (first | (simp; done) | split))
@[simp] theorem State.modSrc_pend (k i : Nat) (f : Src → Src) (s : State) : (State.modSrc k i f s).pending = s.pending := by
  unfold State.modSrc
  first | (simp; done) | rfl | (repeat' (first | (simp; done) | split))
@[simp] theorem State.lateness_pend (k i idx x : Nat) (s : State) : (State.lateness k i idx x s).pending = s.pending := by
  unfold State.lateness
  first | (simp; done) | rfl | (repeat' (first | (simp; done) | split))
@[simp] theorem State.advance_pend (τ : Tick) (s : State) : (State.advance τ s).pending = s.pending := by
  unfold State.advance
  first | (simp; done) | rfl | (repeat' (first | (simp; done) | split))
@[simp] theorem State.tickOn_pend (s : State) : (State.tickOn s).pending = s.pending := by
  unfold State.tickOn
  first | (simp; done) | rfl | (repeat' (first | (simp; done) | split))
@[simp] theorem State.emitHubAt_pend (ts kind pl : Nat) (wide : List Int) (toPorts : Bool) (s : State) : (State.emitHubAt ts kind pl wide toPorts s).pending = s.pending := by
  unfold State.emitHubAt
  first | (simp; done) | rfl | (repeat' (first | (simp; done) | split))
@[simp] theorem State.emitHub_pend (kind pl : Nat) (s : State) : (State.emitHub kind pl s).pending = s.pending := by
  unfold State.emitHub
  first | (simp; done) | rfl | (repeat' (first | (simp; done) | split))
@[simp] theorem State.enterScope_pend (t : Nat) (f : Safety → Safety) (s : State) : (State.enterScope t f s).pending = s.pending := by
  unfold State.enterScope
  first | (simp; done) | rfl | (repeat' (first | (simp; done) | split))
@[simp] theorem State.leaveScope_pend (t : Nat) (f : Safety → Safety) (s : State) : (State.leaveScope t f s).pending = s.pending := by
  unfold State.leaveScope
  first | (simp; done) | rfl | (repeat' (first | (simp; done) | split))
@[simp] theorem State.netEvent_pend (action : Nat) (s : State) : (State.netEvent action s).pending = s.pending := by
  unfold State.netEvent
  first | (simp; done) | rfl | (repeat' (first | (simp; done) | split))
@[simp] theorem State.assertNet_pend (k i : Nat) (s : State) : (State.assertNet k i s).pending = s.pending := by
  unfold State.assertNet
  first | (simp; done) | rfl | (repeat' (first | (simp; done) | split))
@[simp] theorem State.msix_pend (p : PortId) (v : Nat) (s : State) : (State.msix p v s).pending = s.pending := by
  unfold State.msix
  first | (simp; done) | rfl | (repeat' (first | (simp; done) | split))
@[simp] theorem State.faultMsi_pend (k : Nat) (p : PortId) (s : State) : (State.faultMsi k p s).pending = s.pending := by
  unfold State.faultMsi
  first | (simp; done) | rfl | (repeat' (first | (simp; done) | split))
@[simp] theorem State.graveRecord_pend (s : State) : (State.graveRecord s).pending = s.pending := by
  unfold State.graveRecord
  first | (simp; done) | rfl | (repeat' (first | (simp; done) | split))
@[simp] theorem State.record_pend (k i ch idx code aux : Nat) (τ : Tick) (s : State) : (State.record k i ch idx code aux τ s).1.pending = s.pending := by
  unfold State.record
  first | (simp; done) | rfl | (repeat' (first | (simp; done) | split))
@[simp] theorem State.linkPush_pend (t : Nat) (x : LinkItem) (s : State) : (State.linkPush t x s).pending = s.pending := by
  unfold State.linkPush
  first | (simp; done) | rfl | (repeat' (first | (simp; done) | split))
@[simp] theorem State.emitAt_pend (t c ts kind pl : Nat) (toPorts : Bool) (s : State) : (State.emitAt t c ts kind pl toPorts s).pending = s.pending := by
  unfold State.emitAt
  first | (simp; done) | rfl | (repeat' (first | (simp; done) | split))
@[simp] theorem State.emit_pend (t c kind pl : Nat) (s : State) : (State.emit t c kind pl s).pending = s.pending := by
  unfold State.emit
  first | (simp; done) | rfl | (repeat' (first | (simp; done) | split))
@[simp] theorem State.raiseCh_pend (k i ch idx code aux : Nat) (s : State) : (State.raiseCh k i ch idx code aux s).pending = s.pending := by
  unfold State.raiseCh
  first | (simp; done) | rfl | (repeat' (first | (simp; done) | split))
@[simp] theorem State.raise_pend (k i idx code aux : Nat) (s : State) : (State.raise k i idx code aux s).pending = s.pending := by
  unfold State.raise
  first | (simp; done) | rfl | (repeat' (first | (simp; done) | split))
@[simp] theorem State.endPresent_pend (k i : Nat) (s : State) : (State.endPresent k i s).pending = s.pending := by
  unfold State.endPresent
  first | (simp; done) | rfl | (repeat' (first | (simp; done) | split))
@[simp] theorem State.notice_pend (t ch idx kind : Nat) (s : State) : (State.notice t ch idx kind s).pending = s.pending := by
  unfold State.notice
  first | (simp; done) | rfl | (repeat' (first | (simp; done) | split))
@[simp] theorem State.scopeEvent_pend (t action scope : Nat) (c : Cause) (s : State) : (State.scopeEvent t action scope c s).pending = s.pending := by
  unfold State.scopeEvent
  first | (simp; done) | rfl | (repeat' (first | (simp; done) | split))
@[simp] theorem State.endNet_pend (s : State) : (State.endNet s).pending = s.pending := by
  unfold State.endNet
  first | (simp; done) | rfl | (repeat' (first | (simp; done) | split))
@[simp] theorem State.pump_pend (s : State) : (State.pump s).pending = s.pending := by
  unfold State.pump
  first | (simp; done) | rfl | (repeat' (first | (simp; done) | split))
@[simp] theorem State.reply_pend (h : Hdr) (op : Nat) (r : Reply) (s : State) : (State.reply h op r s).pending = s.pending := by
  unfold State.reply
  first | (simp; done) | rfl | (repeat' (first | (simp; done) | split))
@[simp] theorem State.begun_pend (h : Hdr) (s : State) : (State.begun h s).pending = s.pending := by
  unfold State.begun
  first | (simp; done) | rfl | (repeat' (first | (simp; done) | split))
@[simp] theorem State.margin_pend (k j m : Nat) (s : State) : (State.margin k j m s).pending = s.pending := by
  unfold State.margin
  first | (simp; done) | rfl | (repeat' (first | (simp; done) | split))
@[simp] theorem State.modPwr_pend (k : Nat) (f : Pwr → Pwr) (s : State) : (State.modPwr k f s).pending = s.pending := by
  unfold State.modPwr
  first | (simp; done) | rfl | (repeat' (first | (simp; done) | split))
@[simp] theorem State.rouse_pend (k : Nat) (s : State) : (State.rouse k s).pending = s.pending := by
  unfold State.rouse
  first | (simp; done) | rfl | (repeat' (first | (simp; done) | split))
@[simp] theorem State.raiseCmd_pend (h : Hdr) (e : Option Nat) (s : State) : (State.raiseCmd h e s).pending = s.pending := by
  unfold State.raiseCmd
  first | (simp; done) | rfl | (repeat' (first | (simp; done) | split))
@[simp] theorem State.archPut_pend (n : Nat) (x : ArchEntry) (s : State) : (State.archPut n x s).pending = s.pending := by
  unfold State.archPut
  first | (simp; done) | rfl | (repeat' (first | (simp; done) | split))
@[simp] theorem State.archive_pend (e : Event) (s : State) : (State.archive e s).pending = s.pending := by
  unfold State.archive
  first | (simp; done) | rfl | (repeat' (first | (simp; done) | split))
@[simp] theorem State.release_pend (late : Bool) (e : Event) (s : State) : (State.release late e s).pending = s.pending := by
  unfold State.release
  first | (simp; done) | rfl | (repeat' (first | (simp; done) | split))
@[simp] theorem releaseDue_pend (es : List Event) (s : State) : (releaseDue es s).pending = s.pending := by
  induction es generalizing s with
  | nil => simp [releaseDue]
  | cons e es ih => simp [releaseDue, ih]
@[simp] theorem State.releaseHeld_pend (s : State) : (State.releaseHeld s).pending = s.pending := by
  unfold State.releaseHeld
  (try simp)
  repeat' (first | done | (simp; done) | split | intro _ | (simp; split))
@[simp] theorem State.releaseEarly_pend (s : State) : (State.releaseEarly s).pending = s.pending := by
  unfold State.releaseEarly
  first | (simp; done) | rfl | (repeat' (first | (simp; done) | split))
@[simp] theorem State.arrive_pend (e : Event) (s : State) : (State.arrive e s).pending = s.pending := by
  unfold State.arrive
  first | (simp; done) | rfl | (repeat' (first | (simp; done) | split))
@[simp] theorem State.setDiagX_pend (t c b : Nat) (on : Bool) (partner burn : Nat) (s : State) : (State.setDiagX t c b on partner burn s).pending = s.pending := by
  unfold State.setDiagX
  first | (simp; done) | rfl | (repeat' (first | (simp; done) | split))
@[simp] theorem State.setDiag_pend (t c b : Nat) (on : Bool) (s : State) : (State.setDiag t c b on s).pending = s.pending := by
  unfold State.setDiag
  first | (simp; done) | rfl | (repeat' (first | (simp; done) | split))
@[simp] theorem State.discard_pend (t c v fate : Nat) (s : State) : (State.discard t c v fate s).pending = s.pending := by
  unfold State.discard
  first | (simp; done) | rfl | (repeat' (first | (simp; done) | split))
@[simp] theorem State.accessioned_pend (t c v val : Nat) (ts : Tick) (attempt gain : Nat) (s : State) : (State.accessioned t c v val ts attempt gain s).pending = s.pending := by
  unfold State.accessioned
  first | (simp; done) | rfl | (repeat' (first | (simp; done) | split))
@[simp] theorem State.accessionOut_pend (t c kind v origin port rule tag : Nat) (s : State) : (State.accessionOut t c kind v origin port rule tag s).pending = s.pending := by
  unfold State.accessionOut
  first | (simp; done) | rfl | (repeat' (first | (simp; done) | split))
@[simp] theorem State.dropAfter_pend (t c v : Nat) (off : Nat → Nat → Nat → State → State) (s : State)
    (h_off : ∀ a b k s, (off a b k s).pending = s.pending) : (State.dropAfter t c v off s).pending = s.pending := by
  unfold State.dropAfter
  first | (simp [h_off]; done) | (repeat' (first | (simp [h_off]; done) | split))
@[simp] theorem State.offAction_pend (t c origin : Nat) (s : State) : (State.offAction t c origin s).pending = s.pending := by
  unfold State.offAction
  first | (simp; done) | rfl | (repeat' (first | (simp; done) | split))
@[simp] theorem State.accDue_pend (t c : Nat) (d : Due) (s : State) : (State.accDue t c d s).pending = s.pending := by
  unfold State.accDue
  first | (simp; done) | rfl | (repeat' (first | (simp; done) | split))
@[simp] theorem State.commandsFirst_pend (t c : Nat) (s : State) : (State.commandsFirst t c s).pending = s.pending := by
  unfold State.commandsFirst
  first | (simp; done) | rfl | (repeat' (first | (simp; done) | split))
@[simp] theorem State.driveLine_pend (t r l : Nat) (v : Bool) (ts : Tick) (s : State) : (State.driveLine t r l v ts s).pending = s.pending := by
  unfold State.driveLine
  first | (simp; done) | rfl | (repeat' (first | (simp; done) | split))
@[simp] theorem State.freeLine_pend (t r l : Nat) (ts : Tick) (s : State) : (State.freeLine t r l ts s).pending = s.pending := by
  unfold State.freeLine
  first | (simp; done) | rfl | (repeat' (first | (simp; done) | split))
@[simp] theorem State.fireRule_pend (t i : Nat) (ts : Tick) (s : State) : (State.fireRule t i ts s).pending = s.pending := by
  unfold State.fireRule
  (try simp)
  repeat' (first | done | (simp; done) | split | intro _ | (simp; split))
@[simp] theorem State.judgeRule_pend (t : Nat) (e : Option Edge) (ts : Tick) (i : Nat) (s : State) : (State.judgeRule t e ts i s).pending = s.pending := by
  unfold State.judgeRule
  first | (simp; done) | rfl | (repeat' (first | (simp; done) | split))
@[simp] theorem State.reflex_pend (t : Nat) (e : Option Edge) (ts : Tick) (s : State) : (State.reflex t e ts s).pending = s.pending := by
  unfold State.reflex
  first | (simp; done) | rfl | (repeat' (first | (simp; done) | split))
@[simp] theorem State.deriveChan_pend (t c : Nat) (s : State) : (State.deriveChan t c s).pending = s.pending := by
  unfold State.deriveChan
  first | (simp; done) | rfl | (repeat' (first | (simp; done) | split))
@[simp] theorem State.refreshAt_pend (t : Nat) (e : Option Edge) (ts : Tick) (s : State) : (State.refreshAt t e ts s).pending = s.pending := by
  unfold State.refreshAt
  first | (simp; done) | rfl | (repeat' (first | (simp; done) | split))
@[simp] theorem State.refresh_pend (t : Nat) (s : State) : (State.refresh t s).pending = s.pending := by
  unfold State.refresh
  first | (simp; done) | rfl | (repeat' (first | (simp; done) | split))
@[simp] theorem State.trimChange_pend (t c : Nat) (ofs : Int) (gain : Nat) (s : State) : (State.trimChange t c ofs gain s).pending = s.pending := by
  unfold State.trimChange
  first | (simp; done) | rfl | (repeat' (first | (simp; done) | split))
@[simp] theorem State.endCtx_pend (p c : Nat) (s : State) : (State.endCtx p c s).pending = s.pending := by
  unfold State.endCtx
  first | (simp; done) | rfl | (repeat' (first | (simp; done) | split))
@[simp] theorem State.pumpCtx_pend (p c : Nat) (s : State) : (State.pumpCtx p c s).pending = s.pending := by
  unfold State.pumpCtx
  (try simp)
  repeat' (first | done | (simp; done) | split | intro _ | (simp; split))
@[simp] theorem State.pumpStreams_pend (s : State) : (State.pumpStreams s).pending = s.pending := by
  unfold State.pumpStreams
  first | (simp; done) | rfl | (repeat' (first | (simp; done) | split))
@[simp] theorem State.closeBlock_pend (p c : Nat) (final : Bool) (s : State) : (State.closeBlock p c final s).pending = s.pending := by
  unfold State.closeBlock
  first | (simp; done) | rfl | (repeat' (first | (simp; done) | split))
@[simp] theorem State.pipeAct_pend (p c : Nat) (a : PipeAct) (s : State) : (State.pipeAct p c a s).pending = s.pending := by
  unfold State.pipeAct
  first | (simp; done) | rfl | (repeat' (first | (simp; done) | split))
@[simp] theorem State.feedCtx_pend (p c : Nat) (v : Int) (mark : Nat) (tau : Int) (ts : Tick) (dic : Bool) (s : State) : (State.feedCtx p c v mark tau ts dic s).pending = s.pending := by
  unfold State.feedCtx
  first | (simp; done) | rfl | (repeat' (first | (simp; done) | split))
@[simp] theorem State.gapCtx_pend (p c : Nat) (tau : Int) (ts : Tick) (dic : Bool) (s : State) : (State.gapCtx p c tau ts dic s).pending = s.pending := by
  unfold State.gapCtx
  first | (simp; done) | rfl | (repeat' (first | (simp; done) | split))
@[simp] theorem State.gapRun_pend (p c per k i : Nat) (s : State) : (State.gapRun p c per k i s).pending = s.pending := by
  induction k generalizing i s with
  | zero => simp [State.gapRun]
  | succ k ih => simp [State.gapRun, ih]
@[simp] theorem State.gridInput_pend (p c : Nat) (i : PipeIn) (s : State) : (State.gridInput p c i s).pending = s.pending := by
  unfold State.gridInput
  (try simp)
  repeat' (first | done | (simp; done) | split | intro _ | (simp; split))
@[simp] theorem State.switchCtx_pend (p c ch : Nat) (h : Hdr) (s : State) : (State.switchCtx p c ch h s).pending = s.pending := by
  unfold State.switchCtx
  first | (simp; done) | rfl | (repeat' (first | (simp; done) | split))
@[simp] theorem State.ctxInput_pend (p c : Nat) (i : PipeIn) (s : State) : (State.ctxInput p c i s).pending = s.pending := by
  unfold State.ctxInput
  (try simp)
  repeat' (first | done | (simp; done) | split | intro _ | (simp; split))
@[simp] theorem State.stopCtx_pend (p c reason : Nat) (h : Option Hdr) (s : State) : (State.stopCtx p c reason h s).pending = s.pending := by
  unfold State.stopCtx
  (try simp)
  repeat' (first | done | (simp; done) | split | intro _ | (simp; split))
@[simp] theorem State.stopWhere_pend (p reason : Nat) (f : Ctx → Bool) (s : State) : (State.stopWhere p reason f s).pending = s.pending := by
  unfold State.stopWhere
  first | (simp; done) | rfl | (repeat' (first | (simp; done) | split))
@[simp] theorem State.startCtx_pend (p c : Nat) (port : PortId) (ring : Nat) (s : State) : (State.startCtx p c port ring s).pending = s.pending := by
  unfold State.startCtx
  first | (simp; done) | rfl | (repeat' (first | (simp; done) | split))
@[simp] theorem State.endCapture_pend (t c : Nat) (cap : TrimCap) (st : Nat) (s : State) : (State.endCapture t c cap st s).pending = s.pending := by
  unfold State.endCapture
  first | (simp; done) | rfl | (repeat' (first | (simp; done) | split))
@[simp] theorem State.captureOne_pend (t c : Nat) (x : Int) (cap : TrimCap) (s : State) : (State.captureOne t c x cap s).pending = s.pending := by
  unfold State.captureOne
  first | (simp; done) | rfl | (repeat' (first | (simp; done) | split))
@[simp] theorem State.captureTrim_pend (t c : Nat) (x : Int) (s : State) : (State.captureTrim t c x s).pending = s.pending := by
  unfold State.captureTrim
  first | (simp; done) | rfl | (repeat' (first | (simp; done) | split))
@[simp] theorem State.discardIn_pend (t i fate : Nat) (s : State) : (State.discardIn t i fate s).pending = s.pending := by
  unfold State.discardIn
  first | (simp; done) | rfl | (repeat' (first | (simp; done) | split))
@[simp] theorem State.gapNotice_pend (t c : Nat) (seqSlot : Option (Nat × Nat)) (trig : Tick) (s : State) : (State.gapNotice t c seqSlot trig s).pending = s.pending := by
  unfold State.gapNotice
  first | (simp; done) | rfl | (repeat' (first | (simp; done) | split))
@[simp] theorem State.classify_pend (t c : Nat) (x : Int) (s : State) : (State.classify t c x s).pending = s.pending := by
  unfold State.classify
  first | (simp; done) | rfl | (repeat' (first | (simp; done) | split))
@[simp] theorem State.accResult_pend (t c : Nat) (raw : Int) (ts : Tick) (flags attempt gain : Nat) (seqSlot : Option (Nat × Nat)) (trig : Tick) (evt tested : Bool) (s : State) : (State.accResult t c raw ts flags attempt gain seqSlot trig evt tested s).1.pending = s.pending := by
  unfold State.accResult
  first | (simp; done) | rfl | (repeat' (first | (simp; done) | split))
@[simp] theorem State.accInternal_pend (t i : Nat) (v : Int) (ts : Tick) (flags : Nat) (seqSlot : Option (Nat × Nat)) (evt : Bool) (s : State) : (State.accInternal t i v ts flags seqSlot evt s).1.pending = s.pending := by
  unfold State.accInternal
  first | (simp; done) | rfl | (repeat' (first | (simp; done) | split))
@[simp] theorem State.dropResult_pend (t c fate : Nat) (broken ovr : Bool) (seqSlot : Option (Nat × Nat)) (trig : Tick) (s : State) : (State.dropResult t c fate broken ovr seqSlot trig s).pending = s.pending := by
  unfold State.dropResult
  first | (simp; done) | rfl | (repeat' (first | (simp; done) | split))
@[simp] theorem State.setJob_pend (t v : Nat) (j : Option Job) (s : State) : (State.setJob t v j s).pending = s.pending := by
  unfold State.setJob
  first | (simp; done) | rfl | (repeat' (first | (simp; done) | split))
@[simp] theorem State.finishDisarm_pend (t n : Nat) (s : State) : (State.finishDisarm t n s).pending = s.pending := by
  unfold State.finishDisarm
  first | (simp; done) | rfl | (repeat' (first | (simp; done) | split))
@[simp] theorem State.restSeq_pend (t n : Nat) (s : State) : (State.restSeq t n s).pending = s.pending := by
  unfold State.restSeq
  first | (simp; done) | rfl | (repeat' (first | (simp; done) | split))
@[simp] theorem State.gapSlots_pend (t n from_ trig : Nat) (s : State) : (State.gapSlots t n from_ trig s).pending = s.pending := by
  unfold State.gapSlots
  first | (simp; done) | rfl | (repeat' (first | (simp; done) | split))
@[simp] theorem State.cancelSpec_pend (t n : Nat) (s : State) : (State.cancelSpec t n s).pending = s.pending := by
  unfold State.cancelSpec
  first | (simp; done) | rfl | (repeat' (first | (simp; done) | split))
@[simp] theorem State.disarmSeq_pend (t n : Nat) (hs : List Hdr) (s : State) : (State.disarmSeq t n hs s).pending = s.pending := by
  unfold State.disarmSeq
  (try simp)
  repeat' (first | done | (simp; done) | split | intro _ | (simp; split))
@[simp] theorem State.disarmNow_pend (t n : Nat) (s : State) : (State.disarmNow t n s).pending = s.pending := by
  unfold State.disarmNow
  (try simp)
  repeat' (first | done | (simp; done) | split | intro _ | (simp; split))
@[simp] theorem State.armSeq_pend (t n : Nat) (cfg : Word) (s : State) : (State.armSeq t n cfg s).1.pending = s.pending := by
  unfold State.armSeq
  first | (simp; done) | rfl | (repeat' (first | (simp; done) | split))
@[simp] theorem State.missScan_pend (t n : Nat) (s : State) : (State.missScan t n s).pending = s.pending := by
  unfold State.missScan
  (try simp)
  repeat' (first | done | (simp; done) | split | intro _ | (simp; split))
@[simp] theorem State.missJob_pend (t : Nat) (j : Job) (s : State) : (State.missJob t j s).pending = s.pending := by
  unfold State.missJob
  first | (simp; done) | rfl | (repeat' (first | (simp; done) | split))
@[simp] theorem State.startScan_pend (t n trig : Nat) (keep : Bool) (s : State) : (State.startScan t n trig keep s).pending = s.pending := by
  unfold State.startScan
  first | (simp; done) | rfl | (repeat' (first | (simp; done) | split))
@[simp] theorem State.overrun_pend (t n : Nat) (s : State) : (State.overrun t n s).pending = s.pending := by
  unfold State.overrun
  first | (simp; done) | rfl | (repeat' (first | (simp; done) | split))
@[simp] theorem State.policy_pend (t n trig : Nat) (s : State) : (State.policy t n trig s).1.pending = s.pending := by
  unfold State.policy
  (try simp)
  repeat' (first | done | (simp; done) | split | intro _ | (simp; split))
@[simp] theorem State.triggerIdle_pend (t n trig : Nat) (s : State) : (State.triggerIdle t n trig s).1.pending = s.pending := by
  unfold State.triggerIdle
  first | (simp; done) | rfl | (repeat' (first | (simp; done) | split))
@[simp] theorem State.accHeld_pend (t n trig : Nat) (late : Bool) (rs : List Result) (s : State) : (State.accHeld t n trig late rs s).pending = s.pending := by
  unfold State.accHeld
  first | (simp; done) | rfl | (repeat' (first | (simp; done) | split))
@[simp] theorem State.endScanOne_pend (t n : Nat) (s : State) : (State.endScanOne t n s).pending = s.pending := by
  unfold State.endScanOne
  (try simp)
  repeat' (first | done | (simp; done) | split | intro _ | (simp; split))
@[simp] theorem State.trigger_pend (t n trig : Nat) (s : State) : (State.trigger t n trig s).1.pending = s.pending := by
  unfold State.trigger
  (try simp)
  repeat' (first | done | (simp; done) | split | intro _ | (simp; split))
@[simp] theorem State.settleScan_pend (t k n : Nat) (s : State) : (State.settleScan t k n s).pending = s.pending := by
  induction k generalizing n s with
  | zero => simp [State.settleScan]
  | succ k ih =>
    have hc (n : Nat) (s : State) : (forAll (fun m s =>
        if (((s.tile t).seq m).active && ((s.tile t).seq m).src = 4 && ((s.tile t).seq m).param % 8 = n && m ≠ n) = true then
          State.settleScan t k m (s.trigger t m (s.tnow t)).1
        else s) (List.range 8) s).pending = s.pending :=
      forAll_pend _ (fun m s => by split <;> simp [ih]) _ s
    unfold State.settleScan
    dsimp only
    split
    · split
      · rw [hc]
        simp only [State.restSeq_pend]
        split
        · split <;> simp
        · simp
      · rfl
    · simp
@[simp] theorem State.fire_pend (t n trig : Nat) (s : State) : (State.fire t n trig s).1.pending = s.pending := by
  unfold State.fire
  (try simp)
  repeat' (first | done | (simp; done) | split | intro _ | (simp; split))
@[simp] theorem State.fireWhere_pend (t src : Nat) (f : Nat → Bool) (trig : Nat) (s : State) : (State.fireWhere t src f trig s).pending = s.pending := by
  unfold State.fireWhere
  first | (simp; done) | rfl | (repeat' (first | (simp; done) | split))
@[simp] theorem State.startJob_pend (t v : Nat) (src : JobSrc) (input : Nat) (w : Word) (spec : Bool) (s : State) : (State.startJob t v src input w spec s).pending = s.pending := by
  unfold State.startJob
  first | (simp; done) | rfl | (repeat' (first | (simp; done) | split))
@[simp] theorem State.endInj_pend (t : Nat) (e : Inj) (r : Reply) (s : State) : (State.endInj t e r s).pending = s.pending := by
  unfold State.endInj
  first | (simp; done) | rfl | (repeat' (first | (simp; done) | split))
@[simp] theorem State.dropJob_pend (t : Nat) (j : Job) (fate : Nat) (broken ovr : Bool) (trig : Tick) (s : State) : (State.dropJob t j fate broken ovr trig s).pending = s.pending := by
  unfold State.dropJob
  first | (simp; done) | rfl | (repeat' (first | (simp; done) | split))
@[simp] theorem State.slotDone_pend (t : Nat) (j : Job) (acc disc : Nat) (s : State) : (State.slotDone t j acc disc s).pending = s.pending := by
  unfold State.slotDone
  (try simp)
  repeat' (first | done | (simp; done) | split | intro _ | (simp; split))
@[simp] theorem State.finishJob_pend (t v : Nat) (j : Job) (raw : Int) (ts : Tick) (sides : List (Nat × Nat × Int)) (s : State) : (State.finishJob t v j raw ts sides s).pending = s.pending := by
  unfold State.finishJob
  (try simp)
  repeat' (first | done | (simp; done) | split | intro _ | (simp; split))
@[simp] theorem State.freeJob_pend (t v : Nat) (s : State) : (State.freeJob t v s).pending = s.pending := by
  unfold State.freeJob
  first | (simp; done) | rfl | (repeat' (first | (simp; done) | split))
@[simp] theorem State.burnout_pend (t : Nat) (j : Job) (burn : Bool) (x : Sample) (s : State) : (State.burnout t j burn x s).pending = s.pending := by
  unfold State.burnout
  first | (simp; done) | rfl | (repeat' (first | (simp; done) | split))
@[simp] theorem State.convEnd_pend (t v : Nat) (x : Sample) (s : State) : (State.convEnd t v x s).pending = s.pending := by
  unfold State.convEnd
  (try simp)
  repeat' (first | done | (simp; done) | split | intro _ | (simp; split))
@[simp] theorem State.dmdOne_pend (t : Nat) (j : Job) (c : Nat) (raw : Int) (forced : Option Nat) (broken past : Bool) (trig : Tick) (s : State) : (State.dmdOne t j c raw forced broken past trig s).1.pending = s.pending := by
  unfold State.dmdOne
  (try simp)
  repeat' (first | done | (simp; done) | split | intro _ | (simp; split))
@[simp] theorem State.dmdEnd_pend (t : Nat) (d : Demod) (s : State) : (State.dmdEnd t d s).pending = s.pending := by
  unfold State.dmdEnd
  (try simp)
  repeat' (first | done | (simp; done) | split | intro _ | (simp; split))
@[simp] theorem State.abortInj_pend (t st : Nat) (s : State) : (State.abortInj t st s).pending = s.pending := by
  unfold State.abortInj
  first | (simp; done) | rfl | (repeat' (first | (simp; done) | split))
@[simp] theorem State.calBackground_pend (t : Nat) (hs : List Hdr) (s : State) : (State.calBackground t hs s).pending = s.pending := by
  unfold State.calBackground
  first | (simp; done) | rfl | (repeat' (first | (simp; done) | split))
@[simp] theorem State.calApply_pend (t v : Nat) (coef : List (Int × Int)) (bad : Bool) (s : State) : (State.calApply t v coef bad s).pending = s.pending := by
  unfold State.calApply
  first | (simp; done) | rfl | (repeat' (first | (simp; done) | split))
@[simp] theorem State.calFinish_pend (t : Nat) (s : State) : (State.calFinish t s).pending = s.pending := by
  unfold State.calFinish
  first | (simp; done) | rfl | (repeat' (first | (simp; done) | split))
@[simp] theorem State.calStepOn_pend (t v : Nat) (coef : List (Int × Int)) (bad : Bool) (s : State) : (State.calStepOn t v coef bad s).pending = s.pending := by
  unfold State.calStepOn
  first | (simp; done) | rfl | (repeat' (first | (simp; done) | split))
@[simp] theorem State.refRise_pend (t : Nat) (s : State) : (State.refRise t s).pending = s.pending := by
  unfold State.refRise
  first | (simp; done) | rfl | (repeat' (first | (simp; done) | split))
@[simp] theorem State.refCompareAt_pend (t : Nat) (dev : Int) (s : State) : (State.refCompareAt t dev s).pending = s.pending := by
  unfold State.refCompareAt
  first | (simp; done) | rfl | (repeat' (first | (simp; done) | split))
@[simp] theorem State.modDi_pend (t c : Nat) (f : DiState → DiState) (s : State) : (State.modDi t c f s).pending = s.pending := by
  unfold State.modDi
  first | (simp; done) | rfl | (repeat' (first | (simp; done) | split))
@[simp] theorem State.modDic_pend (t c : Nat) (f : DicState → DicState) (s : State) : (State.modDic t c f s).pending = s.pending := by
  unfold State.modDic
  first | (simp; done) | rfl | (repeat' (first | (simp; done) | split))
@[simp] theorem State.button_pend (t c : Nat) (lvl : Bool) (s : State) : (State.button t c lvl s).pending = s.pending := by
  unfold State.button
  first | (simp; done) | rfl | (repeat' (first | (simp; done) | split))
@[simp] theorem State.accLevel_pend (t c : Nat) (lvl ev cnt : Bool) (s : State) : (State.accLevel t c lvl ev cnt s).pending = s.pending := by
  unfold State.accLevel
  first | (simp; done) | rfl | (repeat' (first | (simp; done) | split))
@[simp] theorem State.setValid_pend (t c : Nat) (want lvl : Bool) (s : State) : (State.setValid t c want lvl s).pending = s.pending := by
  unfold State.setValid
  first | (simp; done) | rfl | (repeat' (first | (simp; done) | split))
@[simp] theorem State.chatLevel_pend (t c : Nat) (lvl : Bool) (s : State) : (State.chatLevel t c lvl s).pending = s.pending := by
  unfold State.chatLevel
  first | (simp; done) | rfl | (repeat' (first | (simp; done) | split))
@[simp] theorem State.judgeValid_pend (t c : Nat) (s : State) : (State.judgeValid t c s).pending = s.pending := by
  unfold State.judgeValid
  first | (simp; done) | rfl | (repeat' (first | (simp; done) | split))
@[simp] theorem State.firstLevel_pend (t c : Nat) (s : State) : (State.firstLevel t c s).pending = s.pending := by
  unfold State.firstLevel
  first | (simp; done) | rfl | (repeat' (first | (simp; done) | split))
@[simp] theorem State.leaveChatter_pend (t c : Nat) (s : State) : (State.leaveChatter t c s).pending = s.pending := by
  unfold State.leaveChatter
  first | (simp; done) | rfl | (repeat' (first | (simp; done) | split))
@[simp] theorem State.sieveAcc_pend (t c : Nat) (s : State) : (State.sieveAcc t c s).pending = s.pending := by
  unfold State.sieveAcc
  first | (simp; done) | rfl | (repeat' (first | (simp; done) | split))
@[simp] theorem State.crossing_pend (t c : Nat) (lvl : Bool) (s : State) : (State.crossing t c lvl s).pending = s.pending := by
  unfold State.crossing
  first | (simp; done) | rfl | (repeat' (first | (simp; done) | split))
@[simp] theorem State.gateEnd_pend (t c : Nat) (s : State) : (State.gateEnd t c s).pending = s.pending := by
  unfold State.gateEnd
  first | (simp; done) | rfl | (repeat' (first | (simp; done) | split))
@[simp] theorem State.chatWindow_pend (t c : Nat) (s : State) : (State.chatWindow t c s).pending = s.pending := by
  unfold State.chatWindow
  first | (simp; done) | rfl | (repeat' (first | (simp; done) | split))
@[simp] theorem State.stuckCheck_pend (t c : Nat) (s : State) : (State.stuckCheck t c s).pending = s.pending := by
  unfold State.stuckCheck
  first | (simp; done) | rfl | (repeat' (first | (simp; done) | split))
@[simp] theorem State.buttonAct_pend (t lo op : Nat) (s : State) : (State.buttonAct t lo op s).pending = s.pending := by
  unfold State.buttonAct
  first | (simp; done) | rfl | (repeat' (first | (simp; done) | split))
@[simp] theorem State.buttonHold_pend (t lo : Nat) (s : State) : (State.buttonHold t lo s).pending = s.pending := by
  unfold State.buttonHold
  (try simp)
  repeat' (first | done | (simp; done) | split | intro _ | (simp; split))
@[simp] theorem State.buttonStuck_pend (t c : Nat) (s : State) : (State.buttonStuck t c s).pending = s.pending := by
  unfold State.buttonStuck
  (try simp)
  repeat' (first | done | (simp; done) | split | intro _ | (simp; split))
@[simp] theorem State.abortAction_pend (t c : Nat) (a : Action) (s : State) : (State.abortAction t c a s).pending = s.pending := by
  unfold State.abortAction
  first | (simp; done) | rfl | (repeat' (first | (simp; done) | split))
@[simp] theorem State.abortStaged_pend (t c : Nat) (s : State) : (State.abortStaged t c s).pending = s.pending := by
  unfold State.abortStaged
  first | (simp; done) | rfl | (repeat' (first | (simp; done) | split))
@[simp] theorem State.dropInj_pend (t c : Nat) (left : Bool) (s : State) : (State.dropInj t c left s).pending = s.pending := by
  unfold State.dropInj
  first | (simp; done) | rfl | (repeat' (first | (simp; done) | split))
@[simp] theorem State.endDiags_pend (t c : Nat) (s : State) : (State.endDiags t c s).pending = s.pending := by
  unfold State.endDiags
  first | (simp; done) | rfl | (repeat' (first | (simp; done) | split))
@[simp] theorem State.railIdle_pend (t : Nat) (s : State) : (State.railIdle t s).pending = s.pending := by
  unfold State.railIdle
  first | (simp; done) | rfl | (repeat' (first | (simp; done) | split))
@[simp] theorem State.enterMode_pend (t c : Nat) (n : Chan) (s : State) : (State.enterMode t c n s).pending = s.pending := by
  unfold State.enterMode
  (try simp)
  repeat' (first | done | (simp; done) | split | intro _ | (simp; split))
@[simp] theorem State.inputCfg_pend (t c : Nat) (old : Chan) (s : State) : (State.inputCfg t c old s).pending = s.pending := by
  unfold State.inputCfg
  first | (simp; done) | rfl | (repeat' (first | (simp; done) | split))
@[simp] theorem State.chWrite_pend (t c : Nat) (n : Chan) (modeReg cfgReg : Bool) (s : State) : (State.chWrite t c n modeReg cfgReg s).1.pending = s.pending := by
  unfold State.chWrite
  first | (simp; done) | rfl | (repeat' (first | (simp; done) | split))
@[simp] theorem State.modeWrite_pend (t c : Nat) (w : Word) (s : State) : (State.modeWrite t c w s).1.pending = s.pending := by
  unfold State.modeWrite
  first | (simp; done) | rfl | (repeat' (first | (simp; done) | split))
@[simp] theorem State.cfgWrite_pend (t c : Nat) (w : Word) (s : State) : (State.cfgWrite t c w s).1.pending = s.pending := by
  unfold State.cfgWrite
  first | (simp; done) | rfl | (repeat' (first | (simp; done) | split))
@[simp] theorem State.diagWrite_pend (t c : Nat) (w : Word) (s : State) : (State.diagWrite t c w s).1.pending = s.pending := by
  unfold State.diagWrite
  first | (simp; done) | rfl | (repeat' (first | (simp; done) | split))
@[simp] theorem State.statWrite_pend (t c : Nat) (w : Word) (s : State) : (State.statWrite t c w s).pending = s.pending := by
  unfold State.statWrite
  first | (simp; done) | rfl | (repeat' (first | (simp; done) | split))
@[simp] theorem State.commitDueOne_pend (t c : Nat) (d : Due) (s : State) : (State.commitDueOne t c d s).pending = s.pending := by
  unfold State.commitDueOne
  first | (simp; done) | rfl | (repeat' (first | (simp; done) | split))
@[simp] theorem State.commitAction_pend (t c : Nat) (a : Action) (s : State) : (State.commitAction t c a s).pending = s.pending := by
  unfold State.commitAction
  first | (simp; done) | rfl | (repeat' (first | (simp; done) | split))
@[simp] theorem State.refuseAction_pend (t c reason : Nat) (a : Action) (s : State) : (State.refuseAction t c reason a s).pending = s.pending := by
  unfold State.refuseAction
  first | (simp; done) | rfl | (repeat' (first | (simp; done) | split))
@[simp] theorem State.arriveAction_pend (a : Action) (s : State) : (State.arriveAction a s).pending = s.pending := by
  unfold State.arriveAction
  (try simp)
  repeat' (first | done | (simp; done) | split | intro _ | (simp; split))
@[simp] theorem State.commitDue_pend (t c : Nat) (f : Due → Bool) (s : State) : (State.commitDue t c f s).pending = s.pending := by
  unfold State.commitDue
  first | (simp; done) | rfl | (repeat' (first | (simp; done) | split))
@[simp] theorem State.protect_pend (t l : Nat) (f : OutState → OutState) (s : State) : (State.protect t l f s).pending = s.pending := by
  unfold State.protect
  first | (simp; done) | rfl | (repeat' (first | (simp; done) | split))
@[simp] theorem State.shortGnd_pend (t c : Nat) (s : State) : (State.shortGnd t c s).pending = s.pending := by
  unfold State.shortGnd
  first | (simp; done) | rfl | (repeat' (first | (simp; done) | split))
@[simp] theorem State.mirAnew_pend (t c : Nat) (s : State) : (State.mirAnew t c s).pending = s.pending := by
  unfold State.mirAnew
  first | (simp; done) | rfl | (repeat' (first | (simp; done) | split))
@[simp] theorem State.endProt_pend (t l : Nat) (retry : Bool) (s : State) : (State.endProt t l retry s).pending = s.pending := by
  unfold State.endProt
  first | (simp; done) | rfl | (repeat' (first | (simp; done) | split))
@[simp] theorem State.overloadRetry_pend (t c : Nat) (s : State) : (State.overloadRetry t c s).pending = s.pending := by
  unfold State.overloadRetry
  (try simp)
  repeat' (first | done | (simp; done) | split | intro _ | (simp; split))
@[simp] theorem State.thermal_pend (t c : Nat) (s : State) : (State.thermal t c s).pending = s.pending := by
  unfold State.thermal
  (try simp)
  repeat' (first | done | (simp; done) | split | intro _ | (simp; split))
@[simp] theorem State.thermalEnd_pend (t c : Nat) (s : State) : (State.thermalEnd t c s).pending = s.pending := by
  unfold State.thermalEnd
  (try simp)
  repeat' (first | done | (simp; done) | split | intro _ | (simp; split))
@[simp] theorem State.overDecl_pend (t c : Nat) (s : State) : (State.overDecl t c s).pending = s.pending := by
  unfold State.overDecl
  first | (simp; done) | rfl | (repeat' (first | (simp; done) | split))
@[simp] theorem State.shortOver_pend (t : Nat) (s : State) : (State.shortOver t s).pending = s.pending := by
  unfold State.shortOver
  refine forAll_pend _ (fun c s => ?_) _ _
  dsimp only
  split
  · split
    · simp
    · split <;> simp
  · rfl
@[simp] theorem State.openOn_pend (t c : Nat) (low : Bool) (s : State) : (State.openOn t c low s).pending = s.pending := by
  unfold State.openOn
  first | (simp; done) | rfl | (repeat' (first | (simp; done) | split))
@[simp] theorem State.resolve_pend (t c : Nat) (s : State) : (State.resolve t c s).pending = s.pending := by
  unfold State.resolve
  first | (simp; done) | rfl | (repeat' (first | (simp; done) | split))
@[simp] theorem State.suspectPin_pend (t c how : Nat) (mv : Int) (s : State) : (State.suspectPin t c how mv s).pending = s.pending := by
  unfold State.suspectPin
  first | (simp; done) | rfl | (repeat' (first | (simp; done) | split))
@[simp] theorem State.tie_pend (t a b : Nat) (s : State) : (State.tie t a b s).pending = s.pending := by
  unfold State.tie
  first | (simp; done) | rfl | (repeat' (first | (simp; done) | split))
@[simp] theorem State.untie_pend (t a : Nat) (s : State) : (State.untie t a s).pending = s.pending := by
  unfold State.untie
  first | (simp; done) | rfl | (repeat' (first | (simp; done) | split))
@[simp] theorem State.offCheck_pend (t c : Nat) (mv : Int) (s : State) : (State.offCheck t c mv s).pending = s.pending := by
  unfold State.offCheck
  first | (simp; done) | rfl | (repeat' (first | (simp; done) | split))
@[simp] theorem State.ownPin_pend (t l k : Nat) (mv : Int) (s : State) : (State.ownPin t l k mv s).pending = s.pending := by
  unfold State.ownPin
  (try simp)
  repeat' (first | done | (simp; done) | split | intro _ | (simp; split))
@[simp] theorem State.otherPin_pend (t l k : Nat) (mv : Int) (s : State) : (State.otherPin t l k mv s).pending = s.pending := by
  unfold State.otherPin
  first | (simp; done) | rfl | (repeat' (first | (simp; done) | split))
@[simp] theorem State.darkPulse_pend (t c ua : Nat) (pins : List (Nat × Int)) (s : State) : (State.darkPulse t c ua pins s).pending = s.pending := by
  unfold State.darkPulse
  first | (simp; done) | rfl | (repeat' (first | (simp; done) | split))
@[simp] theorem State.pinClamp_pend (t c : Nat) (acting : Bool) (s : State) : (State.pinClamp t c acting s).pending = s.pending := by
  unfold State.pinClamp
  first | (simp; done) | rfl | (repeat' (first | (simp; done) | split))
@[simp] theorem State.surge_pend (t c : Nat) (mv : Int) (ma : Nat) (s : State) : (State.surge t c mv ma s).pending = s.pending := by
  unfold State.surge
  first | (simp; done) | rfl | (repeat' (first | (simp; done) | split))
@[simp] theorem State.surgeOver_pend (t c : Nat) (s : State) : (State.surgeOver t c s).pending = s.pending := by
  unfold State.surgeOver
  first | (simp; done) | rfl | (repeat' (first | (simp; done) | split))
@[simp] theorem State.dropStaged_pend (t c : Nat) (s : State) : (State.dropStaged t c s).pending = s.pending := by
  unfold State.dropStaged
  first | (simp; done) | rfl | (repeat' (first | (simp; done) | split))
@[simp] theorem State.loseField_pend (t : Nat) (s : State) : (State.loseField t s).pending = s.pending := by
  unfold State.loseField
  first | (simp; done) | rfl | (repeat' (first | (simp; done) | split))
@[simp] theorem State.energise_pend (t c : Nat) (s : State) : (State.energise t c s).pending = s.pending := by
  unfold State.energise
  first | (simp; done) | rfl | (repeat' (first | (simp; done) | split))
@[simp] theorem State.regainField_pend (t : Nat) (s : State) : (State.regainField t s).pending = s.pending := by
  unfold State.regainField
  first | (simp; done) | rfl | (repeat' (first | (simp; done) | split))
@[simp] theorem State.reenSlot_pend (t : Nat) (s : State) : (State.reenSlot t s).pending = s.pending := by
  unfold State.reenSlot
  first | (simp; done) | rfl | (repeat' (first | (simp; done) | split))
@[simp] theorem State.lplus_pend (t : Nat) (cv : Int) (s : State) : (State.lplus t cv s).pending = s.pending := by
  unfold State.lplus
  first | (simp; done) | rfl | (repeat' (first | (simp; done) | split))
@[simp] theorem State.aoDiag_pend (t c b n : Nat) (on : Bool) (s : State) : (State.aoDiag t c b n on s).pending = s.pending := by
  unfold State.aoDiag
  first | (simp; done) | rfl | (repeat' (first | (simp; done) | split))
@[simp] theorem State.aoLatch_pend (t c : Nat) (s : State) : (State.aoLatch t c s).pending = s.pending := by
  unfold State.aoLatch
  first | (simp; done) | rfl | (repeat' (first | (simp; done) | split))
@[simp] theorem State.aoReadback_pend (t c : Nat) (r : Readback) (s : State) : (State.aoReadback t c r s).pending = s.pending := by
  unfold State.aoReadback
  first | (simp; done) | rfl | (repeat' (first | (simp; done) | split))
@[simp] theorem State.crail_pend (t dv : Nat) (s : State) : (State.crail t dv s).pending = s.pending := by
  unfold State.crail
  first | (simp; done) | rfl | (repeat' (first | (simp; done) | split))
@[simp] theorem State.foldback_pend (t c : Nat) (s : State) : (State.foldback t c s).pending = s.pending := by
  unfold State.foldback
  first | (simp; done) | rfl | (repeat' (first | (simp; done) | split))
@[simp] theorem State.foldRetry_pend (t c ua : Nat) (s : State) : (State.foldRetry t c ua s).pending = s.pending := by
  unfold State.foldRetry
  first | (simp; done) | rfl | (repeat' (first | (simp; done) | split))
@[simp] theorem State.excCycle_pend (t c : Nat) (lim : Limiting) (na : Nat) (s : State) : (State.excCycle t c lim na s).pending = s.pending := by
  unfold State.excCycle
  first | (simp; done) | rfl | (repeat' (first | (simp; done) | split))
@[simp] theorem State.mirStart_pend (t c : Nat) (s : State) : (State.mirStart t c s).pending = s.pending := by
  unfold State.mirStart
  (try simp)
  repeat' (first | done | (simp; done) | split | intro _ | (simp; split))
@[simp] theorem State.tileTemp_pend (t : Nat) (a b d : Int) (s : State) : (State.tileTemp t a b d s).pending = s.pending := by
  unfold State.tileTemp
  first | (simp; done) | rfl | (repeat' (first | (simp; done) | split))
@[simp] theorem State.modTxn_pend (p : PortId) (tag : Nat) (f : Txn → Txn) (s : State) : (State.modTxn p tag f s).pending = s.pending := by
  unfold State.modTxn
  first | (simp; done) | rfl | (repeat' (first | (simp; done) | split))
@[simp] theorem State.submitTxn_pend (h : Hdr) (c : Tick) (ms : List Member) (s : State) : (State.submitTxn h c ms s).1.pending = s.pending := by
  unfold State.submitTxn
  (try simp)
  repeat' (first | done | (simp; done) | split | intro _ | (simp; split))
@[simp] theorem State.txnArrive_pend (p : PortId) (tag t : Nat) (s : State) : (State.txnArrive p tag t s).pending = s.pending := by
  unfold State.txnArrive
  first | (simp; done) | rfl | (repeat' (first | (simp; done) | split))
@[simp] theorem State.txnGot_pend (p : PortId) (tag t : Nat) (s : State) : (State.txnGot p tag t s).pending = s.pending := by
  unfold State.txnGot
  (try simp)
  repeat' (first | done | (simp; done) | split | intro _ | (simp; split))
@[simp] theorem State.holdPulses_pend (c : Tick) (mem : List Member) (s : State) : (State.holdPulses c mem s).pending = s.pending := by
  unfold State.holdPulses
  first | (simp; done) | rfl | (repeat' (first | (simp; done) | split))
@[simp] theorem State.txnDecide_pend (p : PortId) (tag : Nat) (s : State) : (State.txnDecide p tag s).pending = s.pending := by
  unfold State.txnDecide
  first | (simp; done) | rfl | (repeat' (first | (simp; done) | split))
@[simp] theorem State.txnTold_pend (p : PortId) (tag t : Nat) (s : State) : (State.txnTold p tag t s).pending = s.pending := by
  unfold State.txnTold
  first | (simp; done) | rfl | (repeat' (first | (simp; done) | split))
@[simp] theorem State.txnMember_pend (x : Txn) (m : Member) (s : State) : (State.txnMember x m s).pending = s.pending := by
  unfold State.txnMember
  first | (simp; done) | rfl | (repeat' (first | (simp; done) | split))
@[simp] theorem State.txnOrphan_pend (x : Txn) (t : Nat) (s : State) : (State.txnOrphan x t s).pending = s.pending := by
  unfold State.txnOrphan
  first | (simp; done) | rfl | (repeat' (first | (simp; done) | split))
@[simp] theorem State.txnCommit_pend (p : PortId) (tag t : Nat) (s : State) : (State.txnCommit p tag t s).pending = s.pending := by
  unfold State.txnCommit
  first | (simp; done) | rfl | (repeat' (first | (simp; done) | split))
@[simp] theorem State.txnReport_pend (p : PortId) (tag t : Nat) (s : State) : (State.txnReport p tag t s).pending = s.pending := by
  unfold State.txnReport
  (try simp)
  repeat' (first | done | (simp; done) | split | intro _ | (simp; split))
@[simp] theorem State.cancelTxn_pend (p : PortId) (tag : Nat) (s : State) : (State.cancelTxn p tag s).1.pending = s.pending := by
  unfold State.cancelTxn
  first | (simp; done) | rfl | (repeat' (first | (simp; done) | split))
@[simp] theorem State.txnOffline_pend (t : Nat) (s : State) : (State.txnOffline t s).pending = s.pending := by
  unfold State.txnOffline
  first | (simp; done) | rfl | (repeat' (first | (simp; done) | split))
@[simp] theorem State.txnLost_pend (t : Nat) (s : State) : (State.txnLost t s).pending = s.pending := by
  unfold State.txnLost
  first | (simp; done) | rfl | (repeat' (first | (simp; done) | split))
@[simp] theorem State.cancelActions_pend (p : PortId) (g : Nat) (s : State) : (State.cancelActions p g s).1.pending = s.pending := by
  unfold State.cancelActions
  first | (simp; done) | rfl | (repeat' (first | (simp; done) | split))
@[simp] theorem State.linkDisarm_pend (t n : Nat) (s : State) : (State.linkDisarm t n s).pending = s.pending := by
  unfold State.linkDisarm
  first | (simp; done) | rfl | (repeat' (first | (simp; done) | split))
@[simp] theorem State.linkStreams_pend (t : Nat) (cs : List Nat) (n : Nat) (b : Bool) (s : State) :
    (State.linkStreams t cs n b s).pending = s.pending := by
  induction cs generalizing n b s with
  | nil => simp [State.linkStreams]
  | cons c cs ih => simp [State.linkStreams, ih]
@[simp] theorem State.linkReadmit_pend (t : Nat) (s : State) : (State.linkReadmit t s).pending = s.pending := by
  unfold State.linkReadmit
  (try simp)
  repeat' (first | done | (simp; done) | split | intro _ | (simp; split))
@[simp] theorem State.loseSight_pend (t : Nat) (s : State) : (State.loseSight t s).pending = s.pending := by
  unfold State.loseSight
  first | (simp; done) | rfl | (repeat' (first | (simp; done) | split))
@[simp] theorem State.findSight_pend (t : Nat) (f : Link → Link) (s : State) : (State.findSight t f s).pending = s.pending := by
  unfold State.findSight
  first | (simp; done) | rfl | (repeat' (first | (simp; done) | split))
@[simp] theorem State.laneFail_pend (t m : Nat) (s : State) : (State.laneFail t m s).pending = s.pending := by
  unfold State.laneFail
  first | (simp; done) | rfl | (repeat' (first | (simp; done) | split))
@[simp] theorem State.badFrame_pend (t lane : Nat) (s : State) : (State.badFrame t lane s).pending = s.pending := by
  unfold State.badFrame
  first | (simp; done) | rfl | (repeat' (first | (simp; done) | split))
@[simp] theorem State.linkReturn_pend (t lanes : Nat) (s : State) : (State.linkReturn t lanes s).pending = s.pending := by
  unfold State.linkReturn
  first | (simp; done) | rfl | (repeat' (first | (simp; done) | split))
@[simp] theorem State.abandonSeqs_pend (t : Nat) (s : State) : (State.abandonSeqs t s).pending = s.pending := by
  unfold State.abandonSeqs
  dsimp only
  refine (forAll_pend _ (fun n s => ?_) _ _).trans ?_
  · split <;> simp
  · simp
@[simp] theorem State.staleLines_pend (t : Nat) (on : Bool) (s : State) : (State.staleLines t on s).pending = s.pending := by
  unfold State.staleLines
  first | (simp; done) | rfl | (repeat' (first | (simp; done) | split))
@[simp] theorem State.tileDown_pend (t : Nat) (s : State) : (State.tileDown t s).pending = s.pending := by
  have h (s : State) : (forAll (fun c s => s.abortStaged t c) chanNos s).pending = s.pending := by simp
  unfold State.tileDown
  refine (State.refresh_pend _ _).trans <| (State.staleLines_pend _ _ _).trans <| (State.stopWhere_pend _ _ _ _).trans <|
    (State.stopWhere_pend _ _ _ _).trans <| (State.abortInj_pend _ _ _).trans <| (State.abandonSeqs_pend _ _).trans <|
    (State.txnOffline_pend _ _).trans <| h s
@[simp] theorem State.startReadmit_pend (t : Nat) (h : Option Hdr) (s : State) : (State.startReadmit t h s).pending = s.pending := by
  unfold State.startReadmit
  first | (simp; done) | rfl | (repeat' (first | (simp; done) | split))
@[simp] theorem State.enterBlock_pend (t : Nat) (off : Bool) (c : Cause) (s : State) : (State.enterBlock t off c s).pending = s.pending := by
  unfold State.enterBlock
  first | (simp; done) | rfl | (repeat' (first | (simp; done) | split))
@[simp] theorem State.takeDown_pend (t : Nat) (off : Bool) (c : Cause) (s : State) : (State.takeDown t off c s).pending = s.pending := by
  unfold State.takeDown
  first | (simp; done) | rfl | (repeat' (first | (simp; done) | split))
@[simp] theorem State.goOffline_pend (t : Nat) (h : Hdr) (s : State) : (State.goOffline t h s).pending = s.pending := by
  unfold State.goOffline
  first | (simp; done) | rfl | (repeat' (first | (simp; done) | split))
@[simp] theorem State.nowOffline_pend (t : Nat) (s : State) : (State.nowOffline t s).pending = s.pending := by
  unfold State.nowOffline
  first | (simp; done) | rfl | (repeat' (first | (simp; done) | split))
@[simp] theorem State.leaveBlock_pend (t : Nat) (s : State) : (State.leaveBlock t s).pending = s.pending := by
  unfold State.leaveBlock
  first | (simp; done) | rfl | (repeat' (first | (simp; done) | split))
@[simp] theorem State.endReadmit_pend (t : Nat) (ok : Bool) (lanes : Nat) (s : State) : (State.endReadmit t ok lanes s).pending = s.pending := by
  unfold State.endReadmit
  first | (simp; done) | rfl | (repeat' (first | (simp; done) | split))
@[simp] theorem State.barrierLoss_pend (t : Nat) (s : State) : (State.barrierLoss t s).pending = s.pending := by
  unfold State.barrierLoss
  first | (simp; done) | rfl | (repeat' (first | (simp; done) | split))
@[simp] theorem State.barrierResume_pend (t : Nat) (s : State) : (State.barrierResume t s).pending = s.pending := by
  unfold State.barrierResume
  first | (simp; done) | rfl | (repeat' (first | (simp; done) | split))
@[simp] theorem State.loadEng_pend (n t : Nat) (b : Option Nat) (s : State) : (State.loadEng n t b s).pending = s.pending := by
  unfold State.loadEng
  first | (simp; done) | rfl | (repeat' (first | (simp; done) | split))
@[simp] theorem State.loaded_pend (n : Nat) (st : EngSt) (t : Nat) (s : State) : (State.loaded n st t s).pending = s.pending := by
  unfold State.loaded
  first | (simp; done) | rfl | (repeat' (first | (simp; done) | split))
@[simp] theorem State.startRot_pend (t b : Nat) (h : Option Hdr) (s : State) : (State.startRot t b h s).pending = s.pending := by
  unfold State.startRot
  first | (simp; done) | rfl | (repeat' (first | (simp; done) | split))
@[simp] theorem State.endRot_pend (outcome st : Nat) (keep : Bool) (s : State) : (State.endRot outcome st keep s).pending = s.pending := by
  unfold State.endRot
  first | (simp; done) | rfl | (repeat' (first | (simp; done) | split))
@[simp] theorem State.rotLoaded_pend (ok : Bool) (s : State) : (State.rotLoaded ok s).pending = s.pending := by
  unfold State.rotLoaded
  first | (simp; done) | rfl | (repeat' (first | (simp; done) | split))
@[simp] theorem State.rotCopied_pend (ok : Bool) (s : State) : (State.rotCopied ok s).pending = s.pending := by
  unfold State.rotCopied
  first | (simp; done) | rfl | (repeat' (first | (simp; done) | split))
@[simp] theorem State.rotGap_pend (s : State) : (State.rotGap s).pending = s.pending := by
  unfold State.rotGap
  first | (simp; done) | rfl | (repeat' (first | (simp; done) | split))
@[simp] theorem State.rotDone_pend (s : State) : (State.rotDone s).pending = s.pending := by
  unfold State.rotDone
  first | (simp; done) | rfl | (repeat' (first | (simp; done) | split))
@[simp] theorem State.failCommands_pend (t : Nat) (s : State) : (State.failCommands t s).pending = s.pending := by
  unfold State.failCommands
  first | (simp; done) | rfl | (repeat' (first | (simp; done) | split))
@[simp] theorem State.dropWaiting_pend (t : Nat) (s : State) : (State.dropWaiting t s).pending = s.pending := by
  unfold State.dropWaiting
  first | (simp; done) | rfl | (repeat' (first | (simp; done) | split))
@[simp] theorem State.takeRepair_pend (t n k : Nat) (e : Tick) (img : Option Nat) (holds : Bool) (s : State) : (State.takeRepair t n k e img holds s).pending = s.pending := by
  unfold State.takeRepair
  first | (simp; done) | rfl | (repeat' (first | (simp; done) | split))
@[simp] theorem State.startRepair_pend (t n : Nat) (img : Option Nat) (s : State) : (State.startRepair t n img s).pending = s.pending := by
  unfold State.startRepair
  (try simp)
  repeat' (first | done | (simp; done) | split | intro _ | (simp; split))
@[simp] theorem State.endGap_pend (outcome st : Nat) (s : State) : (State.endGap outcome st s).pending = s.pending := by
  unfold State.endGap
  first | (simp; done) | rfl | (repeat' (first | (simp; done) | split))
@[simp] theorem State.rotTimeout_pend (s : State) : (State.rotTimeout s).pending = s.pending := by
  unfold State.rotTimeout
  first | (simp; done) | rfl | (repeat' (first | (simp; done) | split))
@[simp] theorem State.retire_pend (n : Nat) (s : State) : (State.retire n s).pending = s.pending := by
  unfold State.retire
  first | (simp; done) | rfl | (repeat' (first | (simp; done) | split))
@[simp] theorem State.assignRepairs_pend (s : State) : (State.assignRepairs s).pending = s.pending := by
  unfold State.assignRepairs
  (try simp)
  repeat' (first | done | (simp; done) | split | intro _ | (simp; split))
@[simp] theorem State.repaired_pend (t : Nat) (s : State) : (State.repaired t s).pending = s.pending := by
  unfold State.repaired
  first | (simp; done) | rfl | (repeat' (first | (simp; done) | split))
@[simp] theorem State.depotLoaded_pend (n : Nat) (ok : Bool) (s : State) : (State.depotLoaded n ok s).pending = s.pending := by
  unfold State.depotLoaded
  first | (simp; done) | rfl | (repeat' (first | (simp; done) | split))
@[simp] theorem State.abortRot_pend (t : Nat) (s : State) : (State.abortRot t s).pending = s.pending := by
  unfold State.abortRot
  first | (simp; done) | rfl | (repeat' (first | (simp; done) | split))
@[simp] theorem State.endWatchdog_pend (t : Nat) (s : State) : (State.endWatchdog t s).pending = s.pending := by
  unfold State.endWatchdog
  first | (simp; done) | rfl | (repeat' (first | (simp; done) | split))
@[simp] theorem State.serveWatchdog_pend (t : Nat) (s : State) : (State.serveWatchdog t s).pending = s.pending := by
  unfold State.serveWatchdog
  first | (simp; done) | rfl | (repeat' (first | (simp; done) | split))
@[simp] theorem State.expireWatchdog_pend (t : Nat) (s : State) : (State.expireWatchdog t s).pending = s.pending := by
  unfold State.expireWatchdog
  first | (simp; done) | rfl | (repeat' (first | (simp; done) | split))
@[simp] theorem State.modSram_pend (b : Nat) (f : Sram → Sram) (s : State) : (State.modSram b f s).pending = s.pending := by
  unfold State.modSram
  first | (simp; done) | rfl | (repeat' (first | (simp; done) | split))
@[simp] theorem State.railAdjust_pend (k margin : Nat) (s : State) : (State.railAdjust k margin s).pending = s.pending := by
  unfold State.railAdjust
  first | (simp; done) | rfl | (repeat' (first | (simp; done) | split))
@[simp] theorem State.railRecover_pend (k : Nat) (s : State) : (State.railRecover k s).pending = s.pending := by
  unfold State.railRecover
  first | (simp; done) | rfl | (repeat' (first | (simp; done) | split))
@[simp] theorem State.retention_pend (k : Nat) (s : State) : (State.retention k s).pending = s.pending := by
  unfold State.retention
  first | (simp; done) | rfl | (repeat' (first | (simp; done) | split))
@[simp] theorem State.renewPower_pend (draws : List Nat) (s : State) : (State.renewPower draws s).pending = s.pending := by
  unfold State.renewPower
  first | (simp; done) | rfl | (repeat' (first | (simp; done) | split))
@[simp] theorem State.repairRow_pend (b row : Nat) (s : State) : (State.repairRow b row s).pending = s.pending := by
  unfold State.repairRow
  first | (simp; done) | rfl | (repeat' (first | (simp; done) | split))
@[simp] theorem State.scrub_pend (b row : Nat) (single : Bool) (s : State) : (State.scrub b row single s).pending = s.pending := by
  unfold State.scrub
  first | (simp; done) | rfl | (repeat' (first | (simp; done) | split))
@[simp] theorem State.loseMerge_pend (item : Nat) (s : State) : (State.loseMerge item s).pending = s.pending := by
  unfold State.loseMerge
  first | (simp; done) | rfl | (repeat' (first | (simp; done) | split))
@[simp] theorem State.loseCtx_pend (p c : Nat) (s : State) : (State.loseCtx p c s).pending = s.pending := by
  unfold State.loseCtx
  first | (simp; done) | rfl | (repeat' (first | (simp; done) | split))
@[simp] theorem State.doubleBit_pend (b row item : Nat) (s : State) : (State.doubleBit b row item s).pending = s.pending := by
  unfold State.doubleBit
  first | (simp; done) | rfl | (repeat' (first | (simp; done) | split))
@[simp] theorem State.ringError_pend (p : PortId) (r kind : Nat) (s : State) : (State.ringError p r kind s).pending = s.pending := by
  unfold State.ringError
  first | (simp; done) | rfl | (repeat' (first | (simp; done) | split))
@[simp] theorem State.rejoin_pend (p : PortId) (r : Nat) (s : State) : (State.rejoin p r s).pending = s.pending := by
  unfold State.rejoin
  first | (simp; done) | rfl | (repeat' (first | (simp; done) | split))
@[simp] theorem State.ringEnable_pend (p : PortId) (r : Nat) (w : Word) (s : State) : (State.ringEnable p r w s).pending = s.pending := by
  unfold State.ringEnable
  first | (simp; done) | rfl | (repeat' (first | (simp; done) | split))
@[simp] theorem State.ringDisable_pend (p : PortId) (r : Nat) (w : Word) (s : State) : (State.ringDisable p r w s).pending = s.pending := by
  unfold State.ringDisable
  first | (simp; done) | rfl | (repeat' (first | (simp; done) | split))
@[simp] theorem State.pumpAll_pend (s : State) : (State.pumpAll s).pending = s.pending := by
  unfold State.pumpAll
  first | (simp; done) | rfl | (repeat' (first | (simp; done) | split))
@[simp] theorem State.setLive_pend (p : PortId) (s : State) : (State.setLive p s).pending = s.pending := by
  unfold State.setLive
  first | (simp; done) | rfl | (repeat' (first | (simp; done) | split))
@[simp] theorem State.portCtrl_pend (p : PortId) (w : Word) (s : State) : (State.portCtrl p w s).pending = s.pending := by
  unfold State.portCtrl
  first | (simp; done) | rfl | (repeat' (first | (simp; done) | split))
@[simp] theorem State.portLive_pend (p : PortId) (linkUp busMaster : Bool) (speed width : Nat) (l1 : Bool) (s : State) : (State.portLive p linkUp busMaster speed width l1 s).pending = s.pending := by
  unfold State.portLive
  first | (simp; done) | rfl | (repeat' (first | (simp; done) | split))
@[simp] theorem State.resetPort_pend (p : PortId) (s : State) : (State.resetPort p s).pending = s.pending := by
  unfold State.resetPort
  first | (simp; done) | rfl | (repeat' (first | (simp; done) | split))
@[simp] theorem State.takeProd_pend (p : PortId) (r v : Nat) (s : State) : (State.takeProd p r v s).pending = s.pending := by
  unfold State.takeProd
  first | (simp; done) | rfl | (repeat' (first | (simp; done) | split))
@[simp] theorem State.poll_pend (p : PortId) (prods : List Nat) (fails : Bool) (s : State) : (State.poll p prods fails s).pending = s.pending := by
  unfold State.poll
  first | (simp; done) | rfl | (repeat' (first | (simp; done) | split))
@[simp] theorem State.bar2Write_pend (p : PortId) (offset : Nat) (w : Word) (s : State) : (State.bar2Write p offset w s).pending = s.pending := by
  unfold State.bar2Write
  first | (simp; done) | rfl | (repeat' (first | (simp; done) | split))
@[simp] theorem State.message_pend (p : PortId) (r : Nat) (s : State) : (State.message p r s).pending = s.pending := by
  unfold State.message
  first | (simp; done) | rfl | (repeat' (first | (simp; done) | split))
@[simp] theorem State.fetch_pend (p : PortId) (r : Nat) (d : Desc) (s : State) : (State.fetch p r d s).pending = s.pending := by
  unfold State.fetch
  dsimp only
  split
  · rfl
  · split
    · exact (State.reply_pend _ _ _ _).trans <| (State.begun_pend _ _).trans <| (State.rouse_pend _ _).trans (State.modPort_pend _ _ _)
    · split
      · exact (State.reply_pend _ _ _ _).trans <| (State.begun_pend _ _).trans <| (State.rouse_pend _ _).trans (State.modPort_pend _ _ _)
      · exact (State.rouse_pend _ _).trans (State.modPort_pend _ _ _)
@[simp] theorem State.taken_pend (h : Hdr) (op : Nat) (s : State) : (State.taken h op s).pending = s.pending := by
  unfold State.taken
  first | (simp; done) | rfl | (repeat' (first | (simp; done) | split))
@[simp] theorem State.cmdMargin_pend (h : Hdr) (op : Nat) (s : State) : (State.cmdMargin h op s).pending = s.pending := by
  unfold State.cmdMargin
  first | (simp; done) | rfl | (repeat' (first | (simp; done) | split))
@[simp] theorem State.begin__pend (h : Hdr) (op : Nat) (c : Cmd) (act : State → State × Option Reply) (s : State) (h_act : ∀ s, (act s).1.pending = s.pending) : (State.begin_ h op c act s).pending = s.pending := by
  unfold State.begin_
  (try simp [h_act])
  repeat' (first | done | (simp [h_act]; done) | split | intro _ | (simp [h_act]; split))
@[simp] theorem State.runCmd_pend (h : Hdr) (op : Nat) (c : Cmd) (act : State → State × Option Reply) (s : State) (h_act : ∀ s, (act s).1.pending = s.pending) : (State.runCmd h op c act s).pending = s.pending := by
  unfold State.runCmd
  (try simp [h_act])
  repeat' (first | done | (simp [h_act]; done) | split | intro _ | (simp [h_act]; split))
@[simp] theorem State.waitPast_pend (p : PortId) (r n : Nat) (s : State) : (State.waitPast p r n s).pending = s.pending := by
  unfold State.waitPast
  first | (simp; done) | rfl | (repeat' (first | (simp; done) | split))
@[simp] theorem State.grant_pend (o : Own) (p : PortId) (cls first count cause : Nat) (f : Option PortId → Bool) (v : Option PortId) (s : State) : (State.grant o p cls first count cause f v s).pending = s.pending := by
  unfold State.grant
  first | (simp; done) | rfl | (repeat' (first | (simp; done) | split))
@[simp] theorem State.denied_pend (p : PortId) (cls first count : Nat) (s : State) : (State.denied p cls first count s).pending = s.pending := by
  unfold State.denied
  first | (simp; done) | rfl | (repeat' (first | (simp; done) | split))
@[simp] theorem State.claimIn_pend (o : Own) (p : PortId) (cls first count : Nat) (s : State) : (State.claimIn o p cls first count s).1.pending = s.pending := by
  unfold State.claimIn
  (try simp)
  repeat' (first | done | (simp; done) | split | intro _ | (simp; split))
@[simp] theorem State.releaseIn_pend (o : Own) (p : PortId) (cls first count : Nat) (s : State) : (State.releaseIn o p cls first count s).1.pending = s.pending := by
  unfold State.releaseIn
  first | (simp; done) | rfl | (repeat' (first | (simp; done) | split))
@[simp] theorem State.handoverIn_pend (o : Own) (p : PortId) (cls first count : Nat) (s : State) : (State.handoverIn o p cls first count s).1.pending = s.pending := by
  unfold State.handoverIn
  (try simp)
  repeat' (first | done | (simp; done) | split | intro _ | (simp; split))
@[simp] theorem State.takeoverIn_pend (o : Own) (p : PortId) (cls first count : Nat) (s : State) : (State.takeoverIn o p cls first count s).1.pending = s.pending := by
  unfold State.takeoverIn
  (try simp)
  repeat' (first | done | (simp; done) | split | intro _ | (simp; split))
@[simp] theorem State.ownRow_pend (c : Instr) (s : State) : (State.ownRow c s).pending = s.pending := by
  unfold State.ownRow
  first | (simp; done) | rfl | (repeat' (first | (simp; done) | split))
@[simp] theorem State.claim_pend (p : PortId) (cls first count : Nat) (s : State) : (State.claim p cls first count s).1.pending = s.pending := by
  unfold State.claim
  (try simp)
  repeat' (first | done | (simp; done) | split | intro _ | (simp; split))
@[simp] theorem State.releaseOwn_pend (p : PortId) (cls first count : Nat) (s : State) : (State.releaseOwn p cls first count s).1.pending = s.pending := by
  unfold State.releaseOwn
  first | (simp; done) | rfl | (repeat' (first | (simp; done) | split))
@[simp] theorem State.handover_pend (p : PortId) (cls first count : Nat) (s : State) : (State.handover p cls first count s).1.pending = s.pending := by
  unfold State.handover
  (try simp)
  repeat' (first | done | (simp; done) | split | intro _ | (simp; split))
@[simp] theorem State.takeover_pend (p : PortId) (cls first count : Nat) (s : State) : (State.takeover p cls first count s).1.pending = s.pending := by
  unfold State.takeover
  first | (simp; done) | rfl | (repeat' (first | (simp; done) | split))
@[simp] theorem State.lockRow_pend (c : Instr) (s : State) : (State.lockRow c s).pending = s.pending := by
  unfold State.lockRow
  first | (simp; done) | rfl | (repeat' (first | (simp; done) | split))
@[simp] theorem State.lockCmd_pend (p : PortId) (unlock : Bool) (key : Nat) (s : State) : (State.lockCmd p unlock key s).1.pending = s.pending := by
  unfold State.lockCmd
  first | (simp; done) | rfl | (repeat' (first | (simp; done) | split))
@[simp] theorem State.ackOne_pend (k i : Nat) (s : State) : (State.ackOne k i s).pending = s.pending := by
  unfold State.ackOne
  first | (simp; done) | rfl | (repeat' (first | (simp; done) | split))
@[simp] theorem State.endOrphans_pend (t : Nat) (s : State) : (State.endOrphans t s).pending = s.pending := by
  unfold State.endOrphans
  first | (simp; done) | rfl | (repeat' (first | (simp; done) | split))
@[simp] theorem State.ackBlk_pend (k mask : Nat) (s : State) : (State.ackBlk k mask s).1.pending = s.pending := by
  unfold State.ackBlk
  first | (simp; done) | rfl | (repeat' (first | (simp; done) | split))
@[simp] theorem State.presentEnd_pend (k i : Nat) (s : State) : (State.presentEnd k i s).pending = s.pending := by
  unfold State.presentEnd
  first | (simp; done) | rfl | (repeat' (first | (simp; done) | split))
@[simp] theorem State.logRead_pend (h : Hdr) (log count addr start : Nat) (s : State) : (State.logRead h log count addr start s).1.pending = s.pending := by
  unfold State.logRead
  first | (simp; done) | rfl | (repeat' (first | (simp; done) | split))
@[simp] theorem State.windowEnd_pend (s : State) : (State.windowEnd s).pending = s.pending := by
  unfold State.windowEnd
  first | (simp; done) | rfl | (repeat' (first | (simp; done) | split))
@[simp] theorem State.mirrorWrite_pend (fails : Bool) (s : State) : (State.mirrorWrite fails s).pending = s.pending := by
  unfold State.mirrorWrite
  first | (simp; done) | rfl | (repeat' (first | (simp; done) | split))
@[simp] theorem State.selfchk_pend (k diff : Nat) (s : State) : (State.selfchk k diff s).pending = s.pending := by
  unfold State.selfchk
  first | (simp; done) | rfl | (repeat' (first | (simp; done) | split))
@[simp] theorem State.fsafeFall_pend (s : State) : (State.fsafeFall s).pending = s.pending := by
  unfold State.fsafeFall
  first | (simp; done) | rfl | (repeat' (first | (simp; done) | split))
@[simp] theorem State.fsafeRise_pend (s : State) : (State.fsafeRise s).pending = s.pending := by
  unfold State.fsafeRise
  first | (simp; done) | rfl | (repeat' (first | (simp; done) | split))
@[simp] theorem State.gateServe_pend (s : State) : (State.gateServe s).pending = s.pending := by
  unfold State.gateServe
  first | (simp; done) | rfl | (repeat' (first | (simp; done) | split))
@[simp] theorem State.gateMiss_pend (s : State) : (State.gateMiss s).pending = s.pending := by
  unfold State.gateMiss
  first | (simp; done) | rfl | (repeat' (first | (simp; done) | split))
@[simp] theorem State.aliveEdge_pend (s : State) : (State.aliveEdge s).pending = s.pending := by
  unfold State.aliveEdge
  first | (simp; done) | rfl | (repeat' (first | (simp; done) | split))
@[simp] theorem State.hubTemp_pend (tj : Int) (s : State) : (State.hubTemp tj s).pending = s.pending := by
  unfold State.hubTemp
  first | (simp; done) | rfl | (repeat' (first | (simp; done) | split))
@[simp] theorem State.railSample_pend (rail : Nat) (mv : Int) (s : State) : (State.railSample rail mv s).pending = s.pending := by
  unfold State.railSample
  first | (simp; done) | rfl | (repeat' (first | (simp; done) | split))
@[simp] theorem State.queueFrame_pend (h : Hdr) (r : FrameRec) (resAddr : Nat) (fails : Bool) (s : State) : (State.queueFrame h r resAddr fails s).1.pending = s.pending := by
  unfold State.queueFrame
  first | (simp; done) | rfl | (repeat' (first | (simp; done) | split))
@[simp] theorem State.dropFrame_pend (n : Nat) (f : Frame) (r : Reply) (s : State) : (State.dropFrame n f r s).pending = s.pending := by
  unfold State.dropFrame
  first | (simp; done) | rfl | (repeat' (first | (simp; done) | split))
@[simp] theorem State.startFrame_pend (n : Nat) (s : State) : (State.startFrame n s).pending = s.pending := by
  unfold State.startFrame
  (try simp)
  repeat' (first | done | (simp; done) | split | intro _ | (simp; split))
@[simp] theorem State.endFrame_pend (n : Nat) (ws : List Word) (edges : Nat) (s : State) : (State.endFrame n ws edges s).pending = s.pending := by
  unfold State.endFrame
  first | (simp; done) | rfl | (repeat' (first | (simp; done) | split))
@[simp] theorem State.abortFrames_pend (n : Nat) (s : State) : (State.abortFrames n s).1.pending = s.pending := by
  unfold State.abortFrames
  first | (simp; done) | rfl | (repeat' (first | (simp; done) | split))
@[simp] theorem State.strayEdge_pend (n : Nat) (s : State) : (State.strayEdge n s).pending = s.pending := by
  unfold State.strayEdge
  first | (simp; done) | rfl | (repeat' (first | (simp; done) | split))
@[simp] theorem State.latchNow_pend (p : PortId) (s : State) : (State.latchNow p s).pending = s.pending := by
  unfold State.latchNow
  first | (simp; done) | rfl | (repeat' (first | (simp; done) | split))
@[simp] theorem State.doTestWrite_pend (t : Nat) (w : Word) (s : State) : (State.doTestWrite t w s).1.pending = s.pending := by
  unfold State.doTestWrite
  first | (simp; done) | rfl | (repeat' (first | (simp; done) | split))
@[simp] theorem State.trimWrite_pend (t c reg : Nat) (w : Word) (s : State) : (State.trimWrite t c reg w s).1.pending = s.pending := by
  unfold State.trimWrite
  first | (simp; done) | rfl | (repeat' (first | (simp; done) | split))
@[simp] theorem State.convCtrl_pend (t : Nat) (w : Word) (s : State) : (State.convCtrl t w s).1.pending = s.pending := by
  unfold State.convCtrl
  first | (simp; done) | rfl | (repeat' (first | (simp; done) | split))
@[simp] theorem State.injCfg_pend (t : Nat) (w : Word) (s : State) : (State.injCfg t w s).1.pending = s.pending := by
  unfold State.injCfg
  first | (simp; done) | rfl | (repeat' (first | (simp; done) | split))
@[simp] theorem State.seqAdm_pend (t n adm : Nat) (s : State) : (State.seqAdm t n adm s).1.pending = s.pending := by
  unfold State.seqAdm
  first | (simp; done) | rfl | (repeat' (first | (simp; done) | split))
@[simp] theorem State.seqCfg_pend (t n : Nat) (w : Word) (s : State) : (State.seqCfg t n w s).1.pending = s.pending := by
  unfold State.seqCfg
  first | (simp; done) | rfl | (repeat' (first | (simp; done) | split))
@[simp] theorem State.seqReg_pend (t n j : Nat) (w : Word) (s : State) : (State.seqReg t n j w s).1.pending = s.pending := by
  unfold State.seqReg
  first | (simp; done) | rfl | (repeat' (first | (simp; done) | split))
@[simp] theorem State.slotWrite_pend (t n k : Nat) (w : Word) (s : State) : (State.slotWrite t n k w s).1.pending = s.pending := by
  unfold State.slotWrite
  first | (simp; done) | rfl | (repeat' (first | (simp; done) | split))
@[simp] theorem State.putRule_pend (t i : Nat) (r : Rule) (s : State) : (State.putRule t i r s).pending = s.pending := by
  unfold State.putRule
  first | (simp; done) | rfl | (repeat' (first | (simp; done) | split))
@[simp] theorem State.ruleReg_pend (t i j : Nat) (w : Word) (s : State) : (State.ruleReg t i j w s).1.pending = s.pending := by
  unfold State.ruleReg
  first | (simp; done) | rfl | (repeat' (first | (simp; done) | split))
@[simp] theorem State.vitSel_pend (p : PortId) (t : Nat) (w : Word) (s : State) : (State.vitSel p t w s).pending = s.pending := by
  unfold State.vitSel
  first | (simp; done) | rfl | (repeat' (first | (simp; done) | split))
@[simp] theorem State.pokeTile_pend (p : PortId) (t o : Nat) (w : Word) (s : State) : (State.pokeTile p t o w s).1.pending = s.pending := by
  unfold State.pokeTile
  (try simp)
  repeat' (first | done | (simp; done) | split | intro _ | (simp; split))
@[simp] theorem State.horizonWrite_pend (w : Word) (s : State) : (State.horizonWrite w s).pending = s.pending := by
  unfold State.horizonWrite
  first | (simp; done) | rfl | (repeat' (first | (simp; done) | split))
@[simp] theorem State.pokeGlobal_pend (a : Nat) (w : Word) (s : State) : (State.pokeGlobal a w s).pending = s.pending := by
  unfold State.pokeGlobal
  first | (simp; done) | rfl | (repeat' (first | (simp; done) | split))
@[simp] theorem State.pokePipe_pend (i o : Nat) (w : Word) (s : State) : (State.pokePipe i o w s).1.pending = s.pending := by
  unfold State.pokePipe
  first | (simp; done) | rfl | (repeat' (first | (simp; done) | split))
@[simp] theorem State.pokePort_pend (q : PortId) (o : Nat) (w : Word) (s : State) : (State.pokePort q o w s).pending = s.pending := by
  unfold State.pokePort
  first | (simp; done) | rfl | (repeat' (first | (simp; done) | split))
@[simp] theorem State.pwrCtrl_pend (w : Word) (s : State) : (State.pwrCtrl w s).pending = s.pending := by
  unfold State.pwrCtrl
  first | (simp; done) | rfl | (repeat' (first | (simp; done) | split))
@[simp] theorem State.reactWrite_pend (k i : Nat) (w : Word) (s : State) : (State.reactWrite k i w s).pending = s.pending := by
  unfold State.reactWrite
  first | (simp; done) | rfl | (repeat' (first | (simp; done) | split))
@[simp] theorem State.headerWrite_pend (k j : Nat) (w : Word) (s : State) : (State.headerWrite k j w s).pending = s.pending := by
  unfold State.headerWrite
  first | (simp; done) | rfl | (repeat' (first | (simp; done) | split))
@[simp] theorem State.pokeSp_pend (n o : Nat) (w : Word) (s : State) : (State.pokeSp n o w s).pending = s.pending := by
  unfold State.pokeSp
  first | (simp; done) | rfl | (repeat' (first | (simp; done) | split))
@[simp] theorem State.poke_pend (p : PortId) (a : Nat) (w : Word) (s : State) : (State.poke p a w s).1.pending = s.pending := by
  unfold State.poke
  first | (simp; done) | rfl | (repeat' (first | (simp; done) | split))
@[simp] theorem State.countDiscard_pend (p : PortId) (a : Nat) (s : State) : (State.countDiscard p a s).pending = s.pending := by
  unfold State.countDiscard
  first | (simp; done) | rfl | (repeat' (first | (simp; done) | split))
@[simp] theorem State.barWrite_pend (p : PortId) (a dwords be : Nat) (w : Word) (s : State) : (State.barWrite p a dwords be w s).pending = s.pending := by
  unfold State.barWrite
  first | (simp; done) | rfl | (repeat' (first | (simp; done) | split))
@[simp] theorem State.catRead_pend (h : Hdr) (start count addr : Nat) (s : State) : (State.catRead h start count addr s).1.pending = s.pending := by
  unfold State.catRead
  first | (simp; done) | rfl | (repeat' (first | (simp; done) | split))
@[simp] theorem catPut_pend (p : PortId) (a : Nat) (ws : List Word) (k : Nat) (s : State) :
    (catPut p a ws k s).1.pending = s.pending := by
  induction ws generalizing k s with
  | nil => simp [catPut]
  | cons w ws ih =>
    unfold catPut
    dsimp only
    split
    · rfl
    · have h := State.poke_pend p (a + 4 * k) w s
      split <;> simp_all
@[simp] theorem State.catWrite_pend (h : Hdr) (start count : Nat) (words : List Word) (s : State) :
    (State.catWrite h start count words s).1.pending = s.pending := by
  have hp := catPut_pend h.port start (words.take (catReach start count).1) 0 s
  unfold State.catWrite
  dsimp only
  split
  · rfl
  · split
    · rfl
    · split
      · split <;> simp_all
      · simp_all
@[simp] theorem State.modRec_pend (b : Nat) (f : BankRec → BankRec) (s : State) : (State.modRec b f s).pending = s.pending := by
  unfold State.modRec
  first | (simp; done) | rfl | (repeat' (first | (simp; done) | split))
@[simp] theorem State.storeFail_pend (s : State) : (State.storeFail s).pending = s.pending := by
  unfold State.storeFail
  first | (simp; done) | rfl | (repeat' (first | (simp; done) | split))
@[simp] theorem State.openSession_pend (p : PortId) (s : State) : (State.openSession p s).pending = s.pending := by
  unfold State.openSession
  first | (simp; done) | rfl | (repeat' (first | (simp; done) | split))
@[simp] theorem State.verifiedRec_pend (s : State) : (State.verifiedRec s).pending = s.pending := by
  unfold State.verifiedRec
  first | (simp; done) | rfl | (repeat' (first | (simp; done) | split))
@[simp] theorem State.imageErase_pend (h : Hdr) (s : State) : (State.imageErase h s).1.pending = s.pending := by
  unfold State.imageErase
  first | (simp; done) | rfl | (repeat' (first | (simp; done) | split))
@[simp] theorem State.sessionEnd_pend (s : State) : (State.sessionEnd s).pending = s.pending := by
  unfold State.sessionEnd
  first | (simp; done) | rfl | (repeat' (first | (simp; done) | split))
@[simp] theorem State.saveSettings_pend (b : Nat) (s : State) : (State.saveSettings b s).pending = s.pending := by
  unfold State.saveSettings
  first | (simp; done) | rfl | (repeat' (first | (simp; done) | split))
@[simp] theorem State.settingsSave_pend (h : Hdr) (s : State) : (State.settingsSave h s).1.pending = s.pending := by
  unfold State.settingsSave
  first | (simp; done) | rfl | (repeat' (first | (simp; done) | split))
@[simp] theorem State.trimSave_pend (s : State) : (State.trimSave s).pending = s.pending := by
  unfold State.trimSave
  first | (simp; done) | rfl | (repeat' (first | (simp; done) | split))
@[simp] theorem State.loadDepot_pend (b : Nat) (s : State) : (State.loadDepot b s).pending = s.pending := by
  unfold State.loadDepot
  first | (simp; done) | rfl | (repeat' (first | (simp; done) | split))
@[simp] theorem State.activateLive_pend (h : Hdr) (secs : Nat) (s : State) : (State.activateLive h secs s).1.pending = s.pending := by
  unfold State.activateLive
  first | (simp; done) | rfl | (repeat' (first | (simp; done) | split))
@[simp] theorem State.dropActivation_pend (b st : Nat) (s : State) : (State.dropActivation b st s).pending = s.pending := by
  unfold State.dropActivation
  first | (simp; done) | rfl | (repeat' (first | (simp; done) | split))
@[simp] theorem State.endRevert_pend (s : State) : (State.endRevert s).pending = s.pending := by
  unfold State.endRevert
  first | (simp; done) | rfl | (repeat' (first | (simp; done) | split))
@[simp] theorem State.enterTrial_pend (s : State) : (State.enterTrial s).pending = s.pending := by
  unfold State.enterTrial
  first | (simp; done) | rfl | (repeat' (first | (simp; done) | split))
@[simp] theorem State.chain_pend (s : State) : (State.chain s).pending = s.pending := by
  unfold State.chain
  (try simp)
  repeat' (first | done | (simp; done) | split | intro _ | (simp; split))
@[simp] theorem State.countRotated_pend (s : State) : (State.countRotated s).pending = s.pending := by
  unfold State.countRotated
  first | (simp; done) | rfl | (repeat' (first | (simp; done) | split))
@[simp] theorem State.svSwitch_pend (ok : Bool) (s : State) : (State.svSwitch ok s).pending = s.pending := by
  unfold State.svSwitch
  first | (simp; done) | rfl | (repeat' (first | (simp; done) | split))
@[simp] theorem State.revertLive_pend (cause : Nat) (h : Option Hdr) (s : State) : (State.revertLive cause h s).pending = s.pending := by
  unfold State.revertLive
  first | (simp; done) | rfl | (repeat' (first | (simp; done) | split))
@[simp] theorem State.confirm_pend (fails : Bool) (s : State) : (State.confirm fails s).1.pending = s.pending := by
  unfold State.confirm
  first | (simp; done) | rfl | (repeat' (first | (simp; done) | split))
@[simp] theorem State.restart_pend (pw : Power) (cause : Nat) (s : State) : (State.restart pw cause s).pending = s.pending := by
  unfold State.restart
  first | (simp; done) | rfl | (repeat' (first | (simp; done) | split))
@[simp] theorem State.chipRestart_pend (s : State) : (State.chipRestart s).pending = s.pending := by
  unfold State.chipRestart
  first | (simp; done) | rfl | (repeat' (first | (simp; done) | split))
@[simp] theorem State.porst_pend (s : State) : (State.porst s).pending = s.pending := by
  unfold State.porst
  first | (simp; done) | rfl | (repeat' (first | (simp; done) | split))
@[simp] theorem State.brownOut_pend (s : State) : (State.brownOut s).pending = s.pending := by
  unfold State.brownOut
  first | (simp; done) | rfl | (repeat' (first | (simp; done) | split))
@[simp] theorem State.powerOn_pend (lowMs : Nat) (vkaOk : Bool) (s : State) : (State.powerOn lowMs vkaOk s).pending = s.pending := by
  unfold State.powerOn
  first | (simp; done) | rfl | (repeat' (first | (simp; done) | split))
@[simp] theorem State.enterFallow_pend (s : State) : (State.enterFallow s).pending = s.pending := by
  unfold State.enterFallow
  first | (simp; done) | rfl | (repeat' (first | (simp; done) | split))
@[simp] theorem State.loseVka_pend (s : State) : (State.loseVka s).pending = s.pending := by
  unfold State.loseVka
  first | (simp; done) | rfl | (repeat' (first | (simp; done) | split))
@[simp] theorem State.wake_pend (s : State) : (State.wake s).pending = s.pending := by
  unfold State.wake
  first | (simp; done) | rfl | (repeat' (first | (simp; done) | split))
@[simp] theorem State.enterRecovery_pend (s : State) : (State.enterRecovery s).pending = s.pending := by
  unfold State.enterRecovery
  first | (simp; done) | rfl | (repeat' (first | (simp; done) | split))
@[simp] theorem State.boot_pend (b : Nat) (trial : Bool) (s : State) : (State.boot b trial s).pending = s.pending := by
  unfold State.boot
  first | (simp; done) | rfl | (repeat' (first | (simp; done) | split))
@[simp] theorem State.bootTrial_pend (b : Nat) (s : State) : (State.bootTrial b s).pending = s.pending := by
  unfold State.bootTrial
  first | (simp; done) | rfl | (repeat' (first | (simp; done) | split))
@[simp] theorem State.endTrials_pend (s : State) : (State.endTrials s).pending = s.pending := by
  unfold State.endTrials
  first | (simp; done) | rfl | (repeat' (first | (simp; done) | split))
@[simp] theorem State.selectBank_pend (recov : Bool) (s : State) : (State.selectBank recov s).pending = s.pending := by
  unfold State.selectBank
  (try simp)
  repeat' (first | done | (simp; done) | split | intro _ | (simp; split))
@[simp] theorem State.atP_pend (s : State) : (State.atP s).pending = s.pending := by
  unfold State.atP
  first | (simp; done) | rfl | (repeat' (first | (simp; done) | split))
@[simp] theorem State.takeVio_pend (mv : Nat) (s : State) : (State.takeVio mv s).pending = s.pending := by
  unfold State.takeVio
  first | (simp; done) | rfl | (repeat' (first | (simp; done) | split))
@[simp] theorem State.lowFsafe_pend (s : State) : (State.lowFsafe s).pending = s.pending := by
  unfold State.lowFsafe
  first | (simp; done) | rfl | (repeat' (first | (simp; done) | split))
@[simp] theorem State.startup_pend (chip recovN tmode : Bool) (vioMv : Nat) (s : State) : (State.startup chip recovN tmode vioMv s).pending = s.pending := by
  unfold State.startup
  first | (simp; done) | rfl | (repeat' (first | (simp; done) | split))
@[simp] theorem State.tilePower_pend (t : Nat) (s : State) : (State.tilePower t s).pending = s.pending := by
  unfold State.tilePower
  first | (simp; done) | rfl | (repeat' (first | (simp; done) | split))
@[simp] theorem State.countRefused_pend (s : State) : (State.countRefused s).pending = s.pending := by
  unfold State.countRefused
  first | (simp; done) | rfl | (repeat' (first | (simp; done) | split))
@[simp] theorem State.restorePassOf_pend (k : Nat) (regs : List (Nat × Word)) (s : State) :
    (State.restorePassOf k regs s).pending = s.pending := by
  unfold State.restorePassOf
  refine forAll_pend _ (fun x s => ?_) _ _
  have h := State.poke_pend .ha x.1 x.2 s
  split
  · split <;> simp_all
  · rfl
@[simp] theorem State.restoreChan_pend (rank : Nat) (regs : List (Nat × Word)) (t c : Nat) (s : State) : (State.restoreChan rank regs t c s).pending = s.pending := by
  unfold State.restoreChan
  (try simp)
  repeat' (first | done | (simp; done) | split | intro _ | (simp; split))
@[simp] theorem State.restore_pend (regs : List (Nat × Word)) (banks : List CBank) (s : State) :
    (State.restore regs banks s).pending = s.pending := by
  have h1 (rank t : Nat) (s : State) : (forAll (fun c s => s.restoreChan rank regs t c) chanNos s).pending = s.pending :=
    forAll_pend _ (fun c s => State.restoreChan_pend rank regs t c s) _ s
  have h2 (rank : Nat) (s : State) :
      (forAll (fun t s => forAll (fun c s => s.restoreChan rank regs t c) chanNos s) tileNos s).pending = s.pending :=
    forAll_pend _ (fun t s => h1 rank t s) _ s
  unfold State.restore
  simp [h2]
@[simp] theorem State.completeStart_pend (s : State) : (State.completeStart s).pending = s.pending := by
  unfold State.completeStart
  first | (simp; done) | rfl | (repeat' (first | (simp; done) | split))
@[simp] theorem State.activateRestart_pend (h : Hdr) (dflt : Bool) (secs : Nat) (s : State) : (State.activateRestart h dflt secs s).1.pending = s.pending := by
  unfold State.activateRestart
  first | (simp; done) | rfl | (repeat' (first | (simp; done) | split))
@[simp] theorem State.revertRestart_pend (cause : Nat) (s : State) : (State.revertRestart cause s).pending = s.pending := by
  unfold State.revertRestart
  first | (simp; done) | rfl | (repeat' (first | (simp; done) | split))
@[simp] theorem State.revert_pend (cause : Nat) (h : Option Hdr) (s : State) : (State.revert cause h s).pending = s.pending := by
  unfold State.revert
  first | (simp; done) | rfl | (repeat' (first | (simp; done) | split))
@[simp] theorem State.imageRevert_pend (h : Hdr) (s : State) : (State.imageRevert h s).1.pending = s.pending := by
  unfold State.imageRevert
  first | (simp; done) | rfl | (repeat' (first | (simp; done) | split))
@[simp] theorem State.trialOver_pend (s : State) : (State.trialOver s).pending = s.pending := by
  unfold State.trialOver
  first | (simp; done) | rfl | (repeat' (first | (simp; done) | split))
@[simp] theorem State.imageRecover_pend (h : Hdr) (s : State) : (State.imageRecover h s).pending = s.pending := by
  unfold State.imageRecover
  first | (simp; done) | rfl | (repeat' (first | (simp; done) | split))
@[simp] theorem State.blockReset_pend (k i : Nat) (s : State) : (State.blockReset k i s).pending = s.pending := by
  unfold State.blockReset
  first | (simp; done) | rfl | (repeat' (first | (simp; done) | split))
@[simp] theorem State.retireTrial_pend (n : Nat) (s : State) : (State.retireTrial n s).pending = s.pending := by
  unfold State.retireTrial
  first | (simp; done) | rfl | (repeat' (first | (simp; done) | split))
@[simp] theorem State.react_pend (x : Nat × Nat × Nat) (s : State) : (State.react x s).pending = s.pending := by
  unfold State.react
  first | (simp; done) | rfl | (repeat' (first | (simp; done) | split))
@[simp] theorem State.settleIn_pend (k : Nat) (s : State) : (State.settleIn k s).pending = s.pending := by
  induction k generalizing s with
  | zero => simp [State.settleIn]
  | succ k ih =>
    unfold State.settleIn
    split
    · rfl
    · rw [ih]; simp
@[simp] theorem State.settle_pend (s : State) : (State.settle s).pending = s.pending := by
  unfold State.settle
  (try simp)
  repeat' (first | done | (simp; done) | split | intro _ | (simp; split))
@[simp] theorem State.finish_pend (s : State) : (State.finish s).pending = s.pending := by
  unfold State.finish
  first | (simp; done) | rfl | (repeat' (first | (simp; done) | split))
@[simp] theorem State.onTick_pend (τ : Tick) (f : State → State) (s : State) (h_f : ∀ s, (f s).pending = s.pending) : (State.onTick τ f s).pending = s.pending := by
  unfold State.onTick
  first | (simp [h_f]; done) | rfl | (repeat' (first | (simp [h_f]; done) | split))
@[simp] theorem State.onSv_pend (τ : Tick) (f : State → State) (s : State) (h_f : ∀ s, (f s).pending = s.pending) : (State.onSv τ f s).pending = s.pending := by
  unfold State.onSv
  first | (simp [h_f]; done) | rfl | (repeat' (first | (simp [h_f]; done) | split))
@[simp] theorem State.onRing_pend (h : Hdr) (op : Nat) (c : State → Cmd) (act : State → State × Option Reply) (s : State) (h_act : ∀ s, (act s).1.pending = s.pending) : (State.onRing h op c act s).pending = s.pending := by
  unfold State.onRing
  first | (simp [h_act]; done) | rfl | (repeat' (first | (simp [h_act]; done) | split))
@[simp] theorem State.onWrite_pend (τ : Tick) (p : PortId) (a dwords be : Nat) (w : Word) (s : State) : (State.onWrite τ p a dwords be w s).pending = s.pending := by
  unfold State.onWrite
  first | (simp; done) | rfl | (repeat' (first | (simp; done) | split))
@[simp] theorem State.modeCmd_pend (g mode par : Nat) (carry : Bool) (cfg diag : Word) (s : State) : (State.modeCmd g mode par carry cfg diag s).1.pending = s.pending := by
  unfold State.modeCmd
  first | (simp; done) | rfl | (repeat' (first | (simp; done) | split))
@[simp] theorem State.sendAction_pend (h : Hdr) (kind value commit op : Nat) (s : State) : (State.sendAction h kind value commit op s).pending = s.pending := by
  unfold State.sendAction
  first | (simp; done) | rfl | (repeat' (first | (simp; done) | split))
@[simp] theorem State.outSet_pend (h : Hdr) (commit value : Nat) (s : State) : (State.outSet h commit value s).1.pending = s.pending := by
  unfold State.outSet
  first | (simp; done) | rfl | (repeat' (first | (simp; done) | split))
@[simp] theorem State.mirForce_pend (h : Hdr) (commit value : Nat) (s : State) : (State.mirForce h commit value s).1.pending = s.pending := by
  unfold State.mirForce
  first | (simp; done) | rfl | (repeat' (first | (simp; done) | split))
@[simp] theorem State.trimSet_pend (g : Nat) (ofs : Int) (gain : Nat) (s : State) : (State.trimSet g ofs gain s).1.pending = s.pending := by
  unfold State.trimSet
  first | (simp; done) | rfl | (repeat' (first | (simp; done) | split))
@[simp] theorem State.trimWait_pend (h : Hdr) (span : Bool) (ref : Int) (s : State) : (State.trimWait h span ref s).1.pending = s.pending := by
  unfold State.trimWait
  first | (simp; done) | rfl | (repeat' (first | (simp; done) | split))
@[simp] theorem State.rfxWrite_pend (arg : Nat) (r : Rule) (s : State) : (State.rfxWrite arg r s).1.pending = s.pending := by
  unfold State.rfxWrite
  first | (simp; done) | rfl | (repeat' (first | (simp; done) | split))
@[simp] theorem State.rfxEnable_pend (arg : Nat) (en : Bool) (s : State) : (State.rfxEnable arg en s).1.pending = s.pending := by
  unfold State.rfxEnable
  first | (simp; done) | rfl | (repeat' (first | (simp; done) | split))
@[simp] theorem State.armCmd_pend (arg : Nat) (s : State) : (State.armCmd arg s).1.pending = s.pending := by
  unfold State.armCmd
  first | (simp; done) | rfl | (repeat' (first | (simp; done) | split))
@[simp] theorem State.triggerCmd_pend (h : Hdr) (tick : Nat) (s : State) : (State.triggerCmd h tick s).1.pending = s.pending := by
  unfold State.triggerCmd
  first | (simp; done) | rfl | (repeat' (first | (simp; done) | split))
@[simp] theorem State.injectCmd_pend (h : Hdr) (slot : Word) (s : State) : (State.injectCmd h slot s).1.pending = s.pending := by
  unfold State.injectCmd
  first | (simp; done) | rfl | (repeat' (first | (simp; done) | split))
@[simp] theorem State.calibrateCmd_pend (h : Hdr) (s : State) : (State.calibrateCmd h s).1.pending = s.pending := by
  unfold State.calibrateCmd
  first | (simp; done) | rfl | (repeat' (first | (simp; done) | split))
@[simp] theorem State.calibrateExcl_pend (h : Hdr) (conv : Nat) (s : State) : (State.calibrateExcl h conv s).1.pending = s.pending := by
  unfold State.calibrateExcl
  first | (simp; done) | rfl | (repeat' (first | (simp; done) | split))
@[simp] theorem State.rotateCmd_pend (h : Hdr) (newImg : Bool) (s : State) : (State.rotateCmd h newImg s).1.pending = s.pending := by
  unfold State.rotateCmd
  first | (simp; done) | rfl | (repeat' (first | (simp; done) | split))
theorem State.streamFull_pend (p c : Nat) (port : PortId) (s t : State) (h : s.streamFull p c port = some t) :
    t.pending = s.pending := by
  unfold State.streamFull at h
  dsimp only at h
  split at h
  · cases h; simp
  · split at h
    · cases h; simp
    · split at h
      · cases h; simp
      · cases h
@[simp] theorem State.streamStart_pend (h : Hdr) (ring : Nat) (s : State) : (State.streamStart h ring s).1.pending = s.pending := by
  unfold State.streamStart
  dsimp only
  split
  · rfl
  · split
    · rfl
    · split
      · rfl
      · split
        · rename_i u hu
          exact State.streamFull_pend _ _ _ _ _ hu
        · simp
@[simp] theorem State.streamStop_pend (h : Hdr) (s : State) : (State.streamStop h s).1.pending = s.pending := by
  unfold State.streamStop
  first | (simp; done) | rfl | (repeat' (first | (simp; done) | split))
@[simp] theorem State.streamSource_pend (h : Hdr) (n : Nat) (s : State) : (State.streamSource h n s).1.pending = s.pending := by
  unfold State.streamSource
  (try simp)
  repeat' (first | done | (simp; done) | split | intro _ | (simp; split))
@[simp] theorem State.bankLoad_pend (arg : Nat) (image : List Int) (s : State) : (State.bankLoad arg image s).1.pending = s.pending := by
  unfold State.bankLoad
  first | (simp; done) | rfl | (repeat' (first | (simp; done) | split))
@[simp] theorem State.bankSelect_pend (h : Hdr) (bank f : Nat) (s : State) : (State.bankSelect h bank f s).1.pending = s.pending := by
  unfold State.bankSelect
  first | (simp; done) | rfl | (repeat' (first | (simp; done) | split))
@[simp] theorem State.liveCmd_pend (h : Hdr) (dflt : Bool) (secs : Nat) (s : State) : (State.liveCmd h dflt secs s).1.pending = s.pending := by
  unfold State.liveCmd
  first | (simp; done) | rfl | (repeat' (first | (simp; done) | split))
@[simp] theorem State.restartCmd_pend (h : Hdr) (dflt : Bool) (secs : Nat) (s : State) : (State.restartCmd h dflt secs s).1.pending = s.pending := by
  unfold State.restartCmd
  first | (simp; done) | rfl | (repeat' (first | (simp; done) | split))
@[simp] theorem State.fsafePin_pend (level : Bool) (s : State) : (State.fsafePin level s).pending = s.pending := by
  unfold State.fsafePin
  first | (simp; done) | rfl | (repeat' (first | (simp; done) | split))
@[simp] theorem State.onTile_pend (τ : Tick) (t : Nat) (f : State → State) (s : State) (h_f : ∀ s, (f s).pending = s.pending) : (State.onTile τ t f s).pending = s.pending := by
  unfold State.onTile
  first | (simp [h_f]; done) | rfl | (repeat' (first | (simp [h_f]; done) | split))
@[simp] theorem State.onPower_pend (τ : Tick) (t : Nat) (f : State → State) (s : State) (h_f : ∀ s, (f s).pending = s.pending) : (State.onPower τ t f s).pending = s.pending := by
  unfold State.onPower
  first | (simp [h_f]; done) | rfl | (repeat' (first | (simp [h_f]; done) | split))
@[simp] theorem State.captureOver_pend (t c : Nat) (s : State) : (State.captureOver t c s).pending = s.pending := by
  unfold State.captureOver
  first | (simp; done) | rfl | (repeat' (first | (simp; done) | split))
@[simp] theorem State.actionCame_pend (p : PortId) (ring cnt : Nat) (s : State) : (State.actionCame p ring cnt s).pending = s.pending := by
  unfold State.actionCame
  first | (simp; done) | rfl | (repeat' (first | (simp; done) | split))
@[simp] theorem State.timerTrigger_pend (t n : Nat) (s : State) : (State.timerTrigger t n s).pending = s.pending := by
  unfold State.timerTrigger
  first | (simp; done) | rfl | (repeat' (first | (simp; done) | split))
@[simp] theorem State.heldTrigger_pend (t n : Nat) (s : State) : (State.heldTrigger t n s).pending = s.pending := by
  unfold State.heldTrigger
  (try simp)
  repeat' (first | done | (simp; done) | split | intro _ | (simp; split))
@[simp] theorem State.speculate_pend (t n : Nat) (s : State) : (State.speculate t n s).pending = s.pending := by
  unfold State.speculate
  (try simp)
  repeat' (first | done | (simp; done) | split | intro _ | (simp; split))
@[simp] theorem State.specOver_pend (t n : Nat) (s : State) : (State.specOver t n s).pending = s.pending := by
  unfold State.specOver
  (try simp)
  repeat' (first | done | (simp; done) | split | intro _ | (simp; split))
@[simp] theorem State.startSlot_pend (t n : Nat) (s : State) : (State.startSlot t n s).pending = s.pending := by
  unfold State.startSlot
  (try simp)
  repeat' (first | done | (simp; done) | split | intro _ | (simp; split))
@[simp] theorem State.reattempt_pend (t v : Nat) (s : State) : (State.reattempt t v s).pending = s.pending := by
  unfold State.reattempt
  first | (simp; done) | rfl | (repeat' (first | (simp; done) | split))
@[simp] theorem State.injMissed_pend (t : Nat) (e : Inj) (s : State) : (State.injMissed t e s).pending = s.pending := by
  unfold State.injMissed
  first | (simp; done) | rfl | (repeat' (first | (simp; done) | split))
@[simp] theorem State.startInj_pend (t v : Nat) (s : State) : (State.startInj t v s).pending = s.pending := by
  unfold State.startInj
  first | (simp; done) | rfl | (repeat' (first | (simp; done) | split))
@[simp] theorem State.injPast_pend (t : Nat) (p : PortId) (ring cnt : Nat) (s : State) : (State.injPast t p ring cnt s).pending = s.pending := by
  unfold State.injPast
  first | (simp; done) | rfl | (repeat' (first | (simp; done) | split))
@[simp] theorem State.calDue_pend (t : Nat) (s : State) : (State.calDue t s).pending = s.pending := by
  unfold State.calDue
  (try simp)
  repeat' (first | done | (simp; done) | split | intro _ | (simp; split))
@[simp] theorem State.refSettled_pend (t : Nat) (dev : Int) (s : State) : (State.refSettled t dev s).pending = s.pending := by
  unfold State.refSettled
  first | (simp; done) | rfl | (repeat' (first | (simp; done) | split))
@[simp] theorem State.lineToHub_pend (l : Nat) (s : State) : (State.lineToHub l s).pending = s.pending := by
  unfold State.lineToHub
  (try simp)
  repeat' (first | done | (simp; done) | split | intro _ | (simp; split))
@[simp] theorem State.lineToTile_pend (t l : Nat) (s : State) : (State.lineToTile t l s).pending = s.pending := by
  unfold State.lineToTile
  (try simp)
  repeat' (first | done | (simp; done) | split | intro _ | (simp; split))
@[simp] theorem State.mergeTakes_pend (src : Nat) (s : State) : (State.mergeTakes src s).pending = s.pending := by
  unfold State.mergeTakes
  first | (simp; done) | rfl | (repeat' (first | (simp; done) | split))
@[simp] theorem State.horizonOver_pend (s : State) : (State.horizonOver s).pending = s.pending := by
  unfold State.horizonOver
  first | (simp; done) | rfl | (repeat' (first | (simp; done) | split))
@[simp] theorem State.pipeTakes_pend (p : Nat) (s : State) : (State.pipeTakes p s).pending = s.pending := by
  unfold State.pipeTakes
  first | (simp; done) | rfl | (repeat' (first | (simp; done) | split))
@[simp] theorem State.blockOver_pend (p c : Nat) (s : State) : (State.blockOver p c s).pending = s.pending := by
  unfold State.blockOver
  first | (simp; done) | rfl | (repeat' (first | (simp; done) | split))
@[simp] theorem State.deliveryPast_pend (p c : Nat) (s : State) : (State.deliveryPast p c s).pending = s.pending := by
  unfold State.deliveryPast
  first | (simp; done) | rfl | (repeat' (first | (simp; done) | split))
theorem runDue_pend (ds : List DueAt) (h : ∀ d ∈ ds, ∀ s, (d.2 s).pending = s.pending) (s : State) :
    (runDue ds s).pending = s.pending :=
  runDue_keeps (fun u => u.pending = s.pending) ds (fun d hd u hu => (h d hd u).trans hu) s rfl
@[simp] theorem State.ifOnline_pend (t : Nat) (f : State → State) (s : State) (h_f : ∀ s, (f s).pending = s.pending) : (State.ifOnline t f s).pending = s.pending := by
  unfold State.ifOnline
  first | (simp [h_f]; done) | rfl | (repeat' (first | (simp [h_f]; done) | split))
@[simp] theorem State.timerRest_pend (t n : Nat) (hi : Tick) (s : State) : (State.timerRest t n hi s).pending = s.pending := by
  unfold State.timerRest
  first | (simp; done) | rfl | (repeat' (first | (simp; done) | split))
@[simp] theorem State.stepTo_pend (x : Tick) (s : State) : (State.stepTo x s).pending = s.pending := by
  have h (b u v : State) : (runDue (State.skipped b u) v).pending = v.pending :=
    runDue_pend _ (skipped_all (fun f => ∀ s, (f s).pending = s.pending)
      (fun t f hf s => by unfold State.ifOnline; split <;> simp [hf]) (fun t f hf s => by dsimp only; split <;> simp [hf])
      (by simp) (by simp) (by simp) (by simp) (by simp) (by simp) (by simp) (by simp) (by simp) (by simp) b u) v
  unfold State.stepTo
  refine (forAll_pend _ (fun t s => forAll_pend _ (fun n s => ?_) _ _) _ _).trans
    ((h _ _ _).trans (forAll_pend _ (fun t z => by simp) _ _))
  unfold State.ifOnline
  split <;> simp
@[simp] theorem State.syncEdge_pend (s : State) : (State.syncEdge s).pending = s.pending := by
  unfold State.syncEdge
  first | (simp; done) | rfl | (repeat' (first | (simp; done) | split))
@[simp] theorem State.syncLead_pend (s : State) : (State.syncLead s).pending = s.pending := by
  unfold State.syncLead
  first | (simp; done) | rfl | (repeat' (first | (simp; done) | split))
@[simp] theorem State.syncLost_pend (s : State) : (State.syncLost s).pending = s.pending := by
  unfold State.syncLost
  first | (simp; done) | rfl | (repeat' (first | (simp; done) | split))
@[simp] theorem State.runAgain_pend (c : Instr) (s : State) : (State.runAgain c s).pending = s.pending := by
  unfold State.runAgain
  split <;> first | rfl | simp [ranOr, execChMode, execOutSet, execMirForceOff, execMirForceOn, execMirRelease, execOutCancel,
    execChTrimSet, execChTrimZero, execChTrimSpan, execChTrimReset, execRfxWrite, execRfxEnable, execRfxStatus, execSeqArm,
    execSeqDisarm, execSeqTrigger, execInject, execCalibrate, execCalibrateExcl, execTileOffline, execTileReadmit, execRotate]
@[simp] theorem State.runWaiting_pend (s : State) : (State.runWaiting s).pending = s.pending := by
  unfold State.runWaiting
  first | (simp; done) | rfl | (repeat' (first | (simp; done) | split))
@[simp] theorem State.onEngine_pend (τ : Tick) (f : State → State) (s : State) (h_f : ∀ s, (f s).pending = s.pending) : (State.onEngine τ f s).pending = s.pending := by
  unfold State.onEngine
  first | (simp [h_f]; done) | rfl | (repeat' (first | (simp [h_f]; done) | split))
@[simp] theorem State.handOver_pend (s : State) : (State.handOver s).pending = s.pending := by
  unfold State.handOver
  first | (simp; done) | rfl | (repeat' (first | (simp; done) | split))
@[simp] theorem State.storePut_pend (a : Nat) (bs : List Byte) (s : State) : (State.storePut a bs s).pending = s.pending := id rfl
@[simp] theorem State.checkDelta_pend (s : State) : (State.checkDelta s).1.pending = s.pending := by
  rcases State.checkDelta_cases s with e | ⟨a, bs, b, f, e⟩ <;> rw [e]
  rw [State.storePut_pend, State.modRec_pend]
@[simp] theorem State.imageWrite_pend (h : Hdr) (kiln : Bool) (offset len : Nat) (bytes : List Byte) (fails : Bool) (s : State) :
    (State.imageWrite h kiln offset len bytes fails s).1.pending = s.pending := by
  have ho : (s.openSession h.port).pending = s.pending := by simp
  unfold State.imageWrite
  dsimp only
  split
  · rfl
  · split
    · rw [State.storeFail_pend]
      split
      · exact ho
      · rw [State.modRec_pend]; exact ho
    · rw [State.storePut_pend]
      split
      · exact ho
      · rw [State.modRec_pend]; exact ho
@[simp] theorem State.imageVerify_pend (h : Hdr) (kiln fails : Bool) (s : State) :
    (State.imageVerify h kiln fails s).1.pending = s.pending := by
  have ho : (s.openSession h.port).pending = s.pending := by simp
  unfold State.imageVerify
  dsimp only
  split
  · rfl
  · split
    · simp
    · cases kiln with
      | true =>
        have hd := (State.checkDelta_pend (s.openSession h.port)).trans ho
        simp only [if_true]
        generalize hu : (State.checkDelta (s.openSession h.port)) = u at hd
        obtain ⟨u, c⟩ := u
        dsimp only at hd
        split
        · simpa using hd
        · simpa using hd
      | false =>
        simp only [Bool.false_eq_true, if_false]
        generalize s.openSession h.port = u at ho
        split
        · simpa using ho
        · simpa using ho

end Sys2Proof.Machine
end

