-- ==== Sys2Proof/Laws/Settings.lean ====
section
/-!
SUPPORT. Every operation but the register writes, the commands that write settings and a restart leaves what software set as it is: one lemma for each operation.
-/
namespace Sys2Proof.Machine

@[simp] theorem State.settings_fold (s : State) : (s.tiles.map Tile.settings, s.pipes.map Pipe.settings, s.blks.map FBlk.settings, s.tb.mode, s.tb.stepEn, s.tb.period, s.scaleEn, s.archKind, s.merge.horizon) = s.settings := id rfl
@[simp] theorem map_updAt {α β : Type} (g : α → β) (f : α → α) (h : ∀ x, g (f x) = g x) (i : Nat) (xs : List α) : (updAt f i xs).map g = xs.map g := by
  induction xs generalizing i with
  | nil => simp [updAt]
  | cons x xs ih => cases i <;> simp [updAt, h, ih]
@[simp] theorem map_mapFrom {α β : Type} (g : α → β) (f : Nat → α → α) (h : ∀ i x, g (f i x) = g x) (i : Nat) (xs : List α) : (mapFrom f i xs).map g = xs.map g := by
  induction xs generalizing i with
  | nil => rfl
  | cons x xs ih => simp [mapFrom, h, ih]
@[simp] theorem map_self {α β : Type} (g : α → β) (f : α → α) (h : ∀ x, g (f x) = g x) (xs : List α) : (xs.map f).map g = xs.map g := by
  induction xs with
  | nil => rfl
  | cons x xs ih => simp [h]
@[simp] theorem map_comp_self {α β : Type} (g : α → β) (f : α → α) (h : ∀ x, g (f x) = g x) (xs : List α) : xs.map (g ∘ f) = xs.map g := by
  induction xs with
  | nil => rfl
  | cons x xs ih => simp [h]
@[simp] theorem ConvUnit.setting_ite (c : Prop) [Decidable c] (a b : ConvUnit) : (if c then a else b).setting = if c then a.setting else b.setting := by split <;> rfl
@[simp] theorem Ctx.setting_ite1 {α} (c : Prop) [Decidable c] (a b : Ctx × α) : (if c then a else b).1.setting = if c then a.1.setting else b.1.setting := by split <;> rfl
@[simp] theorem State.settings_ite (c : Prop) [Decidable c] (a b : State) : (if c then a else b).settings = if c then a.settings else b.settings := by split <;> rfl
@[simp] theorem State.settings_ite1 {α} (c : Prop) [Decidable c] (a b : State × α) : (if c then a else b).1.settings = if c then a.1.settings else b.1.settings := by split <;> rfl
@[simp] theorem Tile.settings_ite (c : Prop) [Decidable c] (a b : Tile) : (if c then a else b).settings = if c then a.settings else b.settings := by split <;> rfl
@[simp] theorem Chan.setting_ite (c : Prop) [Decidable c] (a b : Chan) : (if c then a else b).setting = if c then a.setting else b.setting := by split <;> rfl
@[simp] theorem Rule.setting_ite (c : Prop) [Decidable c] (a b : Rule) : (if c then a else b).setting = if c then a.setting else b.setting := by split <;> rfl
@[simp] theorem Seq.setting_ite (c : Prop) [Decidable c] (a b : Seq) : (if c then a else b).setting = if c then a.setting else b.setting := by split <;> rfl
@[simp] theorem Src.setting_ite (c : Prop) [Decidable c] (a b : Src) : (if c then a else b).setting = if c then a.setting else b.setting := by split <;> rfl
@[simp] theorem FBlk.settings_ite (c : Prop) [Decidable c] (a b : FBlk) : (if c then a else b).settings = if c then a.settings else b.settings := by split <;> rfl
@[simp] theorem Ctx.setting_ite (c : Prop) [Decidable c] (a b : Ctx) : (if c then a else b).setting = if c then a.setting else b.setting := by split <;> rfl
@[simp] theorem forAll_set {α : Type} (f : α → State → State) (h : ∀ x s, (f x s).settings = s.settings) (xs : List α) (s : State) : (forAll f xs s).settings = s.settings := by induction xs generalizing s with | nil => rfl | cons x xs ih => simp [forAll, ih, h]
@[simp] theorem State.settings_mk (a0 a1 a2 a3 a4 a5 a6 a7 a8 a9 a10 a11 a12 a13 a14 a15 a16 a17 a18 a19 a20 a21 a22 a23 a24 a25 a26 a27 a28 a29 a30 a31 a32 a33) : (State.mk a0 a1 a2 a3 a4 a5 a6 a7 a8 a9 a10 a11 a12 a13 a14 a15 a16 a17 a18 a19 a20 a21 a22 a23 a24 a25 a26 a27 a28 a29 a30 a31 a32 a33).settings = (a17.map Tile.settings, a25.map Pipe.settings, a27.map FBlk.settings, a3.mode, a3.stepEn, a3.period, a22, a16, a14.horizon) := id rfl
@[simp] theorem Chan.setting_mk (a0 a1 a2 a3 a4 a5 a6 a7 a8 a9 a10 a11 a12 a13 a14 a15 a16 a17 a18 a19 a20 a21 a22) : (Chan.mk a0 a1 a2 a3 a4 a5 a6 a7 a8 a9 a10 a11 a12 a13 a14 a15 a16 a17 a18 a19 a20 a21 a22).setting = (a0, a1, a3, a4) := id rfl
@[simp] theorem Chan.setting_fold (x : Chan) : (x.mode, x.par, x.cfg, x.diag) = x.setting := id rfl
@[simp] theorem Rule.setting_mk (a0 a1 a2 a3 a4 a5 a6 a7 a8) : (Rule.mk a0 a1 a2 a3 a4 a5 a6 a7 a8).setting = (a0, a1, a2, a3) := id rfl
@[simp] theorem Rule.setting_fold (x : Rule) : (x.cond, x.qual, x.thr, x.act) = x.setting := id rfl
@[simp] theorem Seq.setting_mk (a0 a1 a2 a3 a4 a5 a6 a7 a8 a9 a10 a11 a12 a13 a14 a15 a16 a17 a18 a19 a20 a21 a22 a23) : (Seq.mk a0 a1 a2 a3 a4 a5 a6 a7 a8 a9 a10 a11 a12 a13 a14 a15 a16 a17 a18 a19 a20 a21 a22 a23).setting = (a3, a4, a5, a6, a7, a23) := id rfl
@[simp] theorem Seq.setting_fold (x : Seq) : (x.cfg, x.period, x.phase, x.deadline, x.specTol, x.slots) = x.setting := id rfl
@[simp] theorem ConvUnit.setting_mk (a0 a1 a2 a3 a4 a5 a6 a7 a8 a9 a10 a11 a12 a13 a14 a15 a16 a17 a18 a19 a20) : (ConvUnit.mk a0 a1 a2 a3 a4 a5 a6 a7 a8 a9 a10 a11 a12 a13 a14 a15 a16 a17 a18 a19 a20).setting = (a1, a2, a3, a4, a12, a13) := id rfl
@[simp] theorem ConvUnit.setting_fold (x : ConvUnit) : (x.align, x.calAuto, x.calDt, x.calPeriod, x.injGap, x.injW) = x.setting := id rfl
@[simp] theorem Tile.settings_mk (a0 a1 a2 a3 a4 a5 a6 a7 a8 a9 a10 a11 a12 a13 a14 a15 a16 a17 a18 a19 a20 a21 a22 a23 a24 a25 a26 a27 a28 a29 a30 a31) : (Tile.mk a0 a1 a2 a3 a4 a5 a6 a7 a8 a9 a10 a11 a12 a13 a14 a15 a16 a17 a18 a19 a20 a21 a22 a23 a24 a25 a26 a27 a28 a29 a30 a31).settings = ((a1).map Chan.setting, (a21).map Rule.setting, (a20).map Seq.setting, (a19).setting, a4, a5, a6, a7, a18, a17, (a24).timeout) := id rfl
@[simp] theorem Tile.settings_fold (x : Tile) : ((x.chans).map Chan.setting, (x.rules).map Rule.setting, (x.seqs).map Seq.setting, (x.cv).setting, x.chatN, x.chatW, x.tpWidth, x.tpPeriod, x.mirs, x.cjcFixed, (x.saf).timeout) = x.settings := id rfl
@[simp] theorem Ctx.setting_mk (a0 a1 a2 a3 a4 a5 a6 a7 a8 a9 a10 a11 a12 a13 a14 a15 a16 a17 a18) : (Ctx.mk a0 a1 a2 a3 a4 a5 a6 a7 a8 a9 a10 a11 a12 a13 a14 a15 a16 a17 a18).setting = (a0, a1, a2, a3, a4) := id rfl
@[simp] theorem Ctx.setting_fold (x : Ctx) : (x.src, x.struct, x.res, x.det, x.deliv) = x.setting := id rfl
@[simp] theorem Pipe.settings_mk (a0 a1 a2 a3) : (Pipe.mk a0 a1 a2 a3).settings = (a3).map Ctx.setting := id rfl
@[simp] theorem Pipe.settings_fold (x : Pipe) : (x.ctxs).map Ctx.setting = x.settings := id rfl
@[simp] theorem Src.setting_mk (a0 a1 a2 a3 a4 a5 a6 a7 a8 a9 a10 a11 a12 a13) : (Src.mk a0 a1 a2 a3 a4 a5 a6 a7 a8 a9 a10 a11 a12 a13).setting = (a6, a7) := id rfl
@[simp] theorem Src.setting_fold (x : Src) : (x.cls, x.react) = x.setting := id rfl
@[simp] theorem FBlk.settings_mk (a0 a1 a2 a3 a4 a5 a6 a7 a8 a9 a10 a11 a12) : (FBlk.mk a0 a1 a2 a3 a4 a5 a6 a7 a8 a9 a10 a11 a12).settings = ((a0).map Src.setting, a4, a5, a6, a7, a8) := id rfl
@[simp] theorem FBlk.settings_fold (x : FBlk) : ((x.srcs).map Src.setting, x.vecHa, x.vecHb, x.esc2, x.esc3, x.esc4) = x.settings := id rfl
@[simp] theorem State.modTile_set (t : Nat) (f : Tile → Tile) (s : State) (h_f : ∀ x, (f x).settings = x.settings) : (State.modTile t f s).settings = s.settings := by
  unfold State.modTile
  first | (simp [h_f]; done) | rfl | (repeat' (first | (simp [h_f]; done) | split))
@[simp] theorem Tile.modChan_set (c : Nat) (f : Chan → Chan) (T : Tile) (h_f : ∀ x, (f x).setting = x.setting) : (Tile.modChan c f T).settings = T.settings := by
  unfold Tile.modChan
  first | rfl | (simp [h_f]; done) | (repeat' (first | (simp [h_f]; done) | split))
@[simp] theorem State.modChan_set (t c : Nat) (f : Chan → Chan) (s : State) (h_f : ∀ x, (f x).setting = x.setting) : (State.modChan t c f s).settings = s.settings := by
  unfold State.modChan
  first | (simp [h_f]; done) | rfl | (repeat' (first | (simp [h_f]; done) | split))
@[simp] theorem State.modPort_set (p : PortId) (f : Port → Port) (s : State) : (State.modPort p f s).settings = s.settings := by
  unfold State.modPort
  first | (simp; done) | rfl | (repeat' (first | (simp; done) | split))
@[simp] theorem State.modSeq_set (t n : Nat) (f : Seq → Seq) (s : State) (h_f : ∀ x, (f x).setting = x.setting) : (State.modSeq t n f s).settings = s.settings := by
  unfold State.modSeq
  first | (simp [h_f]; done) | rfl | (repeat' (first | (simp [h_f]; done) | split))
@[simp] theorem State.modCv_set (t : Nat) (f : ConvUnit → ConvUnit) (s : State) (h_f : ∀ x, (f x).setting = x.setting) : (State.modCv t f s).settings = s.settings := by
  unfold State.modCv
  first | (simp [h_f]; done) | rfl | (repeat' (first | (simp [h_f]; done) | split))
@[simp] theorem State.modLink_set (t : Nat) (f : Link → Link) (s : State) : (State.modLink t f s).settings = s.settings := by
  unfold State.modLink
  first | (simp; done) | rfl | (repeat' (first | (simp; done) | split))
@[simp] theorem State.modSaf_set (t : Nat) (f : Safety → Safety) (s : State) (h_f : ∀ x, (f x).timeout = x.timeout) : (State.modSaf t f s).settings = s.settings := by
  unfold State.modSaf
  first | (simp [h_f]; done) | rfl | (repeat' (first | (simp [h_f]; done) | split))
@[simp] theorem State.modOut_set (t c : Nat) (f : OutState → OutState) (s : State) : (State.modOut t c f s).settings = s.settings := by
  unfold State.modOut
  first | (simp; done) | rfl | (repeat' (first | (simp; done) | split))
@[simp] theorem State.modMeas_set (t c : Nat) (f : MeasState → MeasState) (s : State) : (State.modMeas t c f s).settings = s.settings := by
  unfold State.modMeas
  first | (simp; done) | rfl | (repeat' (first | (simp; done) | split))
@[simp] theorem State.modCtx_set (p c : Nat) (f : Ctx → Ctx) (s : State) (h_f : ∀ x, (f x).setting = x.setting) : (State.modCtx p c f s).settings = s.settings := by
  unfold State.modCtx
  first | (simp [h_f]; done) | rfl | (repeat' (first | (simp [h_f]; done) | split))
@[simp] theorem State.modSp_set (n : Nat) (f : SPort → SPort) (s : State) : (State.modSp n f s).settings = s.settings := by
  unfold State.modSp
  first | (simp; done) | rfl | (repeat' (first | (simp; done) | split))
@[simp] theorem State.modEngine_set (n : Nat) (f : Engine → Engine) (s : State) : (State.modEngine n f s).settings = s.settings := by
  unfold State.modEngine
  first | (simp; done) | rfl | (repeat' (first | (simp; done) | split))
@[simp] theorem State.modBlk_set (k : Nat) (f : FBlk → FBlk) (s : State) (h_f : ∀ x, (f x).settings = x.settings) : (State.modBlk k f s).settings = s.settings := by
  unfold State.modBlk
  first | (simp [h_f]; done) | rfl | (repeat' (first | (simp [h_f]; done) | split))
@[simp] theorem State.modSrc_set (k i : Nat) (f : Src → Src) (s : State) (h_f : ∀ x, (f x).setting = x.setting) : (State.modSrc k i f s).settings = s.settings := by
  unfold State.modSrc
  first | (simp [h_f]; done) | rfl | (repeat' (first | (simp [h_f]; done) | split))
@[simp] theorem State.lateness_set (k i idx x : Nat) (s : State) : (State.lateness k i idx x s).settings = s.settings := by
  unfold State.lateness
  first | (simp; done) | rfl | (repeat' (first | (simp; done) | split))
@[simp] theorem State.advance_set (τ : Tick) (s : State) : (State.advance τ s).settings = s.settings := by
  unfold State.advance
  first | (simp; done) | rfl | (repeat' (first | (simp; done) | split))
@[simp] theorem State.tickOn_set (s : State) : (State.tickOn s).settings = s.settings := by
  unfold State.tickOn
  first | (simp; done) | rfl | (repeat' (first | (simp; done) | split))
@[simp] theorem State.emitHubAt_set (ts kind pl : Nat) (wide : List Int) (toPorts : Bool) (s : State) : (State.emitHubAt ts kind pl wide toPorts s).settings = s.settings := by
  unfold State.emitHubAt
  first | (simp; done) | rfl | (repeat' (first | (simp; done) | split))
@[simp] theorem State.emitHub_set (kind pl : Nat) (s : State) : (State.emitHub kind pl s).settings = s.settings := by
  unfold State.emitHub
  first | (simp; done) | rfl | (repeat' (first | (simp; done) | split))
@[simp] theorem Src.occur_set (x : Src) (cls : Nat) (up : Bool) (taken : Nat) (τ : Tick) (ch idx code aux : Nat) : (Src.occur x cls up taken τ ch idx code aux).setting = x.setting := by
  unfold Src.occur
  first | rfl | (simp []; done) | (repeat' (first | (simp []; done) | split))
@[simp] theorem Tile.capture_set (T : Tile) (now : Tick) : (Tile.capture T now).settings = T.settings := by
  unfold Tile.capture
  first | rfl | (simp []; done) | (repeat' (first | (simp []; done) | split))
@[simp] theorem State.enterScope_set (t : Nat) (f : Safety → Safety) (s : State) (h_f : ∀ x, (f x).timeout = x.timeout) : (State.enterScope t f s).settings = s.settings := by
  unfold State.enterScope
  first | (simp [h_f]; done) | rfl | (repeat' (first | (simp [h_f]; done) | split))
@[simp] theorem Tile.leaveSafe_set (before T : Tile) : (Tile.leaveSafe before T).settings = T.settings := by
  unfold Tile.leaveSafe
  first | rfl | (simp []; done) | (repeat' (first | (simp []; done) | split))
@[simp] theorem State.leaveScope_set (t : Nat) (f : Safety → Safety) (s : State) (h_f : ∀ x, (f x).timeout = x.timeout) : (State.leaveScope t f s).settings = s.settings := by
  unfold State.leaveScope
  first | (simp [h_f]; done) | rfl | (repeat' (first | (simp [h_f]; done) | split))
@[simp] theorem State.netEvent_set (action : Nat) (s : State) : (State.netEvent action s).settings = s.settings := by
  unfold State.netEvent
  first | (simp; done) | rfl | (repeat' (first | (simp; done) | split))
@[simp] theorem State.assertNet_set (k i : Nat) (s : State) : (State.assertNet k i s).settings = s.settings := by
  unfold State.assertNet
  first | (simp; done) | rfl | (repeat' (first | (simp; done) | split))
@[simp] theorem State.msix_set (p : PortId) (v : Nat) (s : State) : (State.msix p v s).settings = s.settings := by
  unfold State.msix
  first | (simp; done) | rfl | (repeat' (first | (simp; done) | split))
@[simp] theorem State.faultMsi_set (k : Nat) (p : PortId) (s : State) : (State.faultMsi k p s).settings = s.settings := by
  unfold State.faultMsi
  first | (simp; done) | rfl | (repeat' (first | (simp; done) | split))
@[simp] theorem State.graveRecord_set (s : State) : (State.graveRecord s).settings = s.settings := by
  unfold State.graveRecord
  first | (simp; done) | rfl | (repeat' (first | (simp; done) | split))
@[simp] theorem State.record_set (k i ch idx code aux : Nat) (τ : Tick) (s : State) : (State.record k i ch idx code aux τ s).1.settings = s.settings := by
  unfold State.record
  first | (simp; done) | rfl | (repeat' (first | (simp; done) | split))
@[simp] theorem State.linkPush_set (t : Nat) (x : LinkItem) (s : State) : (State.linkPush t x s).settings = s.settings := by
  unfold State.linkPush
  first | (simp; done) | rfl | (repeat' (first | (simp; done) | split))
@[simp] theorem State.emitAt_set (t c ts kind pl : Nat) (toPorts : Bool) (s : State) : (State.emitAt t c ts kind pl toPorts s).settings = s.settings := by
  unfold State.emitAt
  first | (simp; done) | rfl | (repeat' (first | (simp; done) | split))
@[simp] theorem State.emit_set (t c kind pl : Nat) (s : State) : (State.emit t c kind pl s).settings = s.settings := by
  unfold State.emit
  first | (simp; done) | rfl | (repeat' (first | (simp; done) | split))
@[simp] theorem State.raiseCh_set (k i ch idx code aux : Nat) (s : State) : (State.raiseCh k i ch idx code aux s).settings = s.settings := by
  unfold State.raiseCh
  first | (simp; done) | rfl | (repeat' (first | (simp; done) | split))
@[simp] theorem State.raise_set (k i idx code aux : Nat) (s : State) : (State.raise k i idx code aux s).settings = s.settings := by
  unfold State.raise
  first | (simp; done) | rfl | (repeat' (first | (simp; done) | split))
@[simp] theorem State.endPresent_set (k i : Nat) (s : State) : (State.endPresent k i s).settings = s.settings := by
  unfold State.endPresent
  first | (simp; done) | rfl | (repeat' (first | (simp; done) | split))
@[simp] theorem State.notice_set (t ch idx kind : Nat) (s : State) : (State.notice t ch idx kind s).settings = s.settings := by
  unfold State.notice
  first | (simp; done) | rfl | (repeat' (first | (simp; done) | split))
@[simp] theorem State.scopeEvent_set (t action scope : Nat) (c : Cause) (s : State) : (State.scopeEvent t action scope c s).settings = s.settings := by
  unfold State.scopeEvent
  first | (simp; done) | rfl | (repeat' (first | (simp; done) | split))
@[simp] theorem State.endNet_set (s : State) : (State.endNet s).settings = s.settings := by
  unfold State.endNet
  first | (simp; done) | rfl | (repeat' (first | (simp; done) | split))
@[simp] theorem State.pump_set (s : State) : (State.pump s).settings = s.settings := by
  unfold State.pump
  first | (simp; done) | rfl | (repeat' (first | (simp; done) | split))
@[simp] theorem State.reply_set (h : Hdr) (op : Nat) (r : Reply) (s : State) : (State.reply h op r s).settings = s.settings := by
  unfold State.reply
  first | (simp; done) | rfl | (repeat' (first | (simp; done) | split))
@[simp] theorem State.begun_set (h : Hdr) (s : State) : (State.begun h s).settings = s.settings := by
  unfold State.begun
  first | (simp; done) | rfl | (repeat' (first | (simp; done) | split))
@[simp] theorem State.margin_set (k j m : Nat) (s : State) : (State.margin k j m s).settings = s.settings := by
  unfold State.margin
  first | (simp; done) | rfl | (repeat' (first | (simp; done) | split))
@[simp] theorem State.modPwr_set (k : Nat) (f : Pwr → Pwr) (s : State) : (State.modPwr k f s).settings = s.settings := by
  unfold State.modPwr
  first | (simp; done) | rfl | (repeat' (first | (simp; done) | split))
@[simp] theorem State.rouse_set (k : Nat) (s : State) : (State.rouse k s).settings = s.settings := by
  unfold State.rouse
  first | (simp; done) | rfl | (repeat' (first | (simp; done) | split))
@[simp] theorem State.raiseCmd_set (h : Hdr) (e : Option Nat) (s : State) : (State.raiseCmd h e s).settings = s.settings := by
  unfold State.raiseCmd
  first | (simp; done) | rfl | (repeat' (first | (simp; done) | split))
@[simp] theorem State.archPut_set (n : Nat) (x : ArchEntry) (s : State) : (State.archPut n x s).settings = s.settings := by
  unfold State.archPut
  first | (simp; done) | rfl | (repeat' (first | (simp; done) | split))
@[simp] theorem State.archive_set (e : Event) (s : State) : (State.archive e s).settings = s.settings := by
  unfold State.archive
  first | (simp; done) | rfl | (repeat' (first | (simp; done) | split))
@[simp] theorem State.release_set (late : Bool) (e : Event) (s : State) : (State.release late e s).settings = s.settings := by
  unfold State.release
  first | (simp; done) | rfl | (repeat' (first | (simp; done) | split))
@[simp] theorem releaseDue_set (es : List Event) (s : State) : (releaseDue es s).settings = s.settings := by
  induction es generalizing s with
  | nil => simp [releaseDue]
  | cons e es ih => simp [releaseDue, ih]
@[simp] theorem State.releaseHeld_set (s : State) : (State.releaseHeld s).settings = s.settings := by
  unfold State.releaseHeld
  (try simp)
  repeat' (first | done | (simp; done) | split | intro _ | (simp; split))
@[simp] theorem State.releaseEarly_set (s : State) : (State.releaseEarly s).settings = s.settings := by
  unfold State.releaseEarly
  first | (simp; done) | rfl | (repeat' (first | (simp; done) | split))
@[simp] theorem State.arrive_set (e : Event) (s : State) : (State.arrive e s).settings = s.settings := by
  unfold State.arrive
  first | (simp; done) | rfl | (repeat' (first | (simp; done) | split))
@[simp] theorem Chan.mark_set (b : Nat) (on : Bool) (ch : Chan) : (Chan.mark b on ch).setting = ch.setting := by
  unfold Chan.mark
  first | rfl | (simp []; done) | (repeat' (first | (simp []; done) | split))
@[simp] theorem State.setDiagX_set (t c b : Nat) (on : Bool) (partner burn : Nat) (s : State) : (State.setDiagX t c b on partner burn s).settings = s.settings := by
  unfold State.setDiagX
  first | (simp; done) | rfl | (repeat' (first | (simp; done) | split))
@[simp] theorem State.setDiag_set (t c b : Nat) (on : Bool) (s : State) : (State.setDiag t c b on s).settings = s.settings := by
  unfold State.setDiag
  first | (simp; done) | rfl | (repeat' (first | (simp; done) | split))
@[simp] theorem State.discard_set (t c v fate : Nat) (s : State) : (State.discard t c v fate s).settings = s.settings := by
  unfold State.discard
  first | (simp; done) | rfl | (repeat' (first | (simp; done) | split))
@[simp] theorem State.accessioned_set (t c v val : Nat) (ts : Tick) (attempt gain : Nat) (s : State) : (State.accessioned t c v val ts attempt gain s).settings = s.settings := by
  unfold State.accessioned
  first | (simp; done) | rfl | (repeat' (first | (simp; done) | split))
@[simp] theorem State.accessionOut_set (t c kind v origin port rule tag : Nat) (s : State) : (State.accessionOut t c kind v origin port rule tag s).settings = s.settings := by
  unfold State.accessionOut
  first | (simp; done) | rfl | (repeat' (first | (simp; done) | split))
@[simp] theorem State.dropAfter_set (t c v : Nat) (off : Nat → Nat → Nat → State → State) (s : State)
    (h_off : ∀ a b k s, (off a b k s).settings = s.settings) : (State.dropAfter t c v off s).settings = s.settings := by
  unfold State.dropAfter
  first | (simp [h_off]; done) | (repeat' (first | (simp [h_off]; done) | split))
@[simp] theorem State.offAction_set (t c origin : Nat) (s : State) : (State.offAction t c origin s).settings = s.settings := by
  unfold State.offAction
  first | (simp; done) | rfl | (repeat' (first | (simp; done) | split))
@[simp] theorem State.accDue_set (t c : Nat) (d : Due) (s : State) : (State.accDue t c d s).settings = s.settings := by
  unfold State.accDue
  first | (simp; done) | rfl | (repeat' (first | (simp; done) | split))
@[simp] theorem State.commandsFirst_set (t c : Nat) (s : State) : (State.commandsFirst t c s).settings = s.settings := by
  unfold State.commandsFirst
  first | (simp; done) | rfl | (repeat' (first | (simp; done) | split))
@[simp] theorem Tile.feedMirrors_set (c : Nat) (x : Int) (T : Tile) : (Tile.feedMirrors c x T).settings = T.settings := by
  unfold Tile.feedMirrors
  first | rfl | (simp []; done) | (repeat' (first | (simp []; done) | split))
@[simp] theorem State.driveLine_set (t r l : Nat) (v : Bool) (ts : Tick) (s : State) : (State.driveLine t r l v ts s).settings = s.settings := by
  unfold State.driveLine
  first | (simp; done) | rfl | (repeat' (first | (simp; done) | split))
@[simp] theorem State.freeLine_set (t r l : Nat) (ts : Tick) (s : State) : (State.freeLine t r l ts s).settings = s.settings := by
  unfold State.freeLine
  first | (simp; done) | rfl | (repeat' (first | (simp; done) | split))
@[simp] theorem State.fireRule_set (t i : Nat) (ts : Tick) (s : State) : (State.fireRule t i ts s).settings = s.settings := by
  unfold State.fireRule
  (try simp)
  repeat' (first | done | (simp; done) | split | intro _ | (simp; split))
@[simp] theorem State.judgeRule_set (t : Nat) (e : Option Edge) (ts : Tick) (i : Nat) (s : State) : (State.judgeRule t e ts i s).settings = s.settings := by
  unfold State.judgeRule
  first | (simp; done) | rfl | (repeat' (first | (simp; done) | split))
@[simp] theorem State.reflex_set (t : Nat) (e : Option Edge) (ts : Tick) (s : State) : (State.reflex t e ts s).settings = s.settings := by
  unfold State.reflex
  first | (simp; done) | rfl | (repeat' (first | (simp; done) | split))
@[simp] theorem State.deriveChan_set (t c : Nat) (s : State) : (State.deriveChan t c s).settings = s.settings := by
  unfold State.deriveChan
  first | (simp; done) | rfl | (repeat' (first | (simp; done) | split))
@[simp] theorem State.refreshAt_set (t : Nat) (e : Option Edge) (ts : Tick) (s : State) : (State.refreshAt t e ts s).settings = s.settings := by
  unfold State.refreshAt
  first | (simp; done) | rfl | (repeat' (first | (simp; done) | split))
@[simp] theorem State.refresh_set (t : Nat) (s : State) : (State.refresh t s).settings = s.settings := by
  unfold State.refresh
  first | (simp; done) | rfl | (repeat' (first | (simp; done) | split))
@[simp] theorem State.trimChange_set (t c : Nat) (ofs : Int) (gain : Nat) (s : State) : (State.trimChange t c ofs gain s).settings = s.settings := by
  unfold State.trimChange
  first | (simp; done) | rfl | (repeat' (first | (simp; done) | split))
@[simp] theorem Tile.setWorst_set (T : Tile) : (Tile.setWorst T).settings = T.settings := by
  unfold Tile.setWorst
  first | rfl | (simp []; done) | (repeat' (first | (simp []; done) | split))
@[simp] theorem Ctx.detect_set (v : Int) (marks : Nat) (inst : Int) (c : Ctx) : (Ctx.detect v marks inst c).1.setting = c.setting := by
  unfold Ctx.detect
  first | rfl | (simp []; done) | (repeat' (first | (simp []; done) | split))
@[simp] theorem Ctx.fadeOn_set (c : Ctx) : (Ctx.fadeOn c).1.setting = c.setting := by
  unfold Ctx.fadeOn
  first | rfl | (simp []; done) | (repeat' (first | (simp []; done) | split))
@[simp] theorem Ctx.emitOut_set (y : Int × Bool) (sm : Nat) (ts : Tick) (inst : Int) (c : Ctx) : (Ctx.emitOut y sm ts inst c).1.setting = c.setting := by
  have h : (if bit c.det 27 then c.detect y.1 (sm ||| (if c.r.fade.isSome then 2 else 0) ||| (if y.2 then 1 else 0)) inst else (c, [])).1.setting = c.setting := by
    split <;> simp
  unfold Ctx.emitOut
  dsimp only
  rw [Ctx.fadeOn_set]
  exact h
@[simp] theorem Ctx.resample_set (P : Pipe) (pr sm : Nat) (ts : Tick) (k : Nat) (c : Ctx) : (Ctx.resample P pr sm ts k c).1.setting = c.setting := by
  induction k generalizing c with
  | zero => rfl
  | succ k ih =>
    unfold Ctx.resample
    simp [ih]
@[simp] theorem Ctx.front_set (P : Pipe) (per : Nat) (v : Int) (tau : Int) (ts : Tick) (c : Ctx) : (Ctx.front P per v tau ts c).1.setting = c.setting := by
  unfold Ctx.front
  first | rfl | (simp []; done) | (repeat' (first | (simp []; done) | split))
@[simp] theorem Ctx.rear_set (P : Pipe) (per : Nat) (tau : Int) (ts : Tick) (y : Int × Bool) (c : Ctx) : (Ctx.rear P per tau ts y c).1.setting = c.setting := by
  unfold Ctx.rear
  first | rfl | (simp []; done) | (repeat' (first | (simp []; done) | split))
@[simp] theorem Ctx.take_set (P : Pipe) (per : Nat) (v : Int) (mark : Nat) (tau : Int) (ts : Tick) (dic : Bool) (c : Ctx) : (Ctx.take P per v mark tau ts dic c).1.setting = c.setting := by
  unfold Ctx.take
  dsimp only
  split
  · simp
  · split <;> simp
@[simp] theorem State.endCtx_set (p c : Nat) (s : State) : (State.endCtx p c s).settings = s.settings := by
  unfold State.endCtx
  first | (simp; done) | rfl | (repeat' (first | (simp; done) | split))
@[simp] theorem State.pumpCtx_set (p c : Nat) (s : State) : (State.pumpCtx p c s).settings = s.settings := by
  unfold State.pumpCtx
  (try simp)
  repeat' (first | done | (simp; done) | split | intro _ | (simp; split))
@[simp] theorem State.pumpStreams_set (s : State) : (State.pumpStreams s).settings = s.settings := by
  unfold State.pumpStreams
  first | (simp; done) | rfl | (repeat' (first | (simp; done) | split))
@[simp] theorem State.closeBlock_set (p c : Nat) (final : Bool) (s : State) : (State.closeBlock p c final s).settings = s.settings := by
  unfold State.closeBlock
  first | (simp; done) | rfl | (repeat' (first | (simp; done) | split))
@[simp] theorem State.pipeAct_set (p c : Nat) (a : PipeAct) (s : State) : (State.pipeAct p c a s).settings = s.settings := by
  unfold State.pipeAct
  first | (simp; done) | rfl | (repeat' (first | (simp; done) | split))
@[simp] theorem State.feedCtx_set (p c : Nat) (v : Int) (mark : Nat) (tau : Int) (ts : Tick) (dic : Bool) (s : State) : (State.feedCtx p c v mark tau ts dic s).settings = s.settings := by
  unfold State.feedCtx
  first | (simp; done) | rfl | (repeat' (first | (simp; done) | split))
@[simp] theorem State.gapCtx_set (p c : Nat) (tau : Int) (ts : Tick) (dic : Bool) (s : State) : (State.gapCtx p c tau ts dic s).settings = s.settings := by
  unfold State.gapCtx
  first | (simp; done) | rfl | (repeat' (first | (simp; done) | split))
@[simp] theorem State.gapRun_set (p c per k i : Nat) (s : State) : (State.gapRun p c per k i s).settings = s.settings := by
  induction k generalizing i s with
  | zero => simp [State.gapRun]
  | succ k ih => simp [State.gapRun, ih]
@[simp] theorem State.gridInput_set (p c : Nat) (i : PipeIn) (s : State) : (State.gridInput p c i s).settings = s.settings := by
  unfold State.gridInput
  (try simp)
  repeat' (first | done | (simp; done) | split | intro _ | (simp; split))
@[simp] theorem State.switchCtx_set (p c ch : Nat) (h : Hdr) (s : State) : (State.switchCtx p c ch h s).settings = s.settings := by
  unfold State.switchCtx
  first | (simp; done) | rfl | (repeat' (first | (simp; done) | split))
@[simp] theorem State.ctxInput_set (p c : Nat) (i : PipeIn) (s : State) : (State.ctxInput p c i s).settings = s.settings := by
  unfold State.ctxInput
  (try simp)
  repeat' (first | done | (simp; done) | split | intro _ | (simp; split))
@[simp] theorem State.stopCtx_set (p c reason : Nat) (h : Option Hdr) (s : State) : (State.stopCtx p c reason h s).settings = s.settings := by
  unfold State.stopCtx
  (try simp)
  repeat' (first | done | (simp; done) | split | intro _ | (simp; split))
@[simp] theorem State.stopWhere_set (p reason : Nat) (f : Ctx → Bool) (s : State) : (State.stopWhere p reason f s).settings = s.settings := by
  unfold State.stopWhere
  first | (simp; done) | rfl | (repeat' (first | (simp; done) | split))
@[simp] theorem State.startCtx_set (p c : Nat) (port : PortId) (ring : Nat) (s : State) : (State.startCtx p c port ring s).settings = s.settings := by
  unfold State.startCtx
  first | (simp; done) | rfl | (repeat' (first | (simp; done) | split))
@[simp] theorem ConvUnit.voidHist_set (input : Nat) (v : ConvUnit) : (ConvUnit.voidHist input v).setting = v.setting := by
  unfold ConvUnit.voidHist
  first | rfl | (simp []; done) | (repeat' (first | (simp []; done) | split))
@[simp] theorem ConvUnit.learn_set (conv input gain : Nat) (x : Int) (ts : Tick) (v : ConvUnit) : (ConvUnit.learn conv input gain x ts v).setting = v.setting := by
  unfold ConvUnit.learn
  first | rfl | (simp []; done) | (repeat' (first | (simp []; done) | split))
@[simp] theorem ConvUnit.learnAll_set (conv : Nat) (ts : Tick) (sides : List (Nat × Nat × Int)) (v : ConvUnit) :
    (ConvUnit.learnAll conv ts sides v).setting = v.setting := by
  unfold ConvUnit.learnAll
  induction sides generalizing v with
  | nil => rfl
  | cons x xs ih => simp [ih]
@[simp] theorem State.endCapture_set (t c : Nat) (cap : TrimCap) (st : Nat) (s : State) : (State.endCapture t c cap st s).settings = s.settings := by
  unfold State.endCapture
  first | (simp; done) | rfl | (repeat' (first | (simp; done) | split))
@[simp] theorem State.captureOne_set (t c : Nat) (x : Int) (cap : TrimCap) (s : State) : (State.captureOne t c x cap s).settings = s.settings := by
  unfold State.captureOne
  first | (simp; done) | rfl | (repeat' (first | (simp; done) | split))
@[simp] theorem State.captureTrim_set (t c : Nat) (x : Int) (s : State) : (State.captureTrim t c x s).settings = s.settings := by
  unfold State.captureTrim
  first | (simp; done) | rfl | (repeat' (first | (simp; done) | split))
@[simp] theorem State.discardIn_set (t i fate : Nat) (s : State) : (State.discardIn t i fate s).settings = s.settings := by
  unfold State.discardIn
  first | (simp; done) | rfl | (repeat' (first | (simp; done) | split))
@[simp] theorem State.gapNotice_set (t c : Nat) (seqSlot : Option (Nat × Nat)) (trig : Tick) (s : State) : (State.gapNotice t c seqSlot trig s).settings = s.settings := by
  unfold State.gapNotice
  first | (simp; done) | rfl | (repeat' (first | (simp; done) | split))
@[simp] theorem State.classify_set (t c : Nat) (x : Int) (s : State) : (State.classify t c x s).settings = s.settings := by
  unfold State.classify
  first | (simp; done) | rfl | (repeat' (first | (simp; done) | split))
@[simp] theorem State.accResult_set (t c : Nat) (raw : Int) (ts : Tick) (flags attempt gain : Nat) (seqSlot : Option (Nat × Nat)) (trig : Tick) (evt tested : Bool) (s : State) : (State.accResult t c raw ts flags attempt gain seqSlot trig evt tested s).1.settings = s.settings := by
  unfold State.accResult
  first | (simp; done) | rfl | (repeat' (first | (simp; done) | split))
@[simp] theorem State.accInternal_set (t i : Nat) (v : Int) (ts : Tick) (flags : Nat) (seqSlot : Option (Nat × Nat)) (evt : Bool) (s : State) : (State.accInternal t i v ts flags seqSlot evt s).1.settings = s.settings := by
  unfold State.accInternal
  first | (simp; done) | rfl | (repeat' (first | (simp; done) | split))
@[simp] theorem State.dropResult_set (t c fate : Nat) (broken ovr : Bool) (seqSlot : Option (Nat × Nat)) (trig : Tick) (s : State) : (State.dropResult t c fate broken ovr seqSlot trig s).settings = s.settings := by
  unfold State.dropResult
  first | (simp; done) | rfl | (repeat' (first | (simp; done) | split))
@[simp] theorem State.setJob_set (t v : Nat) (j : Option Job) (s : State) : (State.setJob t v j s).settings = s.settings := by
  unfold State.setJob
  first | (simp; done) | rfl | (repeat' (first | (simp; done) | split))
@[simp] theorem ConvUnit.dropSeq_set (n f trig : Nat) (u : ConvUnit) : (ConvUnit.dropSeq n f trig u).setting = u.setting := by
  unfold ConvUnit.dropSeq
  first | rfl | (simp []; done) | (repeat' (first | (simp []; done) | split))
@[simp] theorem State.finishDisarm_set (t n : Nat) (s : State) : (State.finishDisarm t n s).settings = s.settings := by
  unfold State.finishDisarm
  first | (simp; done) | rfl | (repeat' (first | (simp; done) | split))
@[simp] theorem State.restSeq_set (t n : Nat) (s : State) : (State.restSeq t n s).settings = s.settings := by
  unfold State.restSeq
  first | (simp; done) | rfl | (repeat' (first | (simp; done) | split))
@[simp] theorem State.gapSlots_set (t n from_ trig : Nat) (s : State) : (State.gapSlots t n from_ trig s).settings = s.settings := by
  unfold State.gapSlots
  first | (simp; done) | rfl | (repeat' (first | (simp; done) | split))
@[simp] theorem State.cancelSpec_set (t n : Nat) (s : State) : (State.cancelSpec t n s).settings = s.settings := by
  unfold State.cancelSpec
  first | (simp; done) | rfl | (repeat' (first | (simp; done) | split))
@[simp] theorem State.disarmSeq_set (t n : Nat) (hs : List Hdr) (s : State) : (State.disarmSeq t n hs s).settings = s.settings := by
  unfold State.disarmSeq
  (try simp)
  repeat' (first | done | (simp; done) | split | intro _ | (simp; split))
@[simp] theorem State.disarmNow_set (t n : Nat) (s : State) : (State.disarmNow t n s).settings = s.settings := by
  unfold State.disarmNow
  (try simp)
  repeat' (first | done | (simp; done) | split | intro _ | (simp; split))
@[simp] theorem State.missScan_set (t n : Nat) (s : State) : (State.missScan t n s).settings = s.settings := by
  unfold State.missScan
  (try simp)
  repeat' (first | done | (simp; done) | split | intro _ | (simp; split))
@[simp] theorem State.missJob_set (t : Nat) (j : Job) (s : State) : (State.missJob t j s).settings = s.settings := by
  unfold State.missJob
  first | (simp; done) | rfl | (repeat' (first | (simp; done) | split))
@[simp] theorem State.startScan_set (t n trig : Nat) (keep : Bool) (s : State) : (State.startScan t n trig keep s).settings = s.settings := by
  unfold State.startScan
  first | (simp; done) | rfl | (repeat' (first | (simp; done) | split))
@[simp] theorem State.overrun_set (t n : Nat) (s : State) : (State.overrun t n s).settings = s.settings := by
  unfold State.overrun
  first | (simp; done) | rfl | (repeat' (first | (simp; done) | split))
@[simp] theorem State.policy_set (t n trig : Nat) (s : State) : (State.policy t n trig s).1.settings = s.settings := by
  unfold State.policy
  (try simp)
  repeat' (first | done | (simp; done) | split | intro _ | (simp; split))
@[simp] theorem State.triggerIdle_set (t n trig : Nat) (s : State) : (State.triggerIdle t n trig s).1.settings = s.settings := by
  unfold State.triggerIdle
  first | (simp; done) | rfl | (repeat' (first | (simp; done) | split))
@[simp] theorem State.accHeld_set (t n trig : Nat) (late : Bool) (rs : List Result) (s : State) : (State.accHeld t n trig late rs s).settings = s.settings := by
  unfold State.accHeld
  first | (simp; done) | rfl | (repeat' (first | (simp; done) | split))
@[simp] theorem State.endScanOne_set (t n : Nat) (s : State) : (State.endScanOne t n s).settings = s.settings := by
  unfold State.endScanOne
  (try simp)
  repeat' (first | done | (simp; done) | split | intro _ | (simp; split))
@[simp] theorem State.trigger_set (t n trig : Nat) (s : State) : (State.trigger t n trig s).1.settings = s.settings := by
  unfold State.trigger
  (try simp)
  repeat' (first | done | (simp; done) | split | intro _ | (simp; split))
@[simp] theorem State.settleScan_set (t k n : Nat) (s : State) : (State.settleScan t k n s).settings = s.settings := by
  induction k generalizing n s with
  | zero => simp [State.settleScan]
  | succ k ih =>
    have hc (n : Nat) (s : State) : (forAll (fun m s =>
        if (((s.tile t).seq m).active && ((s.tile t).seq m).src = 4 && ((s.tile t).seq m).param % 8 = n && m ≠ n) = true then
          State.settleScan t k m (s.trigger t m (s.tnow t)).1
        else s) (List.range 8) s).settings = s.settings :=
      forAll_set _ (fun m s => by split <;> simp [ih]) _ s
    unfold State.settleScan
    dsimp only
    split
    · split
      · rw [hc]
        simp only [State.restSeq_set]
        split
        · split <;> simp
        · simp
      · rfl
    · simp
@[simp] theorem State.fire_set (t n trig : Nat) (s : State) : (State.fire t n trig s).1.settings = s.settings := by
  unfold State.fire
  (try simp)
  repeat' (first | done | (simp; done) | split | intro _ | (simp; split))
@[simp] theorem State.fireWhere_set (t src : Nat) (f : Nat → Bool) (trig : Nat) (s : State) : (State.fireWhere t src f trig s).settings = s.settings := by
  unfold State.fireWhere
  first | (simp; done) | rfl | (repeat' (first | (simp; done) | split))
@[simp] theorem State.startJob_set (t v : Nat) (src : JobSrc) (input : Nat) (w : Word) (spec : Bool) (s : State) : (State.startJob t v src input w spec s).settings = s.settings := by
  unfold State.startJob
  first | (simp; done) | rfl | (repeat' (first | (simp; done) | split))
@[simp] theorem State.endInj_set (t : Nat) (e : Inj) (r : Reply) (s : State) : (State.endInj t e r s).settings = s.settings := by
  unfold State.endInj
  first | (simp; done) | rfl | (repeat' (first | (simp; done) | split))
@[simp] theorem ConvUnit.unqueue_set (f : Inj → Bool) (u : ConvUnit) : (ConvUnit.unqueue f u).setting = u.setting := by
  unfold ConvUnit.unqueue
  first | rfl | (simp []; done) | (repeat' (first | (simp []; done) | split))
@[simp] theorem State.dropJob_set (t : Nat) (j : Job) (fate : Nat) (broken ovr : Bool) (trig : Tick) (s : State) : (State.dropJob t j fate broken ovr trig s).settings = s.settings := by
  unfold State.dropJob
  first | (simp; done) | rfl | (repeat' (first | (simp; done) | split))
@[simp] theorem State.slotDone_set (t : Nat) (j : Job) (acc disc : Nat) (s : State) : (State.slotDone t j acc disc s).settings = s.settings := by
  unfold State.slotDone
  (try simp)
  repeat' (first | done | (simp; done) | split | intro _ | (simp; split))
@[simp] theorem State.finishJob_set (t v : Nat) (j : Job) (raw : Int) (ts : Tick) (sides : List (Nat × Nat × Int)) (s : State) : (State.finishJob t v j raw ts sides s).settings = s.settings := by
  unfold State.finishJob
  (try simp)
  repeat' (first | done | (simp; done) | split | intro _ | (simp; split))
@[simp] theorem State.freeJob_set (t v : Nat) (s : State) : (State.freeJob t v s).settings = s.settings := by
  unfold State.freeJob
  first | (simp; done) | rfl | (repeat' (first | (simp; done) | split))
@[simp] theorem State.burnout_set (t : Nat) (j : Job) (burn : Bool) (x : Sample) (s : State) : (State.burnout t j burn x s).settings = s.settings := by
  unfold State.burnout
  first | (simp; done) | rfl | (repeat' (first | (simp; done) | split))
@[simp] theorem State.convEnd_set (t v : Nat) (x : Sample) (s : State) : (State.convEnd t v x s).settings = s.settings := by
  unfold State.convEnd
  (try simp)
  repeat' (first | done | (simp; done) | split | intro _ | (simp; split))
@[simp] theorem State.dmdOne_set (t : Nat) (j : Job) (c : Nat) (raw : Int) (forced : Option Nat) (broken past : Bool) (trig : Tick) (s : State) : (State.dmdOne t j c raw forced broken past trig s).1.settings = s.settings := by
  unfold State.dmdOne
  (try simp)
  repeat' (first | done | (simp; done) | split | intro _ | (simp; split))
@[simp] theorem State.dmdEnd_set (t : Nat) (d : Demod) (s : State) : (State.dmdEnd t d s).settings = s.settings := by
  unfold State.dmdEnd
  (try simp)
  repeat' (first | done | (simp; done) | split | intro _ | (simp; split))
@[simp] theorem State.abortInj_set (t st : Nat) (s : State) : (State.abortInj t st s).settings = s.settings := by
  unfold State.abortInj
  first | (simp; done) | rfl | (repeat' (first | (simp; done) | split))
@[simp] theorem State.calBackground_set (t : Nat) (hs : List Hdr) (s : State) : (State.calBackground t hs s).settings = s.settings := by
  unfold State.calBackground
  first | (simp; done) | rfl | (repeat' (first | (simp; done) | split))
@[simp] theorem State.calApply_set (t v : Nat) (coef : List (Int × Int)) (bad : Bool) (s : State) : (State.calApply t v coef bad s).settings = s.settings := by
  unfold State.calApply
  first | (simp; done) | rfl | (repeat' (first | (simp; done) | split))
@[simp] theorem State.calFinish_set (t : Nat) (s : State) : (State.calFinish t s).settings = s.settings := by
  unfold State.calFinish
  first | (simp; done) | rfl | (repeat' (first | (simp; done) | split))
@[simp] theorem State.calStepOn_set (t v : Nat) (coef : List (Int × Int)) (bad : Bool) (s : State) : (State.calStepOn t v coef bad s).settings = s.settings := by
  unfold State.calStepOn
  first | (simp; done) | rfl | (repeat' (first | (simp; done) | split))
@[simp] theorem State.refRise_set (t : Nat) (s : State) : (State.refRise t s).settings = s.settings := by
  unfold State.refRise
  first | (simp; done) | rfl | (repeat' (first | (simp; done) | split))
@[simp] theorem State.refCompareAt_set (t : Nat) (dev : Int) (s : State) : (State.refCompareAt t dev s).settings = s.settings := by
  unfold State.refCompareAt
  first | (simp; done) | rfl | (repeat' (first | (simp; done) | split))
@[simp] theorem State.modDi_set (t c : Nat) (f : DiState → DiState) (s : State) : (State.modDi t c f s).settings = s.settings := by
  unfold State.modDi
  first | (simp; done) | rfl | (repeat' (first | (simp; done) | split))
@[simp] theorem State.modDic_set (t c : Nat) (f : DicState → DicState) (s : State) : (State.modDic t c f s).settings = s.settings := by
  unfold State.modDic
  first | (simp; done) | rfl | (repeat' (first | (simp; done) | split))
@[simp] theorem State.button_set (t c : Nat) (lvl : Bool) (s : State) : (State.button t c lvl s).settings = s.settings := by
  unfold State.button
  first | (simp; done) | rfl | (repeat' (first | (simp; done) | split))
@[simp] theorem State.accLevel_set (t c : Nat) (lvl ev cnt : Bool) (s : State) : (State.accLevel t c lvl ev cnt s).settings = s.settings := by
  unfold State.accLevel
  first | (simp; done) | rfl | (repeat' (first | (simp; done) | split))
@[simp] theorem State.setValid_set (t c : Nat) (want lvl : Bool) (s : State) : (State.setValid t c want lvl s).settings = s.settings := by
  unfold State.setValid
  first | (simp; done) | rfl | (repeat' (first | (simp; done) | split))
@[simp] theorem State.chatLevel_set (t c : Nat) (lvl : Bool) (s : State) : (State.chatLevel t c lvl s).settings = s.settings := by
  unfold State.chatLevel
  first | (simp; done) | rfl | (repeat' (first | (simp; done) | split))
@[simp] theorem State.judgeValid_set (t c : Nat) (s : State) : (State.judgeValid t c s).settings = s.settings := by
  unfold State.judgeValid
  first | (simp; done) | rfl | (repeat' (first | (simp; done) | split))
@[simp] theorem State.firstLevel_set (t c : Nat) (s : State) : (State.firstLevel t c s).settings = s.settings := by
  unfold State.firstLevel
  first | (simp; done) | rfl | (repeat' (first | (simp; done) | split))
@[simp] theorem State.leaveChatter_set (t c : Nat) (s : State) : (State.leaveChatter t c s).settings = s.settings := by
  unfold State.leaveChatter
  first | (simp; done) | rfl | (repeat' (first | (simp; done) | split))
@[simp] theorem State.sieveAcc_set (t c : Nat) (s : State) : (State.sieveAcc t c s).settings = s.settings := by
  unfold State.sieveAcc
  first | (simp; done) | rfl | (repeat' (first | (simp; done) | split))
@[simp] theorem State.crossing_set (t c : Nat) (lvl : Bool) (s : State) : (State.crossing t c lvl s).settings = s.settings := by
  unfold State.crossing
  first | (simp; done) | rfl | (repeat' (first | (simp; done) | split))
@[simp] theorem State.gateEnd_set (t c : Nat) (s : State) : (State.gateEnd t c s).settings = s.settings := by
  unfold State.gateEnd
  first | (simp; done) | rfl | (repeat' (first | (simp; done) | split))
@[simp] theorem State.chatWindow_set (t c : Nat) (s : State) : (State.chatWindow t c s).settings = s.settings := by
  unfold State.chatWindow
  first | (simp; done) | rfl | (repeat' (first | (simp; done) | split))
@[simp] theorem State.stuckCheck_set (t c : Nat) (s : State) : (State.stuckCheck t c s).settings = s.settings := by
  unfold State.stuckCheck
  first | (simp; done) | rfl | (repeat' (first | (simp; done) | split))
@[simp] theorem State.buttonAct_set (t lo op : Nat) (s : State) : (State.buttonAct t lo op s).settings = s.settings := by
  unfold State.buttonAct
  first | (simp; done) | rfl | (repeat' (first | (simp; done) | split))
@[simp] theorem State.buttonHold_set (t lo : Nat) (s : State) : (State.buttonHold t lo s).settings = s.settings := by
  unfold State.buttonHold
  (try simp)
  repeat' (first | done | (simp; done) | split | intro _ | (simp; split))
@[simp] theorem State.buttonStuck_set (t c : Nat) (s : State) : (State.buttonStuck t c s).settings = s.settings := by
  unfold State.buttonStuck
  (try simp)
  repeat' (first | done | (simp; done) | split | intro _ | (simp; split))
@[simp] theorem State.abortAction_set (t c : Nat) (a : Action) (s : State) : (State.abortAction t c a s).settings = s.settings := by
  unfold State.abortAction
  first | (simp; done) | rfl | (repeat' (first | (simp; done) | split))
@[simp] theorem State.abortStaged_set (t c : Nat) (s : State) : (State.abortStaged t c s).settings = s.settings := by
  unfold State.abortStaged
  first | (simp; done) | rfl | (repeat' (first | (simp; done) | split))
@[simp] theorem State.dropInj_set (t c : Nat) (left : Bool) (s : State) : (State.dropInj t c left s).settings = s.settings := by
  unfold State.dropInj
  first | (simp; done) | rfl | (repeat' (first | (simp; done) | split))
@[simp] theorem State.endDiags_set (t c : Nat) (s : State) : (State.endDiags t c s).settings = s.settings := by
  unfold State.endDiags
  first | (simp; done) | rfl | (repeat' (first | (simp; done) | split))
@[simp] theorem State.railIdle_set (t : Nat) (s : State) : (State.railIdle t s).settings = s.settings := by
  unfold State.railIdle
  first | (simp; done) | rfl | (repeat' (first | (simp; done) | split))
@[simp] theorem State.inputCfg_set (t c : Nat) (old : Chan) (s : State) : (State.inputCfg t c old s).settings = s.settings := by
  unfold State.inputCfg
  first | (simp; done) | rfl | (repeat' (first | (simp; done) | split))
@[simp] theorem State.statWrite_set (t c : Nat) (w : Word) (s : State) : (State.statWrite t c w s).settings = s.settings := by
  unfold State.statWrite
  first | (simp; done) | rfl | (repeat' (first | (simp; done) | split))
@[simp] theorem State.commitDueOne_set (t c : Nat) (d : Due) (s : State) : (State.commitDueOne t c d s).settings = s.settings := by
  unfold State.commitDueOne
  first | (simp; done) | rfl | (repeat' (first | (simp; done) | split))
@[simp] theorem State.commitAction_set (t c : Nat) (a : Action) (s : State) : (State.commitAction t c a s).settings = s.settings := by
  unfold State.commitAction
  first | (simp; done) | rfl | (repeat' (first | (simp; done) | split))
@[simp] theorem State.refuseAction_set (t c reason : Nat) (a : Action) (s : State) : (State.refuseAction t c reason a s).settings = s.settings := by
  unfold State.refuseAction
  first | (simp; done) | rfl | (repeat' (first | (simp; done) | split))
@[simp] theorem State.arriveAction_set (a : Action) (s : State) : (State.arriveAction a s).settings = s.settings := by
  unfold State.arriveAction
  (try simp)
  repeat' (first | done | (simp; done) | split | intro _ | (simp; split))
@[simp] theorem State.commitDue_set (t c : Nat) (f : Due → Bool) (s : State) : (State.commitDue t c f s).settings = s.settings := by
  unfold State.commitDue
  first | (simp; done) | rfl | (repeat' (first | (simp; done) | split))
@[simp] theorem State.protect_set (t l : Nat) (f : OutState → OutState) (s : State) : (State.protect t l f s).settings = s.settings := by
  unfold State.protect
  first | (simp; done) | rfl | (repeat' (first | (simp; done) | split))
@[simp] theorem State.shortGnd_set (t c : Nat) (s : State) : (State.shortGnd t c s).settings = s.settings := by
  unfold State.shortGnd
  first | (simp; done) | rfl | (repeat' (first | (simp; done) | split))
@[simp] theorem State.mirAnew_set (t c : Nat) (s : State) : (State.mirAnew t c s).settings = s.settings := by
  unfold State.mirAnew
  first | (simp; done) | rfl | (repeat' (first | (simp; done) | split))
@[simp] theorem State.endProt_set (t l : Nat) (retry : Bool) (s : State) : (State.endProt t l retry s).settings = s.settings := by
  unfold State.endProt
  first | (simp; done) | rfl | (repeat' (first | (simp; done) | split))
@[simp] theorem State.overloadRetry_set (t c : Nat) (s : State) : (State.overloadRetry t c s).settings = s.settings := by
  unfold State.overloadRetry
  (try simp)
  repeat' (first | done | (simp; done) | split | intro _ | (simp; split))
@[simp] theorem State.thermal_set (t c : Nat) (s : State) : (State.thermal t c s).settings = s.settings := by
  unfold State.thermal
  (try simp)
  repeat' (first | done | (simp; done) | split | intro _ | (simp; split))
@[simp] theorem State.thermalEnd_set (t c : Nat) (s : State) : (State.thermalEnd t c s).settings = s.settings := by
  unfold State.thermalEnd
  (try simp)
  repeat' (first | done | (simp; done) | split | intro _ | (simp; split))
@[simp] theorem State.overDecl_set (t c : Nat) (s : State) : (State.overDecl t c s).settings = s.settings := by
  unfold State.overDecl
  first | (simp; done) | rfl | (repeat' (first | (simp; done) | split))
@[simp] theorem State.shortOver_set (t : Nat) (s : State) : (State.shortOver t s).settings = s.settings := by
  unfold State.shortOver
  refine forAll_set _ (fun c s => ?_) _ _
  dsimp only
  split
  · split
    · simp
    · split <;> simp
  · rfl
@[simp] theorem State.openOn_set (t c : Nat) (low : Bool) (s : State) : (State.openOn t c low s).settings = s.settings := by
  unfold State.openOn
  first | (simp; done) | rfl | (repeat' (first | (simp; done) | split))
@[simp] theorem State.resolve_set (t c : Nat) (s : State) : (State.resolve t c s).settings = s.settings := by
  unfold State.resolve
  first | (simp; done) | rfl | (repeat' (first | (simp; done) | split))
@[simp] theorem State.suspectPin_set (t c how : Nat) (mv : Int) (s : State) : (State.suspectPin t c how mv s).settings = s.settings := by
  unfold State.suspectPin
  first | (simp; done) | rfl | (repeat' (first | (simp; done) | split))
@[simp] theorem State.tie_set (t a b : Nat) (s : State) : (State.tie t a b s).settings = s.settings := by
  unfold State.tie
  first | (simp; done) | rfl | (repeat' (first | (simp; done) | split))
@[simp] theorem State.untie_set (t a : Nat) (s : State) : (State.untie t a s).settings = s.settings := by
  unfold State.untie
  first | (simp; done) | rfl | (repeat' (first | (simp; done) | split))
@[simp] theorem State.offCheck_set (t c : Nat) (mv : Int) (s : State) : (State.offCheck t c mv s).settings = s.settings := by
  unfold State.offCheck
  first | (simp; done) | rfl | (repeat' (first | (simp; done) | split))
@[simp] theorem State.ownPin_set (t l k : Nat) (mv : Int) (s : State) : (State.ownPin t l k mv s).settings = s.settings := by
  unfold State.ownPin
  (try simp)
  repeat' (first | done | (simp; done) | split | intro _ | (simp; split))
@[simp] theorem State.otherPin_set (t l k : Nat) (mv : Int) (s : State) : (State.otherPin t l k mv s).settings = s.settings := by
  unfold State.otherPin
  first | (simp; done) | rfl | (repeat' (first | (simp; done) | split))
@[simp] theorem State.darkPulse_set (t c ua : Nat) (pins : List (Nat × Int)) (s : State) : (State.darkPulse t c ua pins s).settings = s.settings := by
  unfold State.darkPulse
  first | (simp; done) | rfl | (repeat' (first | (simp; done) | split))
@[simp] theorem State.pinClamp_set (t c : Nat) (acting : Bool) (s : State) : (State.pinClamp t c acting s).settings = s.settings := by
  unfold State.pinClamp
  first | (simp; done) | rfl | (repeat' (first | (simp; done) | split))
@[simp] theorem State.surge_set (t c : Nat) (mv : Int) (ma : Nat) (s : State) : (State.surge t c mv ma s).settings = s.settings := by
  unfold State.surge
  first | (simp; done) | rfl | (repeat' (first | (simp; done) | split))
@[simp] theorem State.surgeOver_set (t c : Nat) (s : State) : (State.surgeOver t c s).settings = s.settings := by
  unfold State.surgeOver
  first | (simp; done) | rfl | (repeat' (first | (simp; done) | split))
@[simp] theorem State.dropStaged_set (t c : Nat) (s : State) : (State.dropStaged t c s).settings = s.settings := by
  unfold State.dropStaged
  first | (simp; done) | rfl | (repeat' (first | (simp; done) | split))
@[simp] theorem State.loseField_set (t : Nat) (s : State) : (State.loseField t s).settings = s.settings := by
  unfold State.loseField
  first | (simp; done) | rfl | (repeat' (first | (simp; done) | split))
@[simp] theorem State.energise_set (t c : Nat) (s : State) : (State.energise t c s).settings = s.settings := by
  unfold State.energise
  first | (simp; done) | rfl | (repeat' (first | (simp; done) | split))
@[simp] theorem State.regainField_set (t : Nat) (s : State) : (State.regainField t s).settings = s.settings := by
  unfold State.regainField
  first | (simp; done) | rfl | (repeat' (first | (simp; done) | split))
@[simp] theorem State.reenSlot_set (t : Nat) (s : State) : (State.reenSlot t s).settings = s.settings := by
  unfold State.reenSlot
  first | (simp; done) | rfl | (repeat' (first | (simp; done) | split))
@[simp] theorem State.lplus_set (t : Nat) (cv : Int) (s : State) : (State.lplus t cv s).settings = s.settings := by
  unfold State.lplus
  first | (simp; done) | rfl | (repeat' (first | (simp; done) | split))
@[simp] theorem State.aoDiag_set (t c b n : Nat) (on : Bool) (s : State) : (State.aoDiag t c b n on s).settings = s.settings := by
  unfold State.aoDiag
  first | (simp; done) | rfl | (repeat' (first | (simp; done) | split))
@[simp] theorem State.aoLatch_set (t c : Nat) (s : State) : (State.aoLatch t c s).settings = s.settings := by
  unfold State.aoLatch
  first | (simp; done) | rfl | (repeat' (first | (simp; done) | split))
@[simp] theorem State.aoReadback_set (t c : Nat) (r : Readback) (s : State) : (State.aoReadback t c r s).settings = s.settings := by
  unfold State.aoReadback
  first | (simp; done) | rfl | (repeat' (first | (simp; done) | split))
@[simp] theorem State.crail_set (t dv : Nat) (s : State) : (State.crail t dv s).settings = s.settings := by
  unfold State.crail
  first | (simp; done) | rfl | (repeat' (first | (simp; done) | split))
@[simp] theorem State.foldback_set (t c : Nat) (s : State) : (State.foldback t c s).settings = s.settings := by
  unfold State.foldback
  first | (simp; done) | rfl | (repeat' (first | (simp; done) | split))
@[simp] theorem State.foldRetry_set (t c ua : Nat) (s : State) : (State.foldRetry t c ua s).settings = s.settings := by
  unfold State.foldRetry
  first | (simp; done) | rfl | (repeat' (first | (simp; done) | split))
@[simp] theorem State.excCycle_set (t c : Nat) (lim : Limiting) (na : Nat) (s : State) : (State.excCycle t c lim na s).settings = s.settings := by
  unfold State.excCycle
  first | (simp; done) | rfl | (repeat' (first | (simp; done) | split))
@[simp] theorem State.mirStart_set (t c : Nat) (s : State) : (State.mirStart t c s).settings = s.settings := by
  unfold State.mirStart
  (try simp)
  repeat' (first | done | (simp; done) | split | intro _ | (simp; split))
@[simp] theorem State.tileTemp_set (t : Nat) (a b d : Int) (s : State) : (State.tileTemp t a b d s).settings = s.settings := by
  unfold State.tileTemp
  first | (simp; done) | rfl | (repeat' (first | (simp; done) | split))
@[simp] theorem State.modTxn_set (p : PortId) (tag : Nat) (f : Txn → Txn) (s : State) : (State.modTxn p tag f s).settings = s.settings := by
  unfold State.modTxn
  first | (simp; done) | rfl | (repeat' (first | (simp; done) | split))
@[simp] theorem State.submitTxn_set (h : Hdr) (c : Tick) (ms : List Member) (s : State) : (State.submitTxn h c ms s).1.settings = s.settings := by
  unfold State.submitTxn
  (try simp)
  repeat' (first | done | (simp; done) | split | intro _ | (simp; split))
@[simp] theorem State.txnArrive_set (p : PortId) (tag t : Nat) (s : State) : (State.txnArrive p tag t s).settings = s.settings := by
  unfold State.txnArrive
  first | (simp; done) | rfl | (repeat' (first | (simp; done) | split))
@[simp] theorem State.txnGot_set (p : PortId) (tag t : Nat) (s : State) : (State.txnGot p tag t s).settings = s.settings := by
  unfold State.txnGot
  (try simp)
  repeat' (first | done | (simp; done) | split | intro _ | (simp; split))
@[simp] theorem State.holdPulses_set (c : Tick) (mem : List Member) (s : State) : (State.holdPulses c mem s).settings = s.settings := by
  unfold State.holdPulses
  first | (simp; done) | rfl | (repeat' (first | (simp; done) | split))
@[simp] theorem State.txnDecide_set (p : PortId) (tag : Nat) (s : State) : (State.txnDecide p tag s).settings = s.settings := by
  unfold State.txnDecide
  first | (simp; done) | rfl | (repeat' (first | (simp; done) | split))
@[simp] theorem State.txnTold_set (p : PortId) (tag t : Nat) (s : State) : (State.txnTold p tag t s).settings = s.settings := by
  unfold State.txnTold
  first | (simp; done) | rfl | (repeat' (first | (simp; done) | split))
@[simp] theorem State.txnMember_set (x : Txn) (m : Member) (s : State) : (State.txnMember x m s).settings = s.settings := by
  unfold State.txnMember
  first | (simp; done) | rfl | (repeat' (first | (simp; done) | split))
@[simp] theorem State.txnOrphan_set (x : Txn) (t : Nat) (s : State) : (State.txnOrphan x t s).settings = s.settings := by
  unfold State.txnOrphan
  first | (simp; done) | rfl | (repeat' (first | (simp; done) | split))
@[simp] theorem State.txnCommit_set (p : PortId) (tag t : Nat) (s : State) : (State.txnCommit p tag t s).settings = s.settings := by
  unfold State.txnCommit
  first | (simp; done) | rfl | (repeat' (first | (simp; done) | split))
@[simp] theorem State.txnReport_set (p : PortId) (tag t : Nat) (s : State) : (State.txnReport p tag t s).settings = s.settings := by
  unfold State.txnReport
  (try simp)
  repeat' (first | done | (simp; done) | split | intro _ | (simp; split))
@[simp] theorem State.cancelTxn_set (p : PortId) (tag : Nat) (s : State) : (State.cancelTxn p tag s).1.settings = s.settings := by
  unfold State.cancelTxn
  first | (simp; done) | rfl | (repeat' (first | (simp; done) | split))
@[simp] theorem State.txnOffline_set (t : Nat) (s : State) : (State.txnOffline t s).settings = s.settings := by
  unfold State.txnOffline
  first | (simp; done) | rfl | (repeat' (first | (simp; done) | split))
@[simp] theorem State.txnLost_set (t : Nat) (s : State) : (State.txnLost t s).settings = s.settings := by
  unfold State.txnLost
  first | (simp; done) | rfl | (repeat' (first | (simp; done) | split))
@[simp] theorem State.cancelActions_set (p : PortId) (g : Nat) (s : State) : (State.cancelActions p g s).1.settings = s.settings := by
  unfold State.cancelActions
  first | (simp; done) | rfl | (repeat' (first | (simp; done) | split))
@[simp] theorem State.linkDisarm_set (t n : Nat) (s : State) : (State.linkDisarm t n s).settings = s.settings := by
  unfold State.linkDisarm
  first | (simp; done) | rfl | (repeat' (first | (simp; done) | split))
@[simp] theorem State.linkStreams_set (t : Nat) (cs : List Nat) (n : Nat) (b : Bool) (s : State) :
    (State.linkStreams t cs n b s).settings = s.settings := by
  induction cs generalizing n b s with
  | nil => simp [State.linkStreams]
  | cons c cs ih => simp [State.linkStreams, ih]
@[simp] theorem State.linkReadmit_set (t : Nat) (s : State) : (State.linkReadmit t s).settings = s.settings := by
  unfold State.linkReadmit
  (try simp)
  repeat' (first | done | (simp; done) | split | intro _ | (simp; split))
@[simp] theorem State.loseSight_set (t : Nat) (s : State) : (State.loseSight t s).settings = s.settings := by
  unfold State.loseSight
  first | (simp; done) | rfl | (repeat' (first | (simp; done) | split))
@[simp] theorem State.findSight_set (t : Nat) (f : Link → Link) (s : State) : (State.findSight t f s).settings = s.settings := by
  unfold State.findSight
  first | (simp; done) | rfl | (repeat' (first | (simp; done) | split))
@[simp] theorem State.laneFail_set (t m : Nat) (s : State) : (State.laneFail t m s).settings = s.settings := by
  unfold State.laneFail
  first | (simp; done) | rfl | (repeat' (first | (simp; done) | split))
@[simp] theorem State.badFrame_set (t lane : Nat) (s : State) : (State.badFrame t lane s).settings = s.settings := by
  unfold State.badFrame
  first | (simp; done) | rfl | (repeat' (first | (simp; done) | split))
@[simp] theorem State.linkReturn_set (t lanes : Nat) (s : State) : (State.linkReturn t lanes s).settings = s.settings := by
  unfold State.linkReturn
  first | (simp; done) | rfl | (repeat' (first | (simp; done) | split))
@[simp] theorem State.abandonSeqs_set (t : Nat) (s : State) : (State.abandonSeqs t s).settings = s.settings := by
  unfold State.abandonSeqs
  dsimp only
  refine (forAll_set _ (fun n s => ?_) _ _).trans ?_
  · split <;> simp
  · simp
@[simp] theorem State.staleLines_set (t : Nat) (on : Bool) (s : State) : (State.staleLines t on s).settings = s.settings := by
  unfold State.staleLines
  first | (simp; done) | rfl | (repeat' (first | (simp; done) | split))
@[simp] theorem State.tileDown_set (t : Nat) (s : State) : (State.tileDown t s).settings = s.settings := by
  have h (s : State) : (forAll (fun c s => s.abortStaged t c) chanNos s).settings = s.settings := by simp
  unfold State.tileDown
  refine (State.refresh_set _ _).trans <| (State.staleLines_set _ _ _).trans <| (State.stopWhere_set _ _ _ _).trans <|
    (State.stopWhere_set _ _ _ _).trans <| (State.abortInj_set _ _ _).trans <| (State.abandonSeqs_set _ _).trans <|
    (State.txnOffline_set _ _).trans <| h s
@[simp] theorem Tile.logicReset_set (now : Tick) (T : Tile) : (Tile.logicReset now T).settings = T.settings := by
  unfold Tile.logicReset
  first | rfl | (simp []; done) | (repeat' (first | (simp []; done) | split))
@[simp] theorem State.startReadmit_set (t : Nat) (h : Option Hdr) (s : State) : (State.startReadmit t h s).settings = s.settings := by
  unfold State.startReadmit
  first | (simp; done) | rfl | (repeat' (first | (simp; done) | split))
@[simp] theorem State.enterBlock_set (t : Nat) (off : Bool) (c : Cause) (s : State) : (State.enterBlock t off c s).settings = s.settings := by
  unfold State.enterBlock
  first | (simp; done) | rfl | (repeat' (first | (simp; done) | split))
@[simp] theorem State.takeDown_set (t : Nat) (off : Bool) (c : Cause) (s : State) : (State.takeDown t off c s).settings = s.settings := by
  unfold State.takeDown
  first | (simp; done) | rfl | (repeat' (first | (simp; done) | split))
@[simp] theorem State.goOffline_set (t : Nat) (h : Hdr) (s : State) : (State.goOffline t h s).settings = s.settings := by
  unfold State.goOffline
  first | (simp; done) | rfl | (repeat' (first | (simp; done) | split))
@[simp] theorem State.nowOffline_set (t : Nat) (s : State) : (State.nowOffline t s).settings = s.settings := by
  unfold State.nowOffline
  first | (simp; done) | rfl | (repeat' (first | (simp; done) | split))
@[simp] theorem State.leaveBlock_set (t : Nat) (s : State) : (State.leaveBlock t s).settings = s.settings := by
  unfold State.leaveBlock
  first | (simp; done) | rfl | (repeat' (first | (simp; done) | split))
@[simp] theorem State.endReadmit_set (t : Nat) (ok : Bool) (lanes : Nat) (s : State) : (State.endReadmit t ok lanes s).settings = s.settings := by
  unfold State.endReadmit
  first | (simp; done) | rfl | (repeat' (first | (simp; done) | split))
@[simp] theorem State.barrierLoss_set (t : Nat) (s : State) : (State.barrierLoss t s).settings = s.settings := by
  unfold State.barrierLoss
  first | (simp; done) | rfl | (repeat' (first | (simp; done) | split))
@[simp] theorem State.barrierResume_set (t : Nat) (s : State) : (State.barrierResume t s).settings = s.settings := by
  unfold State.barrierResume
  first | (simp; done) | rfl | (repeat' (first | (simp; done) | split))
@[simp] theorem State.loadEng_set (n t : Nat) (b : Option Nat) (s : State) : (State.loadEng n t b s).settings = s.settings := by
  unfold State.loadEng
  first | (simp; done) | rfl | (repeat' (first | (simp; done) | split))
@[simp] theorem State.loaded_set (n : Nat) (st : EngSt) (t : Nat) (s : State) : (State.loaded n st t s).settings = s.settings := by
  unfold State.loaded
  first | (simp; done) | rfl | (repeat' (first | (simp; done) | split))
@[simp] theorem State.startRot_set (t b : Nat) (h : Option Hdr) (s : State) : (State.startRot t b h s).settings = s.settings := by
  unfold State.startRot
  first | (simp; done) | rfl | (repeat' (first | (simp; done) | split))
@[simp] theorem State.endRot_set (outcome st : Nat) (keep : Bool) (s : State) : (State.endRot outcome st keep s).settings = s.settings := by
  unfold State.endRot
  first | (simp; done) | rfl | (repeat' (first | (simp; done) | split))
@[simp] theorem State.rotLoaded_set (ok : Bool) (s : State) : (State.rotLoaded ok s).settings = s.settings := by
  unfold State.rotLoaded
  first | (simp; done) | rfl | (repeat' (first | (simp; done) | split))
@[simp] theorem State.rotCopied_set (ok : Bool) (s : State) : (State.rotCopied ok s).settings = s.settings := by
  unfold State.rotCopied
  first | (simp; done) | rfl | (repeat' (first | (simp; done) | split))
@[simp] theorem State.rotGap_set (s : State) : (State.rotGap s).settings = s.settings := by
  unfold State.rotGap
  first | (simp; done) | rfl | (repeat' (first | (simp; done) | split))
@[simp] theorem State.rotDone_set (s : State) : (State.rotDone s).settings = s.settings := by
  unfold State.rotDone
  first | (simp; done) | rfl | (repeat' (first | (simp; done) | split))
@[simp] theorem Chan.forget_set (ch : Chan) : (Chan.forget ch).setting = ch.setting := by
  unfold Chan.forget
  first | rfl | (simp []; done) | (repeat' (first | (simp []; done) | split))
@[simp] theorem State.failCommands_set (t : Nat) (s : State) : (State.failCommands t s).settings = s.settings := by
  unfold State.failCommands
  first | (simp; done) | rfl | (repeat' (first | (simp; done) | split))
@[simp] theorem State.dropWaiting_set (t : Nat) (s : State) : (State.dropWaiting t s).settings = s.settings := by
  unfold State.dropWaiting
  first | (simp; done) | rfl | (repeat' (first | (simp; done) | split))
@[simp] theorem State.takeRepair_set (t n k : Nat) (e : Tick) (img : Option Nat) (holds : Bool) (s : State) : (State.takeRepair t n k e img holds s).settings = s.settings := by
  unfold State.takeRepair
  first | (simp; done) | rfl | (repeat' (first | (simp; done) | split))
@[simp] theorem State.startRepair_set (t n : Nat) (img : Option Nat) (s : State) : (State.startRepair t n img s).settings = s.settings := by
  unfold State.startRepair
  (try simp)
  repeat' (first | done | (simp; done) | split | intro _ | (simp; split))
@[simp] theorem State.endGap_set (outcome st : Nat) (s : State) : (State.endGap outcome st s).settings = s.settings := by
  unfold State.endGap
  first | (simp; done) | rfl | (repeat' (first | (simp; done) | split))
@[simp] theorem State.rotTimeout_set (s : State) : (State.rotTimeout s).settings = s.settings := by
  unfold State.rotTimeout
  first | (simp; done) | rfl | (repeat' (first | (simp; done) | split))
@[simp] theorem State.retire_set (n : Nat) (s : State) : (State.retire n s).settings = s.settings := by
  unfold State.retire
  first | (simp; done) | rfl | (repeat' (first | (simp; done) | split))
@[simp] theorem State.assignRepairs_set (s : State) : (State.assignRepairs s).settings = s.settings := by
  unfold State.assignRepairs
  (try simp)
  repeat' (first | done | (simp; done) | split | intro _ | (simp; split))
@[simp] theorem State.repaired_set (t : Nat) (s : State) : (State.repaired t s).settings = s.settings := by
  unfold State.repaired
  first | (simp; done) | rfl | (repeat' (first | (simp; done) | split))
@[simp] theorem State.depotLoaded_set (n : Nat) (ok : Bool) (s : State) : (State.depotLoaded n ok s).settings = s.settings := by
  unfold State.depotLoaded
  first | (simp; done) | rfl | (repeat' (first | (simp; done) | split))
@[simp] theorem State.abortRot_set (t : Nat) (s : State) : (State.abortRot t s).settings = s.settings := by
  unfold State.abortRot
  first | (simp; done) | rfl | (repeat' (first | (simp; done) | split))
@[simp] theorem State.endWatchdog_set (t : Nat) (s : State) : (State.endWatchdog t s).settings = s.settings := by
  unfold State.endWatchdog
  first | (simp; done) | rfl | (repeat' (first | (simp; done) | split))
@[simp] theorem State.serveWatchdog_set (t : Nat) (s : State) : (State.serveWatchdog t s).settings = s.settings := by
  unfold State.serveWatchdog
  first | (simp; done) | rfl | (repeat' (first | (simp; done) | split))
@[simp] theorem State.expireWatchdog_set (t : Nat) (s : State) : (State.expireWatchdog t s).settings = s.settings := by
  unfold State.expireWatchdog
  first | (simp; done) | rfl | (repeat' (first | (simp; done) | split))
@[simp] theorem State.modSram_set (b : Nat) (f : Sram → Sram) (s : State) : (State.modSram b f s).settings = s.settings := by
  unfold State.modSram
  first | (simp; done) | rfl | (repeat' (first | (simp; done) | split))
@[simp] theorem State.railAdjust_set (k margin : Nat) (s : State) : (State.railAdjust k margin s).settings = s.settings := by
  unfold State.railAdjust
  first | (simp; done) | rfl | (repeat' (first | (simp; done) | split))
@[simp] theorem State.railRecover_set (k : Nat) (s : State) : (State.railRecover k s).settings = s.settings := by
  unfold State.railRecover
  first | (simp; done) | rfl | (repeat' (first | (simp; done) | split))
@[simp] theorem State.retention_set (k : Nat) (s : State) : (State.retention k s).settings = s.settings := by
  unfold State.retention
  first | (simp; done) | rfl | (repeat' (first | (simp; done) | split))
@[simp] theorem State.renewPower_set (draws : List Nat) (s : State) : (State.renewPower draws s).settings = s.settings := by
  unfold State.renewPower
  first | (simp; done) | rfl | (repeat' (first | (simp; done) | split))
@[simp] theorem State.repairRow_set (b row : Nat) (s : State) : (State.repairRow b row s).settings = s.settings := by
  unfold State.repairRow
  first | (simp; done) | rfl | (repeat' (first | (simp; done) | split))
@[simp] theorem State.scrub_set (b row : Nat) (single : Bool) (s : State) : (State.scrub b row single s).settings = s.settings := by
  unfold State.scrub
  first | (simp; done) | rfl | (repeat' (first | (simp; done) | split))
@[simp] theorem State.loseMerge_set (item : Nat) (s : State) : (State.loseMerge item s).settings = s.settings := by
  unfold State.loseMerge
  first | (simp; done) | rfl | (repeat' (first | (simp; done) | split))
@[simp] theorem State.loseCtx_set (p c : Nat) (s : State) : (State.loseCtx p c s).settings = s.settings := by
  unfold State.loseCtx
  first | (simp; done) | rfl | (repeat' (first | (simp; done) | split))
@[simp] theorem State.doubleBit_set (b row item : Nat) (s : State) : (State.doubleBit b row item s).settings = s.settings := by
  unfold State.doubleBit
  first | (simp; done) | rfl | (repeat' (first | (simp; done) | split))
@[simp] theorem State.ringError_set (p : PortId) (r kind : Nat) (s : State) : (State.ringError p r kind s).settings = s.settings := by
  unfold State.ringError
  first | (simp; done) | rfl | (repeat' (first | (simp; done) | split))
@[simp] theorem State.rejoin_set (p : PortId) (r : Nat) (s : State) : (State.rejoin p r s).settings = s.settings := by
  unfold State.rejoin
  first | (simp; done) | rfl | (repeat' (first | (simp; done) | split))
@[simp] theorem State.ringEnable_set (p : PortId) (r : Nat) (w : Word) (s : State) : (State.ringEnable p r w s).settings = s.settings := by
  unfold State.ringEnable
  first | (simp; done) | rfl | (repeat' (first | (simp; done) | split))
@[simp] theorem State.ringDisable_set (p : PortId) (r : Nat) (w : Word) (s : State) : (State.ringDisable p r w s).settings = s.settings := by
  unfold State.ringDisable
  first | (simp; done) | rfl | (repeat' (first | (simp; done) | split))
@[simp] theorem State.pumpAll_set (s : State) : (State.pumpAll s).settings = s.settings := by
  unfold State.pumpAll
  first | (simp; done) | rfl | (repeat' (first | (simp; done) | split))
@[simp] theorem State.setLive_set (p : PortId) (s : State) : (State.setLive p s).settings = s.settings := by
  unfold State.setLive
  first | (simp; done) | rfl | (repeat' (first | (simp; done) | split))
@[simp] theorem State.portCtrl_set (p : PortId) (w : Word) (s : State) : (State.portCtrl p w s).settings = s.settings := by
  unfold State.portCtrl
  first | (simp; done) | rfl | (repeat' (first | (simp; done) | split))
@[simp] theorem State.portLive_set (p : PortId) (linkUp busMaster : Bool) (speed width : Nat) (l1 : Bool) (s : State) : (State.portLive p linkUp busMaster speed width l1 s).settings = s.settings := by
  unfold State.portLive
  first | (simp; done) | rfl | (repeat' (first | (simp; done) | split))
@[simp] theorem State.resetPort_set (p : PortId) (s : State) : (State.resetPort p s).settings = s.settings := by
  unfold State.resetPort
  first | (simp; done) | rfl | (repeat' (first | (simp; done) | split))
@[simp] theorem State.takeProd_set (p : PortId) (r v : Nat) (s : State) : (State.takeProd p r v s).settings = s.settings := by
  unfold State.takeProd
  first | (simp; done) | rfl | (repeat' (first | (simp; done) | split))
@[simp] theorem State.poll_set (p : PortId) (prods : List Nat) (fails : Bool) (s : State) : (State.poll p prods fails s).settings = s.settings := by
  unfold State.poll
  first | (simp; done) | rfl | (repeat' (first | (simp; done) | split))
@[simp] theorem State.bar2Write_set (p : PortId) (offset : Nat) (w : Word) (s : State) : (State.bar2Write p offset w s).settings = s.settings := by
  unfold State.bar2Write
  first | (simp; done) | rfl | (repeat' (first | (simp; done) | split))
@[simp] theorem State.message_set (p : PortId) (r : Nat) (s : State) : (State.message p r s).settings = s.settings := by
  unfold State.message
  first | (simp; done) | rfl | (repeat' (first | (simp; done) | split))
@[simp] theorem State.fetch_set (p : PortId) (r : Nat) (d : Desc) (s : State) : (State.fetch p r d s).settings = s.settings := by
  unfold State.fetch
  dsimp only
  split
  · rfl
  · split
    · exact (State.reply_set _ _ _ _).trans <| (State.begun_set _ _).trans <| (State.rouse_set _ _).trans (State.modPort_set _ _ _)
    · split
      · exact (State.reply_set _ _ _ _).trans <| (State.begun_set _ _).trans <| (State.rouse_set _ _).trans (State.modPort_set _ _ _)
      · exact (State.rouse_set _ _).trans (State.modPort_set _ _ _)
@[simp] theorem State.taken_set (h : Hdr) (op : Nat) (s : State) : (State.taken h op s).settings = s.settings := by
  unfold State.taken
  first | (simp; done) | rfl | (repeat' (first | (simp; done) | split))
@[simp] theorem State.cmdMargin_set (h : Hdr) (op : Nat) (s : State) : (State.cmdMargin h op s).settings = s.settings := by
  unfold State.cmdMargin
  first | (simp; done) | rfl | (repeat' (first | (simp; done) | split))
@[simp] theorem State.begin__set (h : Hdr) (op : Nat) (c : Cmd) (act : State → State × Option Reply) (s : State) (h_act : ∀ s, (act s).1.settings = s.settings) : (State.begin_ h op c act s).settings = s.settings := by
  unfold State.begin_
  (try simp [h_act])
  repeat' (first | done | (simp [h_act]; done) | split | intro _ | (simp [h_act]; split))
@[simp] theorem State.runCmd_set (h : Hdr) (op : Nat) (c : Cmd) (act : State → State × Option Reply) (s : State) (h_act : ∀ s, (act s).1.settings = s.settings) : (State.runCmd h op c act s).settings = s.settings := by
  unfold State.runCmd
  (try simp [h_act])
  repeat' (first | done | (simp [h_act]; done) | split | intro _ | (simp [h_act]; split))
@[simp] theorem State.waitPast_set (p : PortId) (r n : Nat) (s : State) : (State.waitPast p r n s).settings = s.settings := by
  unfold State.waitPast
  first | (simp; done) | rfl | (repeat' (first | (simp; done) | split))
@[simp] theorem State.grant_set (o : Own) (p : PortId) (cls first count cause : Nat) (f : Option PortId → Bool) (v : Option PortId) (s : State) : (State.grant o p cls first count cause f v s).settings = s.settings := by
  unfold State.grant
  first | (simp; done) | rfl | (repeat' (first | (simp; done) | split))
@[simp] theorem State.denied_set (p : PortId) (cls first count : Nat) (s : State) : (State.denied p cls first count s).settings = s.settings := by
  unfold State.denied
  first | (simp; done) | rfl | (repeat' (first | (simp; done) | split))
@[simp] theorem State.claimIn_set (o : Own) (p : PortId) (cls first count : Nat) (s : State) : (State.claimIn o p cls first count s).1.settings = s.settings := by
  unfold State.claimIn
  (try simp)
  repeat' (first | done | (simp; done) | split | intro _ | (simp; split))
@[simp] theorem State.releaseIn_set (o : Own) (p : PortId) (cls first count : Nat) (s : State) : (State.releaseIn o p cls first count s).1.settings = s.settings := by
  unfold State.releaseIn
  first | (simp; done) | rfl | (repeat' (first | (simp; done) | split))
@[simp] theorem State.handoverIn_set (o : Own) (p : PortId) (cls first count : Nat) (s : State) : (State.handoverIn o p cls first count s).1.settings = s.settings := by
  unfold State.handoverIn
  (try simp)
  repeat' (first | done | (simp; done) | split | intro _ | (simp; split))
@[simp] theorem State.takeoverIn_set (o : Own) (p : PortId) (cls first count : Nat) (s : State) : (State.takeoverIn o p cls first count s).1.settings = s.settings := by
  unfold State.takeoverIn
  (try simp)
  repeat' (first | done | (simp; done) | split | intro _ | (simp; split))
@[simp] theorem State.ownRow_set (c : Instr) (s : State) : (State.ownRow c s).settings = s.settings := by
  unfold State.ownRow
  first | (simp; done) | rfl | (repeat' (first | (simp; done) | split))
@[simp] theorem State.claim_set (p : PortId) (cls first count : Nat) (s : State) : (State.claim p cls first count s).1.settings = s.settings := by
  unfold State.claim
  (try simp)
  repeat' (first | done | (simp; done) | split | intro _ | (simp; split))
@[simp] theorem State.releaseOwn_set (p : PortId) (cls first count : Nat) (s : State) : (State.releaseOwn p cls first count s).1.settings = s.settings := by
  unfold State.releaseOwn
  first | (simp; done) | rfl | (repeat' (first | (simp; done) | split))
@[simp] theorem State.handover_set (p : PortId) (cls first count : Nat) (s : State) : (State.handover p cls first count s).1.settings = s.settings := by
  unfold State.handover
  (try simp)
  repeat' (first | done | (simp; done) | split | intro _ | (simp; split))
@[simp] theorem State.takeover_set (p : PortId) (cls first count : Nat) (s : State) : (State.takeover p cls first count s).1.settings = s.settings := by
  unfold State.takeover
  first | (simp; done) | rfl | (repeat' (first | (simp; done) | split))
@[simp] theorem State.lockRow_set (c : Instr) (s : State) : (State.lockRow c s).settings = s.settings := by
  unfold State.lockRow
  first | (simp; done) | rfl | (repeat' (first | (simp; done) | split))
@[simp] theorem State.lockCmd_set (p : PortId) (unlock : Bool) (key : Nat) (s : State) : (State.lockCmd p unlock key s).1.settings = s.settings := by
  unfold State.lockCmd
  first | (simp; done) | rfl | (repeat' (first | (simp; done) | split))
@[simp] theorem State.ackOne_set (k i : Nat) (s : State) : (State.ackOne k i s).settings = s.settings := by
  unfold State.ackOne
  first | (simp; done) | rfl | (repeat' (first | (simp; done) | split))
@[simp] theorem State.endOrphans_set (t : Nat) (s : State) : (State.endOrphans t s).settings = s.settings := by
  unfold State.endOrphans
  first | (simp; done) | rfl | (repeat' (first | (simp; done) | split))
@[simp] theorem State.ackBlk_set (k mask : Nat) (s : State) : (State.ackBlk k mask s).1.settings = s.settings := by
  unfold State.ackBlk
  first | (simp; done) | rfl | (repeat' (first | (simp; done) | split))
@[simp] theorem State.presentEnd_set (k i : Nat) (s : State) : (State.presentEnd k i s).settings = s.settings := by
  unfold State.presentEnd
  first | (simp; done) | rfl | (repeat' (first | (simp; done) | split))
@[simp] theorem State.logRead_set (h : Hdr) (log count addr start : Nat) (s : State) : (State.logRead h log count addr start s).1.settings = s.settings := by
  unfold State.logRead
  first | (simp; done) | rfl | (repeat' (first | (simp; done) | split))
@[simp] theorem State.windowEnd_set (s : State) : (State.windowEnd s).settings = s.settings := by
  unfold State.windowEnd
  first | (simp; done) | rfl | (repeat' (first | (simp; done) | split))
@[simp] theorem State.mirrorWrite_set (fails : Bool) (s : State) : (State.mirrorWrite fails s).settings = s.settings := by
  unfold State.mirrorWrite
  first | (simp; done) | rfl | (repeat' (first | (simp; done) | split))
@[simp] theorem State.selfchk_set (k diff : Nat) (s : State) : (State.selfchk k diff s).settings = s.settings := by
  unfold State.selfchk
  first | (simp; done) | rfl | (repeat' (first | (simp; done) | split))
@[simp] theorem State.fsafeFall_set (s : State) : (State.fsafeFall s).settings = s.settings := by
  unfold State.fsafeFall
  first | (simp; done) | rfl | (repeat' (first | (simp; done) | split))
@[simp] theorem State.fsafeRise_set (s : State) : (State.fsafeRise s).settings = s.settings := by
  unfold State.fsafeRise
  first | (simp; done) | rfl | (repeat' (first | (simp; done) | split))
@[simp] theorem State.gateServe_set (s : State) : (State.gateServe s).settings = s.settings := by
  unfold State.gateServe
  first | (simp; done) | rfl | (repeat' (first | (simp; done) | split))
@[simp] theorem State.gateMiss_set (s : State) : (State.gateMiss s).settings = s.settings := by
  unfold State.gateMiss
  first | (simp; done) | rfl | (repeat' (first | (simp; done) | split))
@[simp] theorem State.aliveEdge_set (s : State) : (State.aliveEdge s).settings = s.settings := by
  unfold State.aliveEdge
  first | (simp; done) | rfl | (repeat' (first | (simp; done) | split))
@[simp] theorem State.hubTemp_set (tj : Int) (s : State) : (State.hubTemp tj s).settings = s.settings := by
  unfold State.hubTemp
  first | (simp; done) | rfl | (repeat' (first | (simp; done) | split))
@[simp] theorem State.railSample_set (rail : Nat) (mv : Int) (s : State) : (State.railSample rail mv s).settings = s.settings := by
  unfold State.railSample
  first | (simp; done) | rfl | (repeat' (first | (simp; done) | split))
@[simp] theorem State.queueFrame_set (h : Hdr) (r : FrameRec) (resAddr : Nat) (fails : Bool) (s : State) : (State.queueFrame h r resAddr fails s).1.settings = s.settings := by
  unfold State.queueFrame
  first | (simp; done) | rfl | (repeat' (first | (simp; done) | split))
@[simp] theorem State.dropFrame_set (n : Nat) (f : Frame) (r : Reply) (s : State) : (State.dropFrame n f r s).settings = s.settings := by
  unfold State.dropFrame
  first | (simp; done) | rfl | (repeat' (first | (simp; done) | split))
@[simp] theorem State.startFrame_set (n : Nat) (s : State) : (State.startFrame n s).settings = s.settings := by
  unfold State.startFrame
  (try simp)
  repeat' (first | done | (simp; done) | split | intro _ | (simp; split))
@[simp] theorem State.endFrame_set (n : Nat) (ws : List Word) (edges : Nat) (s : State) : (State.endFrame n ws edges s).settings = s.settings := by
  unfold State.endFrame
  first | (simp; done) | rfl | (repeat' (first | (simp; done) | split))
@[simp] theorem State.abortFrames_set (n : Nat) (s : State) : (State.abortFrames n s).1.settings = s.settings := by
  unfold State.abortFrames
  first | (simp; done) | rfl | (repeat' (first | (simp; done) | split))
@[simp] theorem State.strayEdge_set (n : Nat) (s : State) : (State.strayEdge n s).settings = s.settings := by
  unfold State.strayEdge
  first | (simp; done) | rfl | (repeat' (first | (simp; done) | split))
@[simp] theorem State.latchNow_set (p : PortId) (s : State) : (State.latchNow p s).settings = s.settings := by
  unfold State.latchNow
  first | (simp; done) | rfl | (repeat' (first | (simp; done) | split))
@[simp] theorem State.trimWrite_set (t c reg : Nat) (w : Word) (s : State) : (State.trimWrite t c reg w s).1.settings = s.settings := by
  unfold State.trimWrite
  first | (simp; done) | rfl | (repeat' (first | (simp; done) | split))
@[simp] theorem State.seqAdm_set (t n adm : Nat) (s : State) : (State.seqAdm t n adm s).1.settings = s.settings := by
  unfold State.seqAdm
  first | (simp; done) | rfl | (repeat' (first | (simp; done) | split))
@[simp] theorem State.vitSel_set (p : PortId) (t : Nat) (w : Word) (s : State) : (State.vitSel p t w s).settings = s.settings := by
  unfold State.vitSel
  first | (simp; done) | rfl | (repeat' (first | (simp; done) | split))
@[simp] theorem State.pokePort_set (q : PortId) (o : Nat) (w : Word) (s : State) : (State.pokePort q o w s).settings = s.settings := by
  unfold State.pokePort
  first | (simp; done) | rfl | (repeat' (first | (simp; done) | split))
@[simp] theorem State.pokeSp_set (n o : Nat) (w : Word) (s : State) : (State.pokeSp n o w s).settings = s.settings := by
  unfold State.pokeSp
  first | (simp; done) | rfl | (repeat' (first | (simp; done) | split))
@[simp] theorem State.countDiscard_set (p : PortId) (a : Nat) (s : State) : (State.countDiscard p a s).settings = s.settings := by
  unfold State.countDiscard
  first | (simp; done) | rfl | (repeat' (first | (simp; done) | split))
@[simp] theorem State.catRead_set (h : Hdr) (start count addr : Nat) (s : State) : (State.catRead h start count addr s).1.settings = s.settings := by
  unfold State.catRead
  first | (simp; done) | rfl | (repeat' (first | (simp; done) | split))
@[simp] theorem State.modRec_set (b : Nat) (f : BankRec → BankRec) (s : State) : (State.modRec b f s).settings = s.settings := by
  unfold State.modRec
  first | (simp; done) | rfl | (repeat' (first | (simp; done) | split))
@[simp] theorem State.storeFail_set (s : State) : (State.storeFail s).settings = s.settings := by
  unfold State.storeFail
  first | (simp; done) | rfl | (repeat' (first | (simp; done) | split))
@[simp] theorem State.openSession_set (p : PortId) (s : State) : (State.openSession p s).settings = s.settings := by
  unfold State.openSession
  first | (simp; done) | rfl | (repeat' (first | (simp; done) | split))
@[simp] theorem State.verifiedRec_set (s : State) : (State.verifiedRec s).settings = s.settings := by
  unfold State.verifiedRec
  first | (simp; done) | rfl | (repeat' (first | (simp; done) | split))
@[simp] theorem State.imageErase_set (h : Hdr) (s : State) : (State.imageErase h s).1.settings = s.settings := by
  unfold State.imageErase
  first | (simp; done) | rfl | (repeat' (first | (simp; done) | split))
@[simp] theorem State.sessionEnd_set (s : State) : (State.sessionEnd s).settings = s.settings := by
  unfold State.sessionEnd
  first | (simp; done) | rfl | (repeat' (first | (simp; done) | split))
@[simp] theorem State.saveSettings_set (b : Nat) (s : State) : (State.saveSettings b s).settings = s.settings := by
  unfold State.saveSettings
  first | (simp; done) | rfl | (repeat' (first | (simp; done) | split))
@[simp] theorem State.settingsSave_set (h : Hdr) (s : State) : (State.settingsSave h s).1.settings = s.settings := by
  unfold State.settingsSave
  first | (simp; done) | rfl | (repeat' (first | (simp; done) | split))
@[simp] theorem State.trimSave_set (s : State) : (State.trimSave s).settings = s.settings := by
  unfold State.trimSave
  first | (simp; done) | rfl | (repeat' (first | (simp; done) | split))
@[simp] theorem State.loadDepot_set (b : Nat) (s : State) : (State.loadDepot b s).settings = s.settings := by
  unfold State.loadDepot
  first | (simp; done) | rfl | (repeat' (first | (simp; done) | split))
@[simp] theorem State.activateLive_set (h : Hdr) (secs : Nat) (s : State) : (State.activateLive h secs s).1.settings = s.settings := by
  unfold State.activateLive
  first | (simp; done) | rfl | (repeat' (first | (simp; done) | split))
@[simp] theorem State.dropActivation_set (b st : Nat) (s : State) : (State.dropActivation b st s).settings = s.settings := by
  unfold State.dropActivation
  first | (simp; done) | rfl | (repeat' (first | (simp; done) | split))
@[simp] theorem State.endRevert_set (s : State) : (State.endRevert s).settings = s.settings := by
  unfold State.endRevert
  first | (simp; done) | rfl | (repeat' (first | (simp; done) | split))
@[simp] theorem State.enterTrial_set (s : State) : (State.enterTrial s).settings = s.settings := by
  unfold State.enterTrial
  first | (simp; done) | rfl | (repeat' (first | (simp; done) | split))
@[simp] theorem State.chain_set (s : State) : (State.chain s).settings = s.settings := by
  unfold State.chain
  (try simp)
  repeat' (first | done | (simp; done) | split | intro _ | (simp; split))
@[simp] theorem State.countRotated_set (s : State) : (State.countRotated s).settings = s.settings := by
  unfold State.countRotated
  first | (simp; done) | rfl | (repeat' (first | (simp; done) | split))
@[simp] theorem State.svSwitch_set (ok : Bool) (s : State) : (State.svSwitch ok s).settings = s.settings := by
  unfold State.svSwitch
  first | (simp; done) | rfl | (repeat' (first | (simp; done) | split))
@[simp] theorem State.revertLive_set (cause : Nat) (h : Option Hdr) (s : State) : (State.revertLive cause h s).settings = s.settings := by
  unfold State.revertLive
  first | (simp; done) | rfl | (repeat' (first | (simp; done) | split))
@[simp] theorem State.confirm_set (fails : Bool) (s : State) : (State.confirm fails s).1.settings = s.settings := by
  unfold State.confirm
  first | (simp; done) | rfl | (repeat' (first | (simp; done) | split))
@[simp] theorem State.loseVka_set (s : State) : (State.loseVka s).settings = s.settings := by
  unfold State.loseVka
  first | (simp; done) | rfl | (repeat' (first | (simp; done) | split))
@[simp] theorem State.wake_set (s : State) : (State.wake s).settings = s.settings := by
  unfold State.wake
  first | (simp; done) | rfl | (repeat' (first | (simp; done) | split))
@[simp] theorem State.enterRecovery_set (s : State) : (State.enterRecovery s).settings = s.settings := by
  unfold State.enterRecovery
  first | (simp; done) | rfl | (repeat' (first | (simp; done) | split))
@[simp] theorem State.boot_set (b : Nat) (trial : Bool) (s : State) : (State.boot b trial s).settings = s.settings := by
  unfold State.boot
  first | (simp; done) | rfl | (repeat' (first | (simp; done) | split))
@[simp] theorem State.endTrials_set (s : State) : (State.endTrials s).settings = s.settings := by
  unfold State.endTrials
  first | (simp; done) | rfl | (repeat' (first | (simp; done) | split))
@[simp] theorem State.atP_set (s : State) : (State.atP s).settings = s.settings := by
  unfold State.atP
  first | (simp; done) | rfl | (repeat' (first | (simp; done) | split))
@[simp] theorem State.takeVio_set (mv : Nat) (s : State) : (State.takeVio mv s).settings = s.settings := by
  unfold State.takeVio
  first | (simp; done) | rfl | (repeat' (first | (simp; done) | split))
@[simp] theorem State.lowFsafe_set (s : State) : (State.lowFsafe s).settings = s.settings := by
  unfold State.lowFsafe
  first | (simp; done) | rfl | (repeat' (first | (simp; done) | split))
@[simp] theorem State.tilePower_set (t : Nat) (s : State) : (State.tilePower t s).settings = s.settings := by
  unfold State.tilePower
  first | (simp; done) | rfl | (repeat' (first | (simp; done) | split))
@[simp] theorem State.countRefused_set (s : State) : (State.countRefused s).settings = s.settings := by
  unfold State.countRefused
  first | (simp; done) | rfl | (repeat' (first | (simp; done) | split))
@[simp] theorem State.blockReset_set (k i : Nat) (s : State) : (State.blockReset k i s).settings = s.settings := by
  unfold State.blockReset
  first | (simp; done) | rfl | (repeat' (first | (simp; done) | split))
@[simp] theorem State.sendAction_set (h : Hdr) (kind value commit op : Nat) (s : State) : (State.sendAction h kind value commit op s).settings = s.settings := by
  unfold State.sendAction
  first | (simp; done) | rfl | (repeat' (first | (simp; done) | split))
@[simp] theorem State.outSet_set (h : Hdr) (commit value : Nat) (s : State) : (State.outSet h commit value s).1.settings = s.settings := by
  unfold State.outSet
  first | (simp; done) | rfl | (repeat' (first | (simp; done) | split))
@[simp] theorem State.mirForce_set (h : Hdr) (commit value : Nat) (s : State) : (State.mirForce h commit value s).1.settings = s.settings := by
  unfold State.mirForce
  first | (simp; done) | rfl | (repeat' (first | (simp; done) | split))
@[simp] theorem State.trimSet_set (g : Nat) (ofs : Int) (gain : Nat) (s : State) : (State.trimSet g ofs gain s).1.settings = s.settings := by
  unfold State.trimSet
  first | (simp; done) | rfl | (repeat' (first | (simp; done) | split))
@[simp] theorem State.trimWait_set (h : Hdr) (span : Bool) (ref : Int) (s : State) : (State.trimWait h span ref s).1.settings = s.settings := by
  unfold State.trimWait
  first | (simp; done) | rfl | (repeat' (first | (simp; done) | split))
@[simp] theorem State.triggerCmd_set (h : Hdr) (tick : Nat) (s : State) : (State.triggerCmd h tick s).1.settings = s.settings := by
  unfold State.triggerCmd
  first | (simp; done) | rfl | (repeat' (first | (simp; done) | split))
@[simp] theorem State.injectCmd_set (h : Hdr) (slot : Word) (s : State) : (State.injectCmd h slot s).1.settings = s.settings := by
  unfold State.injectCmd
  first | (simp; done) | rfl | (repeat' (first | (simp; done) | split))
@[simp] theorem State.calibrateCmd_set (h : Hdr) (s : State) : (State.calibrateCmd h s).1.settings = s.settings := by
  unfold State.calibrateCmd
  first | (simp; done) | rfl | (repeat' (first | (simp; done) | split))
@[simp] theorem State.calibrateExcl_set (h : Hdr) (conv : Nat) (s : State) : (State.calibrateExcl h conv s).1.settings = s.settings := by
  unfold State.calibrateExcl
  first | (simp; done) | rfl | (repeat' (first | (simp; done) | split))
@[simp] theorem State.rotateCmd_set (h : Hdr) (newImg : Bool) (s : State) : (State.rotateCmd h newImg s).1.settings = s.settings := by
  unfold State.rotateCmd
  first | (simp; done) | rfl | (repeat' (first | (simp; done) | split))
theorem State.streamFull_set (p c : Nat) (port : PortId) (s t : State) (h : s.streamFull p c port = some t) :
    t.settings = s.settings := by
  unfold State.streamFull at h
  dsimp only at h
  split at h
  · cases h; simp
  · split at h
    · cases h; simp
    · split at h
      · cases h; simp
      · cases h
@[simp] theorem State.streamStart_set (h : Hdr) (ring : Nat) (s : State) : (State.streamStart h ring s).1.settings = s.settings := by
  unfold State.streamStart
  dsimp only
  split
  · rfl
  · split
    · rfl
    · split
      · rfl
      · split
        · rename_i u hu
          exact State.streamFull_set _ _ _ _ _ hu
        · simp
@[simp] theorem State.streamStop_set (h : Hdr) (s : State) : (State.streamStop h s).1.settings = s.settings := by
  unfold State.streamStop
  first | (simp; done) | rfl | (repeat' (first | (simp; done) | split))
@[simp] theorem State.streamSource_set (h : Hdr) (n : Nat) (s : State) : (State.streamSource h n s).1.settings = s.settings := by
  unfold State.streamSource
  (try simp)
  repeat' (first | done | (simp; done) | split | intro _ | (simp; split))
@[simp] theorem State.bankLoad_set (arg : Nat) (image : List Int) (s : State) : (State.bankLoad arg image s).1.settings = s.settings := by
  unfold State.bankLoad
  first | (simp; done) | rfl | (repeat' (first | (simp; done) | split))
@[simp] theorem State.bankSelect_set (h : Hdr) (bank f : Nat) (s : State) : (State.bankSelect h bank f s).1.settings = s.settings := by
  unfold State.bankSelect
  first | (simp; done) | rfl | (repeat' (first | (simp; done) | split))
@[simp] theorem State.liveCmd_set (h : Hdr) (dflt : Bool) (secs : Nat) (s : State) : (State.liveCmd h dflt secs s).1.settings = s.settings := by
  unfold State.liveCmd
  first | (simp; done) | rfl | (repeat' (first | (simp; done) | split))
@[simp] theorem State.fsafePin_set (level : Bool) (s : State) : (State.fsafePin level s).settings = s.settings := by
  unfold State.fsafePin
  first | (simp; done) | rfl | (repeat' (first | (simp; done) | split))
@[simp] theorem State.captureOver_set (t c : Nat) (s : State) : (State.captureOver t c s).settings = s.settings := by
  unfold State.captureOver
  first | (simp; done) | rfl | (repeat' (first | (simp; done) | split))
@[simp] theorem State.actionCame_set (p : PortId) (ring cnt : Nat) (s : State) : (State.actionCame p ring cnt s).settings = s.settings := by
  unfold State.actionCame
  first | (simp; done) | rfl | (repeat' (first | (simp; done) | split))
@[simp] theorem State.timerTrigger_set (t n : Nat) (s : State) : (State.timerTrigger t n s).settings = s.settings := by
  unfold State.timerTrigger
  first | (simp; done) | rfl | (repeat' (first | (simp; done) | split))
@[simp] theorem State.heldTrigger_set (t n : Nat) (s : State) : (State.heldTrigger t n s).settings = s.settings := by
  unfold State.heldTrigger
  (try simp)
  repeat' (first | done | (simp; done) | split | intro _ | (simp; split))
@[simp] theorem State.speculate_set (t n : Nat) (s : State) : (State.speculate t n s).settings = s.settings := by
  unfold State.speculate
  (try simp)
  repeat' (first | done | (simp; done) | split | intro _ | (simp; split))
@[simp] theorem State.specOver_set (t n : Nat) (s : State) : (State.specOver t n s).settings = s.settings := by
  unfold State.specOver
  (try simp)
  repeat' (first | done | (simp; done) | split | intro _ | (simp; split))
@[simp] theorem State.startSlot_set (t n : Nat) (s : State) : (State.startSlot t n s).settings = s.settings := by
  unfold State.startSlot
  (try simp)
  repeat' (first | done | (simp; done) | split | intro _ | (simp; split))
@[simp] theorem State.reattempt_set (t v : Nat) (s : State) : (State.reattempt t v s).settings = s.settings := by
  unfold State.reattempt
  first | (simp; done) | rfl | (repeat' (first | (simp; done) | split))
@[simp] theorem State.injMissed_set (t : Nat) (e : Inj) (s : State) : (State.injMissed t e s).settings = s.settings := by
  unfold State.injMissed
  first | (simp; done) | rfl | (repeat' (first | (simp; done) | split))
@[simp] theorem State.startInj_set (t v : Nat) (s : State) : (State.startInj t v s).settings = s.settings := by
  unfold State.startInj
  first | (simp; done) | rfl | (repeat' (first | (simp; done) | split))
@[simp] theorem State.injPast_set (t : Nat) (p : PortId) (ring cnt : Nat) (s : State) : (State.injPast t p ring cnt s).settings = s.settings := by
  unfold State.injPast
  first | (simp; done) | rfl | (repeat' (first | (simp; done) | split))
@[simp] theorem State.calDue_set (t : Nat) (s : State) : (State.calDue t s).settings = s.settings := by
  unfold State.calDue
  (try simp)
  repeat' (first | done | (simp; done) | split | intro _ | (simp; split))
@[simp] theorem State.refSettled_set (t : Nat) (dev : Int) (s : State) : (State.refSettled t dev s).settings = s.settings := by
  unfold State.refSettled
  first | (simp; done) | rfl | (repeat' (first | (simp; done) | split))
@[simp] theorem State.lineToHub_set (l : Nat) (s : State) : (State.lineToHub l s).settings = s.settings := by
  unfold State.lineToHub
  (try simp)
  repeat' (first | done | (simp; done) | split | intro _ | (simp; split))
@[simp] theorem State.lineToTile_set (t l : Nat) (s : State) : (State.lineToTile t l s).settings = s.settings := by
  unfold State.lineToTile
  (try simp)
  repeat' (first | done | (simp; done) | split | intro _ | (simp; split))
@[simp] theorem State.mergeTakes_set (src : Nat) (s : State) : (State.mergeTakes src s).settings = s.settings := by
  unfold State.mergeTakes
  first | (simp; done) | rfl | (repeat' (first | (simp; done) | split))
@[simp] theorem State.horizonOver_set (s : State) : (State.horizonOver s).settings = s.settings := by
  unfold State.horizonOver
  first | (simp; done) | rfl | (repeat' (first | (simp; done) | split))
@[simp] theorem State.pipeTakes_set (p : Nat) (s : State) : (State.pipeTakes p s).settings = s.settings := by
  unfold State.pipeTakes
  first | (simp; done) | rfl | (repeat' (first | (simp; done) | split))
@[simp] theorem State.blockOver_set (p c : Nat) (s : State) : (State.blockOver p c s).settings = s.settings := by
  unfold State.blockOver
  first | (simp; done) | rfl | (repeat' (first | (simp; done) | split))
@[simp] theorem State.deliveryPast_set (p c : Nat) (s : State) : (State.deliveryPast p c s).settings = s.settings := by
  unfold State.deliveryPast
  first | (simp; done) | rfl | (repeat' (first | (simp; done) | split))
theorem runDue_set (ds : List DueAt) (h : ∀ d ∈ ds, ∀ s, (d.2 s).settings = s.settings) (s : State) :
    (runDue ds s).settings = s.settings :=
  runDue_keeps (fun u => u.settings = s.settings) ds (fun d hd u hu => (h d hd u).trans hu) s rfl
@[simp] theorem State.ifOnline_set (t : Nat) (f : State → State) (s : State) (h_f : ∀ s, (f s).settings = s.settings) : (State.ifOnline t f s).settings = s.settings := by
  unfold State.ifOnline
  first | (simp [h_f]; done) | rfl | (repeat' (first | (simp [h_f]; done) | split))
@[simp] theorem State.timerRest_set (t n : Nat) (hi : Tick) (s : State) : (State.timerRest t n hi s).settings = s.settings := by
  unfold State.timerRest
  first | (simp; done) | rfl | (repeat' (first | (simp; done) | split))
@[simp] theorem State.stepTo_set (x : Tick) (s : State) : (State.stepTo x s).settings = s.settings := by
  have h (b u v : State) : (runDue (State.skipped b u) v).settings = v.settings :=
    runDue_set _ (skipped_all (fun f => ∀ s, (f s).settings = s.settings)
      (fun t f hf s => by unfold State.ifOnline; split <;> simp [hf]) (fun t f hf s => by dsimp only; split <;> simp [hf])
      (by simp) (by simp) (by simp) (by simp) (by simp) (by simp) (by simp) (by simp) (by simp) (by simp) b u) v
  unfold State.stepTo
  refine (forAll_set _ (fun t s => forAll_set _ (fun n s => ?_) _ _) _ _).trans
    ((h _ _ _).trans (forAll_set _ (fun t z => by simp) _ _))
  unfold State.ifOnline
  split <;> simp
@[simp] theorem State.syncEdge_set (s : State) : (State.syncEdge s).settings = s.settings := by
  unfold State.syncEdge
  first | (simp; done) | rfl | (repeat' (first | (simp; done) | split))
@[simp] theorem State.syncLead_set (s : State) : (State.syncLead s).settings = s.settings := by
  unfold State.syncLead
  first | (simp; done) | rfl | (repeat' (first | (simp; done) | split))
@[simp] theorem State.syncLost_set (s : State) : (State.syncLost s).settings = s.settings := by
  unfold State.syncLost
  first | (simp; done) | rfl | (repeat' (first | (simp; done) | split))
@[simp] theorem State.handOver_set (s : State) : (State.handOver s).settings = s.settings := by
  unfold State.handOver
  first | (simp; done) | rfl | (repeat' (first | (simp; done) | split))
@[simp] theorem State.storePut_set (a : Nat) (bs : List Byte) (s : State) : (State.storePut a bs s).settings = s.settings := id rfl
@[simp] theorem State.checkDelta_set (s : State) : (State.checkDelta s).1.settings = s.settings := by
  rcases State.checkDelta_cases s with e | ⟨a, bs, b, f, e⟩ <;> rw [e]
  rw [State.storePut_set, State.modRec_set]
@[simp] theorem State.imageWrite_set (h : Hdr) (kiln : Bool) (offset len : Nat) (bytes : List Byte) (fails : Bool) (s : State) :
    (State.imageWrite h kiln offset len bytes fails s).1.settings = s.settings := by
  have ho : (s.openSession h.port).settings = s.settings := by simp
  unfold State.imageWrite
  dsimp only
  split
  · rfl
  · split
    · rw [State.storeFail_set]
      split
      · exact ho
      · rw [State.modRec_set]; exact ho
    · rw [State.storePut_set]
      split
      · exact ho
      · rw [State.modRec_set]; exact ho
@[simp] theorem State.imageVerify_set (h : Hdr) (kiln fails : Bool) (s : State) :
    (State.imageVerify h kiln fails s).1.settings = s.settings := by
  have ho : (s.openSession h.port).settings = s.settings := by simp
  unfold State.imageVerify
  dsimp only
  split
  · rfl
  · split
    · simp
    · cases kiln with
      | true =>
        have hd := (State.checkDelta_set (s.openSession h.port)).trans ho
        simp only [if_true]
        generalize hu : (State.checkDelta (s.openSession h.port)) = u at hd
        obtain ⟨u, c⟩ := u
        dsimp only at hd
        split
        · simpa using hd
        · simpa using hd
      | false =>
        simp only [Bool.false_eq_true, if_false]
        generalize s.openSession h.port = u at ho
        split
        · simpa using ho
        · simpa using ho

end Sys2Proof.Machine
end

