-- ==== Sys2Proof/Laws/State.lean ====
section
/-!
SUPPORT. The state under its smallest updates: which fields each leaves as they are, and what the element it names becomes.
-/
namespace Sys2Proof

/-! ## Lists -/

@[simp] theorem updAt_length {α : Type} (f : α → α) (i : Nat) (xs : List α) : (updAt f i xs).length = xs.length := by
  induction xs generalizing i with
  | nil => simp [updAt]
  | cons x xs ih => cases i <;> simp [updAt, ih]

@[simp] theorem mapFrom_length {α β : Type} (f : Nat → α → β) (k : Nat) (xs : List α) :
    (mapFrom f k xs).length = xs.length := by
  induction xs generalizing k with
  | nil => rfl
  | cons x xs ih => simp [mapFrom, ih]

theorem updAt_getD {α : Type} (f : α → α) (i j : Nat) (xs : List α) (d : α) :
    (updAt f i xs).getD j d = if j = i ∧ i < xs.length then f (xs.getD i d) else xs.getD j d := by
  induction xs generalizing i j with
  | nil => simp [updAt]
  | cons x xs ih =>
    cases i <;> cases j <;> simp only [updAt, List.getD_cons_zero, List.getD_cons_succ, ih] <;> simp

theorem mapFrom_getD {α β : Type} (f : Nat → α → β) (k i : Nat) (xs : List α) (d : α) (e : β) :
    (mapFrom f k xs).getD i e = if i < xs.length then f (k + i) (xs.getD i d) else e := by
  induction xs generalizing k i with
  | nil => simp [mapFrom]
  | cons x xs ih =>
    cases i with
    | zero => simp [mapFrom]
    | succ i =>
      simp only [mapFrom, List.getD_cons_succ, ih, List.length_cons]
      simp [Nat.add_comm, Nat.add_left_comm]

end Sys2Proof

namespace Sys2Proof.Machine

/-! ## The element that an update names -/

theorem State.tile_modTile (t u : Nat) (f : Tile → Tile) (s : State) :
    (s.modTile t f).tile u = if u = t ∧ t < s.tiles.length then f (s.tile t) else s.tile u := updAt_getD f t u s.tiles {}

theorem State.tile_modTile_ne {t u : Nat} (f : Tile → Tile) (s : State) (h : u ≠ t) : (s.modTile t f).tile u = s.tile u := by
  simp [State.tile_modTile, h]

theorem Tile.chan_modChan (c d : Nat) (f : Chan → Chan) (T : Tile) :
    (T.modChan c f).chan d = if d = c ∧ c < T.chans.length then f (T.chan c) else T.chan d := updAt_getD f c d T.chans {}

theorem State.engine_modEngine (n m : Nat) (f : Engine → Engine) (s : State) :
    (s.modEngine n f).engine m = if m = n ∧ n < s.engines.length then f (s.engine n) else s.engine m :=
  updAt_getD f n m s.engines {}

theorem State.blk_modBlk (k j : Nat) (f : FBlk → FBlk) (s : State) :
    (s.modBlk k f).blk j = if j = k ∧ k < s.blks.length then f (s.blk k) else s.blk j := updAt_getD f k j s.blks _

theorem State.port_modPort (p q : PortId) (f : Port → Port) (s : State) :
    (s.modPort p f).port q = if q = p then f (s.port p) else s.port q := by cases p <;> cases q <;> rfl

theorem Port.ring_modRing (r q : Nat) (f : Ring → Ring) (P : Port) :
    (P.modRing r f).ring q = if q = r ∧ r < P.rings.length then f (P.ring r) else P.ring q := updAt_getD f r q P.rings {}

/-! ## What each update leaves as it is -/

@[simp] theorem State.modTile_pending (t : Nat) (f : Tile → Tile) (s : State) : (State.modTile t f s).pending = s.pending := id rfl
@[simp] theorem State.modTile_power (t : Nat) (f : Tile → Tile) (s : State) : (State.modTile t f s).power = s.power := id rfl
@[simp] theorem State.modTile_now (t : Nat) (f : Tile → Tile) (s : State) : (State.modTile t f s).now = s.now := id rfl
@[simp] theorem State.modTile_tb (t : Nat) (f : Tile → Tile) (s : State) : (State.modTile t f s).tb = s.tb := id rfl
@[simp] theorem State.modTile_lock (t : Nat) (f : Tile → Tile) (s : State) : (State.modTile t f s).lock = s.lock := id rfl
@[simp] theorem State.modTile_own (t : Nat) (f : Tile → Tile) (s : State) : (State.modTile t f s).own = s.own := id rfl
@[simp] theorem State.modTile_ha (t : Nat) (f : Tile → Tile) (s : State) : (State.modTile t f s).ha = s.ha := id rfl
@[simp] theorem State.modTile_hb (t : Nat) (f : Tile → Tile) (s : State) : (State.modTile t f s).hb = s.hb := id rfl
@[simp] theorem State.modTile_fetched (t : Nat) (f : Tile → Tile) (s : State) : (State.modTile t f s).fetched = s.fetched := id rfl
@[simp] theorem State.modTile_running (t : Nat) (f : Tile → Tile) (s : State) : (State.modTile t f s).running = s.running := id rfl
@[simp] theorem State.modTile_lastGrant (t : Nat) (f : Tile → Tile) (s : State) : (State.modTile t f s).lastGrant = s.lastGrant := id rfl
@[simp] theorem State.modTile_order (t : Nat) (f : Tile → Tile) (s : State) : (State.modTile t f s).order = s.order := id rfl
@[simp] theorem State.modTile_transit (t : Nat) (f : Tile → Tile) (s : State) : (State.modTile t f s).transit = s.transit := id rfl
@[simp] theorem State.modTile_txns (t : Nat) (f : Tile → Tile) (s : State) : (State.modTile t f s).txns = s.txns := id rfl
@[simp] theorem State.modTile_merge (t : Nat) (f : Tile → Tile) (s : State) : (State.modTile t f s).merge = s.merge := id rfl
@[simp] theorem State.modTile_arch (t : Nat) (f : Tile → Tile) (s : State) : (State.modTile t f s).arch = s.arch := id rfl
@[simp] theorem State.modTile_archKind (t : Nat) (f : Tile → Tile) (s : State) : (State.modTile t f s).archKind = s.archKind := id rfl
@[simp] theorem State.modTile_lines (t : Nat) (f : Tile → Tile) (s : State) : (State.modTile t f s).lines = s.lines := id rfl
@[simp] theorem State.modTile_engines (t : Nat) (f : Tile → Tile) (s : State) : (State.modTile t f s).engines = s.engines := id rfl
@[simp] theorem State.modTile_rot (t : Nat) (f : Tile → Tile) (s : State) : (State.modTile t f s).rot = s.rot := id rfl
@[simp] theorem State.modTile_pwr (t : Nat) (f : Tile → Tile) (s : State) : (State.modTile t f s).pwr = s.pwr := id rfl
@[simp] theorem State.modTile_scaleEn (t : Nat) (f : Tile → Tile) (s : State) : (State.modTile t f s).scaleEn = s.scaleEn := id rfl
@[simp] theorem State.modTile_pwrUpdate (t : Nat) (f : Tile → Tile) (s : State) : (State.modTile t f s).pwrUpdate = s.pwrUpdate := id rfl
@[simp] theorem State.modTile_sram (t : Nat) (f : Tile → Tile) (s : State) : (State.modTile t f s).sram = s.sram := id rfl
@[simp] theorem State.modTile_pipes (t : Nat) (f : Tile → Tile) (s : State) : (State.modTile t f s).pipes = s.pipes := id rfl
@[simp] theorem State.modTile_sps (t : Nat) (f : Tile → Tile) (s : State) : (State.modTile t f s).sps = s.sps := id rfl
@[simp] theorem State.modTile_blks (t : Nat) (f : Tile → Tile) (s : State) : (State.modTile t f s).blks = s.blks := id rfl
@[simp] theorem State.modTile_dev (t : Nat) (f : Tile → Tile) (s : State) : (State.modTile t f s).dev = s.dev := id rfl
@[simp] theorem State.modTile_upd (t : Nat) (f : Tile → Tile) (s : State) : (State.modTile t f s).upd = s.upd := id rfl
@[simp] theorem State.modTile_sup (t : Nat) (f : Tile → Tile) (s : State) : (State.modTile t f s).sup = s.sup := id rfl
@[simp] theorem State.modTile_start (t : Nat) (f : Tile → Tile) (s : State) : (State.modTile t f s).start = s.start := id rfl
@[simp] theorem State.modTile_therm (t : Nat) (f : Tile → Tile) (s : State) : (State.modTile t f s).therm = s.therm := id rfl
@[simp] theorem State.modTile_per (t : Nat) (f : Tile → Tile) (s : State) : (State.modTile t f s).per = s.per := id rfl
@[simp] theorem State.modChan_pending (t c : Nat) (f : Chan → Chan) (s : State) : (State.modChan t c f s).pending = s.pending := id rfl
@[simp] theorem State.modChan_power (t c : Nat) (f : Chan → Chan) (s : State) : (State.modChan t c f s).power = s.power := id rfl
@[simp] theorem State.modChan_now (t c : Nat) (f : Chan → Chan) (s : State) : (State.modChan t c f s).now = s.now := id rfl
@[simp] theorem State.modChan_tb (t c : Nat) (f : Chan → Chan) (s : State) : (State.modChan t c f s).tb = s.tb := id rfl
@[simp] theorem State.modChan_lock (t c : Nat) (f : Chan → Chan) (s : State) : (State.modChan t c f s).lock = s.lock := id rfl
@[simp] theorem State.modChan_own (t c : Nat) (f : Chan → Chan) (s : State) : (State.modChan t c f s).own = s.own := id rfl
@[simp] theorem State.modChan_ha (t c : Nat) (f : Chan → Chan) (s : State) : (State.modChan t c f s).ha = s.ha := id rfl
@[simp] theorem State.modChan_hb (t c : Nat) (f : Chan → Chan) (s : State) : (State.modChan t c f s).hb = s.hb := id rfl
@[simp] theorem State.modChan_fetched (t c : Nat) (f : Chan → Chan) (s : State) : (State.modChan t c f s).fetched = s.fetched := id rfl
@[simp] theorem State.modChan_running (t c : Nat) (f : Chan → Chan) (s : State) : (State.modChan t c f s).running = s.running := id rfl
@[simp] theorem State.modChan_lastGrant (t c : Nat) (f : Chan → Chan) (s : State) : (State.modChan t c f s).lastGrant = s.lastGrant := id rfl
@[simp] theorem State.modChan_order (t c : Nat) (f : Chan → Chan) (s : State) : (State.modChan t c f s).order = s.order := id rfl
@[simp] theorem State.modChan_transit (t c : Nat) (f : Chan → Chan) (s : State) : (State.modChan t c f s).transit = s.transit := id rfl
@[simp] theorem State.modChan_txns (t c : Nat) (f : Chan → Chan) (s : State) : (State.modChan t c f s).txns = s.txns := id rfl
@[simp] theorem State.modChan_merge (t c : Nat) (f : Chan → Chan) (s : State) : (State.modChan t c f s).merge = s.merge := id rfl
@[simp] theorem State.modChan_arch (t c : Nat) (f : Chan → Chan) (s : State) : (State.modChan t c f s).arch = s.arch := id rfl
@[simp] theorem State.modChan_archKind (t c : Nat) (f : Chan → Chan) (s : State) : (State.modChan t c f s).archKind = s.archKind := id rfl
@[simp] theorem State.modChan_lines (t c : Nat) (f : Chan → Chan) (s : State) : (State.modChan t c f s).lines = s.lines := id rfl
@[simp] theorem State.modChan_engines (t c : Nat) (f : Chan → Chan) (s : State) : (State.modChan t c f s).engines = s.engines := id rfl
@[simp] theorem State.modChan_rot (t c : Nat) (f : Chan → Chan) (s : State) : (State.modChan t c f s).rot = s.rot := id rfl
@[simp] theorem State.modChan_pwr (t c : Nat) (f : Chan → Chan) (s : State) : (State.modChan t c f s).pwr = s.pwr := id rfl
@[simp] theorem State.modChan_scaleEn (t c : Nat) (f : Chan → Chan) (s : State) : (State.modChan t c f s).scaleEn = s.scaleEn := id rfl
@[simp] theorem State.modChan_pwrUpdate (t c : Nat) (f : Chan → Chan) (s : State) : (State.modChan t c f s).pwrUpdate = s.pwrUpdate := id rfl
@[simp] theorem State.modChan_sram (t c : Nat) (f : Chan → Chan) (s : State) : (State.modChan t c f s).sram = s.sram := id rfl
@[simp] theorem State.modChan_pipes (t c : Nat) (f : Chan → Chan) (s : State) : (State.modChan t c f s).pipes = s.pipes := id rfl
@[simp] theorem State.modChan_sps (t c : Nat) (f : Chan → Chan) (s : State) : (State.modChan t c f s).sps = s.sps := id rfl
@[simp] theorem State.modChan_blks (t c : Nat) (f : Chan → Chan) (s : State) : (State.modChan t c f s).blks = s.blks := id rfl
@[simp] theorem State.modChan_dev (t c : Nat) (f : Chan → Chan) (s : State) : (State.modChan t c f s).dev = s.dev := id rfl
@[simp] theorem State.modChan_upd (t c : Nat) (f : Chan → Chan) (s : State) : (State.modChan t c f s).upd = s.upd := id rfl
@[simp] theorem State.modChan_sup (t c : Nat) (f : Chan → Chan) (s : State) : (State.modChan t c f s).sup = s.sup := id rfl
@[simp] theorem State.modChan_start (t c : Nat) (f : Chan → Chan) (s : State) : (State.modChan t c f s).start = s.start := id rfl
@[simp] theorem State.modChan_therm (t c : Nat) (f : Chan → Chan) (s : State) : (State.modChan t c f s).therm = s.therm := id rfl
@[simp] theorem State.modChan_per (t c : Nat) (f : Chan → Chan) (s : State) : (State.modChan t c f s).per = s.per := id rfl
@[simp] theorem State.modSeq_pending (t n : Nat) (f : Seq → Seq) (s : State) : (State.modSeq t n f s).pending = s.pending := id rfl
@[simp] theorem State.modSeq_power (t n : Nat) (f : Seq → Seq) (s : State) : (State.modSeq t n f s).power = s.power := id rfl
@[simp] theorem State.modSeq_now (t n : Nat) (f : Seq → Seq) (s : State) : (State.modSeq t n f s).now = s.now := id rfl
@[simp] theorem State.modSeq_tb (t n : Nat) (f : Seq → Seq) (s : State) : (State.modSeq t n f s).tb = s.tb := id rfl
@[simp] theorem State.modSeq_lock (t n : Nat) (f : Seq → Seq) (s : State) : (State.modSeq t n f s).lock = s.lock := id rfl
@[simp] theorem State.modSeq_own (t n : Nat) (f : Seq → Seq) (s : State) : (State.modSeq t n f s).own = s.own := id rfl
@[simp] theorem State.modSeq_ha (t n : Nat) (f : Seq → Seq) (s : State) : (State.modSeq t n f s).ha = s.ha := id rfl
@[simp] theorem State.modSeq_hb (t n : Nat) (f : Seq → Seq) (s : State) : (State.modSeq t n f s).hb = s.hb := id rfl
@[simp] theorem State.modSeq_fetched (t n : Nat) (f : Seq → Seq) (s : State) : (State.modSeq t n f s).fetched = s.fetched := id rfl
@[simp] theorem State.modSeq_running (t n : Nat) (f : Seq → Seq) (s : State) : (State.modSeq t n f s).running = s.running := id rfl
@[simp] theorem State.modSeq_lastGrant (t n : Nat) (f : Seq → Seq) (s : State) : (State.modSeq t n f s).lastGrant = s.lastGrant := id rfl
@[simp] theorem State.modSeq_order (t n : Nat) (f : Seq → Seq) (s : State) : (State.modSeq t n f s).order = s.order := id rfl
@[simp] theorem State.modSeq_transit (t n : Nat) (f : Seq → Seq) (s : State) : (State.modSeq t n f s).transit = s.transit := id rfl
@[simp] theorem State.modSeq_txns (t n : Nat) (f : Seq → Seq) (s : State) : (State.modSeq t n f s).txns = s.txns := id rfl
@[simp] theorem State.modSeq_merge (t n : Nat) (f : Seq → Seq) (s : State) : (State.modSeq t n f s).merge = s.merge := id rfl
@[simp] theorem State.modSeq_arch (t n : Nat) (f : Seq → Seq) (s : State) : (State.modSeq t n f s).arch = s.arch := id rfl
@[simp] theorem State.modSeq_archKind (t n : Nat) (f : Seq → Seq) (s : State) : (State.modSeq t n f s).archKind = s.archKind := id rfl
@[simp] theorem State.modSeq_lines (t n : Nat) (f : Seq → Seq) (s : State) : (State.modSeq t n f s).lines = s.lines := id rfl
@[simp] theorem State.modSeq_engines (t n : Nat) (f : Seq → Seq) (s : State) : (State.modSeq t n f s).engines = s.engines := id rfl
@[simp] theorem State.modSeq_rot (t n : Nat) (f : Seq → Seq) (s : State) : (State.modSeq t n f s).rot = s.rot := id rfl
@[simp] theorem State.modSeq_pwr (t n : Nat) (f : Seq → Seq) (s : State) : (State.modSeq t n f s).pwr = s.pwr := id rfl
@[simp] theorem State.modSeq_scaleEn (t n : Nat) (f : Seq → Seq) (s : State) : (State.modSeq t n f s).scaleEn = s.scaleEn := id rfl
@[simp] theorem State.modSeq_pwrUpdate (t n : Nat) (f : Seq → Seq) (s : State) : (State.modSeq t n f s).pwrUpdate = s.pwrUpdate := id rfl
@[simp] theorem State.modSeq_sram (t n : Nat) (f : Seq → Seq) (s : State) : (State.modSeq t n f s).sram = s.sram := id rfl
@[simp] theorem State.modSeq_pipes (t n : Nat) (f : Seq → Seq) (s : State) : (State.modSeq t n f s).pipes = s.pipes := id rfl
@[simp] theorem State.modSeq_sps (t n : Nat) (f : Seq → Seq) (s : State) : (State.modSeq t n f s).sps = s.sps := id rfl
@[simp] theorem State.modSeq_blks (t n : Nat) (f : Seq → Seq) (s : State) : (State.modSeq t n f s).blks = s.blks := id rfl
@[simp] theorem State.modSeq_dev (t n : Nat) (f : Seq → Seq) (s : State) : (State.modSeq t n f s).dev = s.dev := id rfl
@[simp] theorem State.modSeq_upd (t n : Nat) (f : Seq → Seq) (s : State) : (State.modSeq t n f s).upd = s.upd := id rfl
@[simp] theorem State.modSeq_sup (t n : Nat) (f : Seq → Seq) (s : State) : (State.modSeq t n f s).sup = s.sup := id rfl
@[simp] theorem State.modSeq_start (t n : Nat) (f : Seq → Seq) (s : State) : (State.modSeq t n f s).start = s.start := id rfl
@[simp] theorem State.modSeq_therm (t n : Nat) (f : Seq → Seq) (s : State) : (State.modSeq t n f s).therm = s.therm := id rfl
@[simp] theorem State.modSeq_per (t n : Nat) (f : Seq → Seq) (s : State) : (State.modSeq t n f s).per = s.per := id rfl
@[simp] theorem State.modCv_pending (t : Nat) (f : ConvUnit → ConvUnit) (s : State) : (State.modCv t f s).pending = s.pending := id rfl
@[simp] theorem State.modCv_power (t : Nat) (f : ConvUnit → ConvUnit) (s : State) : (State.modCv t f s).power = s.power := id rfl
@[simp] theorem State.modCv_now (t : Nat) (f : ConvUnit → ConvUnit) (s : State) : (State.modCv t f s).now = s.now := id rfl
@[simp] theorem State.modCv_tb (t : Nat) (f : ConvUnit → ConvUnit) (s : State) : (State.modCv t f s).tb = s.tb := id rfl
@[simp] theorem State.modCv_lock (t : Nat) (f : ConvUnit → ConvUnit) (s : State) : (State.modCv t f s).lock = s.lock := id rfl
@[simp] theorem State.modCv_own (t : Nat) (f : ConvUnit → ConvUnit) (s : State) : (State.modCv t f s).own = s.own := id rfl
@[simp] theorem State.modCv_ha (t : Nat) (f : ConvUnit → ConvUnit) (s : State) : (State.modCv t f s).ha = s.ha := id rfl
@[simp] theorem State.modCv_hb (t : Nat) (f : ConvUnit → ConvUnit) (s : State) : (State.modCv t f s).hb = s.hb := id rfl
@[simp] theorem State.modCv_fetched (t : Nat) (f : ConvUnit → ConvUnit) (s : State) : (State.modCv t f s).fetched = s.fetched := id rfl
@[simp] theorem State.modCv_running (t : Nat) (f : ConvUnit → ConvUnit) (s : State) : (State.modCv t f s).running = s.running := id rfl
@[simp] theorem State.modCv_lastGrant (t : Nat) (f : ConvUnit → ConvUnit) (s : State) : (State.modCv t f s).lastGrant = s.lastGrant := id rfl
@[simp] theorem State.modCv_order (t : Nat) (f : ConvUnit → ConvUnit) (s : State) : (State.modCv t f s).order = s.order := id rfl
@[simp] theorem State.modCv_transit (t : Nat) (f : ConvUnit → ConvUnit) (s : State) : (State.modCv t f s).transit = s.transit := id rfl
@[simp] theorem State.modCv_txns (t : Nat) (f : ConvUnit → ConvUnit) (s : State) : (State.modCv t f s).txns = s.txns := id rfl
@[simp] theorem State.modCv_merge (t : Nat) (f : ConvUnit → ConvUnit) (s : State) : (State.modCv t f s).merge = s.merge := id rfl
@[simp] theorem State.modCv_arch (t : Nat) (f : ConvUnit → ConvUnit) (s : State) : (State.modCv t f s).arch = s.arch := id rfl
@[simp] theorem State.modCv_archKind (t : Nat) (f : ConvUnit → ConvUnit) (s : State) : (State.modCv t f s).archKind = s.archKind := id rfl
@[simp] theorem State.modCv_lines (t : Nat) (f : ConvUnit → ConvUnit) (s : State) : (State.modCv t f s).lines = s.lines := id rfl
@[simp] theorem State.modCv_engines (t : Nat) (f : ConvUnit → ConvUnit) (s : State) : (State.modCv t f s).engines = s.engines := id rfl
@[simp] theorem State.modCv_rot (t : Nat) (f : ConvUnit → ConvUnit) (s : State) : (State.modCv t f s).rot = s.rot := id rfl
@[simp] theorem State.modCv_pwr (t : Nat) (f : ConvUnit → ConvUnit) (s : State) : (State.modCv t f s).pwr = s.pwr := id rfl
@[simp] theorem State.modCv_scaleEn (t : Nat) (f : ConvUnit → ConvUnit) (s : State) : (State.modCv t f s).scaleEn = s.scaleEn := id rfl
@[simp] theorem State.modCv_pwrUpdate (t : Nat) (f : ConvUnit → ConvUnit) (s : State) : (State.modCv t f s).pwrUpdate = s.pwrUpdate := id rfl
@[simp] theorem State.modCv_sram (t : Nat) (f : ConvUnit → ConvUnit) (s : State) : (State.modCv t f s).sram = s.sram := id rfl
@[simp] theorem State.modCv_pipes (t : Nat) (f : ConvUnit → ConvUnit) (s : State) : (State.modCv t f s).pipes = s.pipes := id rfl
@[simp] theorem State.modCv_sps (t : Nat) (f : ConvUnit → ConvUnit) (s : State) : (State.modCv t f s).sps = s.sps := id rfl
@[simp] theorem State.modCv_blks (t : Nat) (f : ConvUnit → ConvUnit) (s : State) : (State.modCv t f s).blks = s.blks := id rfl
@[simp] theorem State.modCv_dev (t : Nat) (f : ConvUnit → ConvUnit) (s : State) : (State.modCv t f s).dev = s.dev := id rfl
@[simp] theorem State.modCv_upd (t : Nat) (f : ConvUnit → ConvUnit) (s : State) : (State.modCv t f s).upd = s.upd := id rfl
@[simp] theorem State.modCv_sup (t : Nat) (f : ConvUnit → ConvUnit) (s : State) : (State.modCv t f s).sup = s.sup := id rfl
@[simp] theorem State.modCv_start (t : Nat) (f : ConvUnit → ConvUnit) (s : State) : (State.modCv t f s).start = s.start := id rfl
@[simp] theorem State.modCv_therm (t : Nat) (f : ConvUnit → ConvUnit) (s : State) : (State.modCv t f s).therm = s.therm := id rfl
@[simp] theorem State.modCv_per (t : Nat) (f : ConvUnit → ConvUnit) (s : State) : (State.modCv t f s).per = s.per := id rfl
@[simp] theorem State.modLink_pending (t : Nat) (f : Link → Link) (s : State) : (State.modLink t f s).pending = s.pending := id rfl
@[simp] theorem State.modLink_power (t : Nat) (f : Link → Link) (s : State) : (State.modLink t f s).power = s.power := id rfl
@[simp] theorem State.modLink_now (t : Nat) (f : Link → Link) (s : State) : (State.modLink t f s).now = s.now := id rfl
@[simp] theorem State.modLink_tb (t : Nat) (f : Link → Link) (s : State) : (State.modLink t f s).tb = s.tb := id rfl
@[simp] theorem State.modLink_lock (t : Nat) (f : Link → Link) (s : State) : (State.modLink t f s).lock = s.lock := id rfl
@[simp] theorem State.modLink_own (t : Nat) (f : Link → Link) (s : State) : (State.modLink t f s).own = s.own := id rfl
@[simp] theorem State.modLink_ha (t : Nat) (f : Link → Link) (s : State) : (State.modLink t f s).ha = s.ha := id rfl
@[simp] theorem State.modLink_hb (t : Nat) (f : Link → Link) (s : State) : (State.modLink t f s).hb = s.hb := id rfl
@[simp] theorem State.modLink_fetched (t : Nat) (f : Link → Link) (s : State) : (State.modLink t f s).fetched = s.fetched := id rfl
@[simp] theorem State.modLink_running (t : Nat) (f : Link → Link) (s : State) : (State.modLink t f s).running = s.running := id rfl
@[simp] theorem State.modLink_lastGrant (t : Nat) (f : Link → Link) (s : State) : (State.modLink t f s).lastGrant = s.lastGrant := id rfl
@[simp] theorem State.modLink_order (t : Nat) (f : Link → Link) (s : State) : (State.modLink t f s).order = s.order := id rfl
@[simp] theorem State.modLink_transit (t : Nat) (f : Link → Link) (s : State) : (State.modLink t f s).transit = s.transit := id rfl
@[simp] theorem State.modLink_txns (t : Nat) (f : Link → Link) (s : State) : (State.modLink t f s).txns = s.txns := id rfl
@[simp] theorem State.modLink_merge (t : Nat) (f : Link → Link) (s : State) : (State.modLink t f s).merge = s.merge := id rfl
@[simp] theorem State.modLink_arch (t : Nat) (f : Link → Link) (s : State) : (State.modLink t f s).arch = s.arch := id rfl
@[simp] theorem State.modLink_archKind (t : Nat) (f : Link → Link) (s : State) : (State.modLink t f s).archKind = s.archKind := id rfl
@[simp] theorem State.modLink_lines (t : Nat) (f : Link → Link) (s : State) : (State.modLink t f s).lines = s.lines := id rfl
@[simp] theorem State.modLink_engines (t : Nat) (f : Link → Link) (s : State) : (State.modLink t f s).engines = s.engines := id rfl
@[simp] theorem State.modLink_rot (t : Nat) (f : Link → Link) (s : State) : (State.modLink t f s).rot = s.rot := id rfl
@[simp] theorem State.modLink_pwr (t : Nat) (f : Link → Link) (s : State) : (State.modLink t f s).pwr = s.pwr := id rfl
@[simp] theorem State.modLink_scaleEn (t : Nat) (f : Link → Link) (s : State) : (State.modLink t f s).scaleEn = s.scaleEn := id rfl
@[simp] theorem State.modLink_pwrUpdate (t : Nat) (f : Link → Link) (s : State) : (State.modLink t f s).pwrUpdate = s.pwrUpdate := id rfl
@[simp] theorem State.modLink_sram (t : Nat) (f : Link → Link) (s : State) : (State.modLink t f s).sram = s.sram := id rfl
@[simp] theorem State.modLink_pipes (t : Nat) (f : Link → Link) (s : State) : (State.modLink t f s).pipes = s.pipes := id rfl
@[simp] theorem State.modLink_sps (t : Nat) (f : Link → Link) (s : State) : (State.modLink t f s).sps = s.sps := id rfl
@[simp] theorem State.modLink_blks (t : Nat) (f : Link → Link) (s : State) : (State.modLink t f s).blks = s.blks := id rfl
@[simp] theorem State.modLink_dev (t : Nat) (f : Link → Link) (s : State) : (State.modLink t f s).dev = s.dev := id rfl
@[simp] theorem State.modLink_upd (t : Nat) (f : Link → Link) (s : State) : (State.modLink t f s).upd = s.upd := id rfl
@[simp] theorem State.modLink_sup (t : Nat) (f : Link → Link) (s : State) : (State.modLink t f s).sup = s.sup := id rfl
@[simp] theorem State.modLink_start (t : Nat) (f : Link → Link) (s : State) : (State.modLink t f s).start = s.start := id rfl
@[simp] theorem State.modLink_therm (t : Nat) (f : Link → Link) (s : State) : (State.modLink t f s).therm = s.therm := id rfl
@[simp] theorem State.modLink_per (t : Nat) (f : Link → Link) (s : State) : (State.modLink t f s).per = s.per := id rfl
@[simp] theorem State.modSaf_pending (t : Nat) (f : Safety → Safety) (s : State) : (State.modSaf t f s).pending = s.pending := id rfl
@[simp] theorem State.modSaf_power (t : Nat) (f : Safety → Safety) (s : State) : (State.modSaf t f s).power = s.power := id rfl
@[simp] theorem State.modSaf_now (t : Nat) (f : Safety → Safety) (s : State) : (State.modSaf t f s).now = s.now := id rfl
@[simp] theorem State.modSaf_tb (t : Nat) (f : Safety → Safety) (s : State) : (State.modSaf t f s).tb = s.tb := id rfl
@[simp] theorem State.modSaf_lock (t : Nat) (f : Safety → Safety) (s : State) : (State.modSaf t f s).lock = s.lock := id rfl
@[simp] theorem State.modSaf_own (t : Nat) (f : Safety → Safety) (s : State) : (State.modSaf t f s).own = s.own := id rfl
@[simp] theorem State.modSaf_ha (t : Nat) (f : Safety → Safety) (s : State) : (State.modSaf t f s).ha = s.ha := id rfl
@[simp] theorem State.modSaf_hb (t : Nat) (f : Safety → Safety) (s : State) : (State.modSaf t f s).hb = s.hb := id rfl
@[simp] theorem State.modSaf_fetched (t : Nat) (f : Safety → Safety) (s : State) : (State.modSaf t f s).fetched = s.fetched := id rfl
@[simp] theorem State.modSaf_running (t : Nat) (f : Safety → Safety) (s : State) : (State.modSaf t f s).running = s.running := id rfl
@[simp] theorem State.modSaf_lastGrant (t : Nat) (f : Safety → Safety) (s : State) : (State.modSaf t f s).lastGrant = s.lastGrant := id rfl
@[simp] theorem State.modSaf_order (t : Nat) (f : Safety → Safety) (s : State) : (State.modSaf t f s).order = s.order := id rfl
@[simp] theorem State.modSaf_transit (t : Nat) (f : Safety → Safety) (s : State) : (State.modSaf t f s).transit = s.transit := id rfl
@[simp] theorem State.modSaf_txns (t : Nat) (f : Safety → Safety) (s : State) : (State.modSaf t f s).txns = s.txns := id rfl
@[simp] theorem State.modSaf_merge (t : Nat) (f : Safety → Safety) (s : State) : (State.modSaf t f s).merge = s.merge := id rfl
@[simp] theorem State.modSaf_arch (t : Nat) (f : Safety → Safety) (s : State) : (State.modSaf t f s).arch = s.arch := id rfl
@[simp] theorem State.modSaf_archKind (t : Nat) (f : Safety → Safety) (s : State) : (State.modSaf t f s).archKind = s.archKind := id rfl
@[simp] theorem State.modSaf_lines (t : Nat) (f : Safety → Safety) (s : State) : (State.modSaf t f s).lines = s.lines := id rfl
@[simp] theorem State.modSaf_engines (t : Nat) (f : Safety → Safety) (s : State) : (State.modSaf t f s).engines = s.engines := id rfl
@[simp] theorem State.modSaf_rot (t : Nat) (f : Safety → Safety) (s : State) : (State.modSaf t f s).rot = s.rot := id rfl
@[simp] theorem State.modSaf_pwr (t : Nat) (f : Safety → Safety) (s : State) : (State.modSaf t f s).pwr = s.pwr := id rfl
@[simp] theorem State.modSaf_scaleEn (t : Nat) (f : Safety → Safety) (s : State) : (State.modSaf t f s).scaleEn = s.scaleEn := id rfl
@[simp] theorem State.modSaf_pwrUpdate (t : Nat) (f : Safety → Safety) (s : State) : (State.modSaf t f s).pwrUpdate = s.pwrUpdate := id rfl
@[simp] theorem State.modSaf_sram (t : Nat) (f : Safety → Safety) (s : State) : (State.modSaf t f s).sram = s.sram := id rfl
@[simp] theorem State.modSaf_pipes (t : Nat) (f : Safety → Safety) (s : State) : (State.modSaf t f s).pipes = s.pipes := id rfl
@[simp] theorem State.modSaf_sps (t : Nat) (f : Safety → Safety) (s : State) : (State.modSaf t f s).sps = s.sps := id rfl
@[simp] theorem State.modSaf_blks (t : Nat) (f : Safety → Safety) (s : State) : (State.modSaf t f s).blks = s.blks := id rfl
@[simp] theorem State.modSaf_dev (t : Nat) (f : Safety → Safety) (s : State) : (State.modSaf t f s).dev = s.dev := id rfl
@[simp] theorem State.modSaf_upd (t : Nat) (f : Safety → Safety) (s : State) : (State.modSaf t f s).upd = s.upd := id rfl
@[simp] theorem State.modSaf_sup (t : Nat) (f : Safety → Safety) (s : State) : (State.modSaf t f s).sup = s.sup := id rfl
@[simp] theorem State.modSaf_start (t : Nat) (f : Safety → Safety) (s : State) : (State.modSaf t f s).start = s.start := id rfl
@[simp] theorem State.modSaf_therm (t : Nat) (f : Safety → Safety) (s : State) : (State.modSaf t f s).therm = s.therm := id rfl
@[simp] theorem State.modSaf_per (t : Nat) (f : Safety → Safety) (s : State) : (State.modSaf t f s).per = s.per := id rfl
@[simp] theorem State.modOut_pending (t c : Nat) (f : OutState → OutState) (s : State) : (State.modOut t c f s).pending = s.pending := id rfl
@[simp] theorem State.modOut_power (t c : Nat) (f : OutState → OutState) (s : State) : (State.modOut t c f s).power = s.power := id rfl
@[simp] theorem State.modOut_now (t c : Nat) (f : OutState → OutState) (s : State) : (State.modOut t c f s).now = s.now := id rfl
@[simp] theorem State.modOut_tb (t c : Nat) (f : OutState → OutState) (s : State) : (State.modOut t c f s).tb = s.tb := id rfl
@[simp] theorem State.modOut_lock (t c : Nat) (f : OutState → OutState) (s : State) : (State.modOut t c f s).lock = s.lock := id rfl
@[simp] theorem State.modOut_own (t c : Nat) (f : OutState → OutState) (s : State) : (State.modOut t c f s).own = s.own := id rfl
@[simp] theorem State.modOut_ha (t c : Nat) (f : OutState → OutState) (s : State) : (State.modOut t c f s).ha = s.ha := id rfl
@[simp] theorem State.modOut_hb (t c : Nat) (f : OutState → OutState) (s : State) : (State.modOut t c f s).hb = s.hb := id rfl
@[simp] theorem State.modOut_fetched (t c : Nat) (f : OutState → OutState) (s : State) : (State.modOut t c f s).fetched = s.fetched := id rfl
@[simp] theorem State.modOut_running (t c : Nat) (f : OutState → OutState) (s : State) : (State.modOut t c f s).running = s.running := id rfl
@[simp] theorem State.modOut_lastGrant (t c : Nat) (f : OutState → OutState) (s : State) : (State.modOut t c f s).lastGrant = s.lastGrant := id rfl
@[simp] theorem State.modOut_order (t c : Nat) (f : OutState → OutState) (s : State) : (State.modOut t c f s).order = s.order := id rfl
@[simp] theorem State.modOut_transit (t c : Nat) (f : OutState → OutState) (s : State) : (State.modOut t c f s).transit = s.transit := id rfl
@[simp] theorem State.modOut_txns (t c : Nat) (f : OutState → OutState) (s : State) : (State.modOut t c f s).txns = s.txns := id rfl
@[simp] theorem State.modOut_merge (t c : Nat) (f : OutState → OutState) (s : State) : (State.modOut t c f s).merge = s.merge := id rfl
@[simp] theorem State.modOut_arch (t c : Nat) (f : OutState → OutState) (s : State) : (State.modOut t c f s).arch = s.arch := id rfl
@[simp] theorem State.modOut_archKind (t c : Nat) (f : OutState → OutState) (s : State) : (State.modOut t c f s).archKind = s.archKind := id rfl
@[simp] theorem State.modOut_lines (t c : Nat) (f : OutState → OutState) (s : State) : (State.modOut t c f s).lines = s.lines := id rfl
@[simp] theorem State.modOut_engines (t c : Nat) (f : OutState → OutState) (s : State) : (State.modOut t c f s).engines = s.engines := id rfl
@[simp] theorem State.modOut_rot (t c : Nat) (f : OutState → OutState) (s : State) : (State.modOut t c f s).rot = s.rot := id rfl
@[simp] theorem State.modOut_pwr (t c : Nat) (f : OutState → OutState) (s : State) : (State.modOut t c f s).pwr = s.pwr := id rfl
@[simp] theorem State.modOut_scaleEn (t c : Nat) (f : OutState → OutState) (s : State) : (State.modOut t c f s).scaleEn = s.scaleEn := id rfl
@[simp] theorem State.modOut_pwrUpdate (t c : Nat) (f : OutState → OutState) (s : State) : (State.modOut t c f s).pwrUpdate = s.pwrUpdate := id rfl
@[simp] theorem State.modOut_sram (t c : Nat) (f : OutState → OutState) (s : State) : (State.modOut t c f s).sram = s.sram := id rfl
@[simp] theorem State.modOut_pipes (t c : Nat) (f : OutState → OutState) (s : State) : (State.modOut t c f s).pipes = s.pipes := id rfl
@[simp] theorem State.modOut_sps (t c : Nat) (f : OutState → OutState) (s : State) : (State.modOut t c f s).sps = s.sps := id rfl
@[simp] theorem State.modOut_blks (t c : Nat) (f : OutState → OutState) (s : State) : (State.modOut t c f s).blks = s.blks := id rfl
@[simp] theorem State.modOut_dev (t c : Nat) (f : OutState → OutState) (s : State) : (State.modOut t c f s).dev = s.dev := id rfl
@[simp] theorem State.modOut_upd (t c : Nat) (f : OutState → OutState) (s : State) : (State.modOut t c f s).upd = s.upd := id rfl
@[simp] theorem State.modOut_sup (t c : Nat) (f : OutState → OutState) (s : State) : (State.modOut t c f s).sup = s.sup := id rfl
@[simp] theorem State.modOut_start (t c : Nat) (f : OutState → OutState) (s : State) : (State.modOut t c f s).start = s.start := id rfl
@[simp] theorem State.modOut_therm (t c : Nat) (f : OutState → OutState) (s : State) : (State.modOut t c f s).therm = s.therm := id rfl
@[simp] theorem State.modOut_per (t c : Nat) (f : OutState → OutState) (s : State) : (State.modOut t c f s).per = s.per := id rfl
@[simp] theorem State.modMeas_pending (t c : Nat) (f : MeasState → MeasState) (s : State) : (State.modMeas t c f s).pending = s.pending := id rfl
@[simp] theorem State.modMeas_power (t c : Nat) (f : MeasState → MeasState) (s : State) : (State.modMeas t c f s).power = s.power := id rfl
@[simp] theorem State.modMeas_now (t c : Nat) (f : MeasState → MeasState) (s : State) : (State.modMeas t c f s).now = s.now := id rfl
@[simp] theorem State.modMeas_tb (t c : Nat) (f : MeasState → MeasState) (s : State) : (State.modMeas t c f s).tb = s.tb := id rfl
@[simp] theorem State.modMeas_lock (t c : Nat) (f : MeasState → MeasState) (s : State) : (State.modMeas t c f s).lock = s.lock := id rfl
@[simp] theorem State.modMeas_own (t c : Nat) (f : MeasState → MeasState) (s : State) : (State.modMeas t c f s).own = s.own := id rfl
@[simp] theorem State.modMeas_ha (t c : Nat) (f : MeasState → MeasState) (s : State) : (State.modMeas t c f s).ha = s.ha := id rfl
@[simp] theorem State.modMeas_hb (t c : Nat) (f : MeasState → MeasState) (s : State) : (State.modMeas t c f s).hb = s.hb := id rfl
@[simp] theorem State.modMeas_fetched (t c : Nat) (f : MeasState → MeasState) (s : State) : (State.modMeas t c f s).fetched = s.fetched := id rfl
@[simp] theorem State.modMeas_running (t c : Nat) (f : MeasState → MeasState) (s : State) : (State.modMeas t c f s).running = s.running := id rfl
@[simp] theorem State.modMeas_lastGrant (t c : Nat) (f : MeasState → MeasState) (s : State) : (State.modMeas t c f s).lastGrant = s.lastGrant := id rfl
@[simp] theorem State.modMeas_order (t c : Nat) (f : MeasState → MeasState) (s : State) : (State.modMeas t c f s).order = s.order := id rfl
@[simp] theorem State.modMeas_transit (t c : Nat) (f : MeasState → MeasState) (s : State) : (State.modMeas t c f s).transit = s.transit := id rfl
@[simp] theorem State.modMeas_txns (t c : Nat) (f : MeasState → MeasState) (s : State) : (State.modMeas t c f s).txns = s.txns := id rfl
@[simp] theorem State.modMeas_merge (t c : Nat) (f : MeasState → MeasState) (s : State) : (State.modMeas t c f s).merge = s.merge := id rfl
@[simp] theorem State.modMeas_arch (t c : Nat) (f : MeasState → MeasState) (s : State) : (State.modMeas t c f s).arch = s.arch := id rfl
@[simp] theorem State.modMeas_archKind (t c : Nat) (f : MeasState → MeasState) (s : State) : (State.modMeas t c f s).archKind = s.archKind := id rfl
@[simp] theorem State.modMeas_lines (t c : Nat) (f : MeasState → MeasState) (s : State) : (State.modMeas t c f s).lines = s.lines := id rfl
@[simp] theorem State.modMeas_engines (t c : Nat) (f : MeasState → MeasState) (s : State) : (State.modMeas t c f s).engines = s.engines := id rfl
@[simp] theorem State.modMeas_rot (t c : Nat) (f : MeasState → MeasState) (s : State) : (State.modMeas t c f s).rot = s.rot := id rfl
@[simp] theorem State.modMeas_pwr (t c : Nat) (f : MeasState → MeasState) (s : State) : (State.modMeas t c f s).pwr = s.pwr := id rfl
@[simp] theorem State.modMeas_scaleEn (t c : Nat) (f : MeasState → MeasState) (s : State) : (State.modMeas t c f s).scaleEn = s.scaleEn := id rfl
@[simp] theorem State.modMeas_pwrUpdate (t c : Nat) (f : MeasState → MeasState) (s : State) : (State.modMeas t c f s).pwrUpdate = s.pwrUpdate := id rfl
@[simp] theorem State.modMeas_sram (t c : Nat) (f : MeasState → MeasState) (s : State) : (State.modMeas t c f s).sram = s.sram := id rfl
@[simp] theorem State.modMeas_pipes (t c : Nat) (f : MeasState → MeasState) (s : State) : (State.modMeas t c f s).pipes = s.pipes := id rfl
@[simp] theorem State.modMeas_sps (t c : Nat) (f : MeasState → MeasState) (s : State) : (State.modMeas t c f s).sps = s.sps := id rfl
@[simp] theorem State.modMeas_blks (t c : Nat) (f : MeasState → MeasState) (s : State) : (State.modMeas t c f s).blks = s.blks := id rfl
@[simp] theorem State.modMeas_dev (t c : Nat) (f : MeasState → MeasState) (s : State) : (State.modMeas t c f s).dev = s.dev := id rfl
@[simp] theorem State.modMeas_upd (t c : Nat) (f : MeasState → MeasState) (s : State) : (State.modMeas t c f s).upd = s.upd := id rfl
@[simp] theorem State.modMeas_sup (t c : Nat) (f : MeasState → MeasState) (s : State) : (State.modMeas t c f s).sup = s.sup := id rfl
@[simp] theorem State.modMeas_start (t c : Nat) (f : MeasState → MeasState) (s : State) : (State.modMeas t c f s).start = s.start := id rfl
@[simp] theorem State.modMeas_therm (t c : Nat) (f : MeasState → MeasState) (s : State) : (State.modMeas t c f s).therm = s.therm := id rfl
@[simp] theorem State.modMeas_per (t c : Nat) (f : MeasState → MeasState) (s : State) : (State.modMeas t c f s).per = s.per := id rfl
@[simp] theorem State.modCtx_pending (p c : Nat) (f : Ctx → Ctx) (s : State) : (State.modCtx p c f s).pending = s.pending := id rfl
@[simp] theorem State.modCtx_power (p c : Nat) (f : Ctx → Ctx) (s : State) : (State.modCtx p c f s).power = s.power := id rfl
@[simp] theorem State.modCtx_now (p c : Nat) (f : Ctx → Ctx) (s : State) : (State.modCtx p c f s).now = s.now := id rfl
@[simp] theorem State.modCtx_tb (p c : Nat) (f : Ctx → Ctx) (s : State) : (State.modCtx p c f s).tb = s.tb := id rfl
@[simp] theorem State.modCtx_lock (p c : Nat) (f : Ctx → Ctx) (s : State) : (State.modCtx p c f s).lock = s.lock := id rfl
@[simp] theorem State.modCtx_own (p c : Nat) (f : Ctx → Ctx) (s : State) : (State.modCtx p c f s).own = s.own := id rfl
@[simp] theorem State.modCtx_ha (p c : Nat) (f : Ctx → Ctx) (s : State) : (State.modCtx p c f s).ha = s.ha := id rfl
@[simp] theorem State.modCtx_hb (p c : Nat) (f : Ctx → Ctx) (s : State) : (State.modCtx p c f s).hb = s.hb := id rfl
@[simp] theorem State.modCtx_fetched (p c : Nat) (f : Ctx → Ctx) (s : State) : (State.modCtx p c f s).fetched = s.fetched := id rfl
@[simp] theorem State.modCtx_running (p c : Nat) (f : Ctx → Ctx) (s : State) : (State.modCtx p c f s).running = s.running := id rfl
@[simp] theorem State.modCtx_lastGrant (p c : Nat) (f : Ctx → Ctx) (s : State) : (State.modCtx p c f s).lastGrant = s.lastGrant := id rfl
@[simp] theorem State.modCtx_order (p c : Nat) (f : Ctx → Ctx) (s : State) : (State.modCtx p c f s).order = s.order := id rfl
@[simp] theorem State.modCtx_transit (p c : Nat) (f : Ctx → Ctx) (s : State) : (State.modCtx p c f s).transit = s.transit := id rfl
@[simp] theorem State.modCtx_txns (p c : Nat) (f : Ctx → Ctx) (s : State) : (State.modCtx p c f s).txns = s.txns := id rfl
@[simp] theorem State.modCtx_merge (p c : Nat) (f : Ctx → Ctx) (s : State) : (State.modCtx p c f s).merge = s.merge := id rfl
@[simp] theorem State.modCtx_arch (p c : Nat) (f : Ctx → Ctx) (s : State) : (State.modCtx p c f s).arch = s.arch := id rfl
@[simp] theorem State.modCtx_archKind (p c : Nat) (f : Ctx → Ctx) (s : State) : (State.modCtx p c f s).archKind = s.archKind := id rfl
@[simp] theorem State.modCtx_tiles (p c : Nat) (f : Ctx → Ctx) (s : State) : (State.modCtx p c f s).tiles = s.tiles := id rfl
@[simp] theorem State.modCtx_lines (p c : Nat) (f : Ctx → Ctx) (s : State) : (State.modCtx p c f s).lines = s.lines := id rfl
@[simp] theorem State.modCtx_engines (p c : Nat) (f : Ctx → Ctx) (s : State) : (State.modCtx p c f s).engines = s.engines := id rfl
@[simp] theorem State.modCtx_rot (p c : Nat) (f : Ctx → Ctx) (s : State) : (State.modCtx p c f s).rot = s.rot := id rfl
@[simp] theorem State.modCtx_pwr (p c : Nat) (f : Ctx → Ctx) (s : State) : (State.modCtx p c f s).pwr = s.pwr := id rfl
@[simp] theorem State.modCtx_scaleEn (p c : Nat) (f : Ctx → Ctx) (s : State) : (State.modCtx p c f s).scaleEn = s.scaleEn := id rfl
@[simp] theorem State.modCtx_pwrUpdate (p c : Nat) (f : Ctx → Ctx) (s : State) : (State.modCtx p c f s).pwrUpdate = s.pwrUpdate := id rfl
@[simp] theorem State.modCtx_sram (p c : Nat) (f : Ctx → Ctx) (s : State) : (State.modCtx p c f s).sram = s.sram := id rfl
@[simp] theorem State.modCtx_sps (p c : Nat) (f : Ctx → Ctx) (s : State) : (State.modCtx p c f s).sps = s.sps := id rfl
@[simp] theorem State.modCtx_blks (p c : Nat) (f : Ctx → Ctx) (s : State) : (State.modCtx p c f s).blks = s.blks := id rfl
@[simp] theorem State.modCtx_dev (p c : Nat) (f : Ctx → Ctx) (s : State) : (State.modCtx p c f s).dev = s.dev := id rfl
@[simp] theorem State.modCtx_upd (p c : Nat) (f : Ctx → Ctx) (s : State) : (State.modCtx p c f s).upd = s.upd := id rfl
@[simp] theorem State.modCtx_sup (p c : Nat) (f : Ctx → Ctx) (s : State) : (State.modCtx p c f s).sup = s.sup := id rfl
@[simp] theorem State.modCtx_start (p c : Nat) (f : Ctx → Ctx) (s : State) : (State.modCtx p c f s).start = s.start := id rfl
@[simp] theorem State.modCtx_therm (p c : Nat) (f : Ctx → Ctx) (s : State) : (State.modCtx p c f s).therm = s.therm := id rfl
@[simp] theorem State.modCtx_per (p c : Nat) (f : Ctx → Ctx) (s : State) : (State.modCtx p c f s).per = s.per := id rfl
@[simp] theorem State.modSp_pending (n : Nat) (f : SPort → SPort) (s : State) : (State.modSp n f s).pending = s.pending := id rfl
@[simp] theorem State.modSp_power (n : Nat) (f : SPort → SPort) (s : State) : (State.modSp n f s).power = s.power := id rfl
@[simp] theorem State.modSp_now (n : Nat) (f : SPort → SPort) (s : State) : (State.modSp n f s).now = s.now := id rfl
@[simp] theorem State.modSp_tb (n : Nat) (f : SPort → SPort) (s : State) : (State.modSp n f s).tb = s.tb := id rfl
@[simp] theorem State.modSp_lock (n : Nat) (f : SPort → SPort) (s : State) : (State.modSp n f s).lock = s.lock := id rfl
@[simp] theorem State.modSp_own (n : Nat) (f : SPort → SPort) (s : State) : (State.modSp n f s).own = s.own := id rfl
@[simp] theorem State.modSp_ha (n : Nat) (f : SPort → SPort) (s : State) : (State.modSp n f s).ha = s.ha := id rfl
@[simp] theorem State.modSp_hb (n : Nat) (f : SPort → SPort) (s : State) : (State.modSp n f s).hb = s.hb := id rfl
@[simp] theorem State.modSp_fetched (n : Nat) (f : SPort → SPort) (s : State) : (State.modSp n f s).fetched = s.fetched := id rfl
@[simp] theorem State.modSp_running (n : Nat) (f : SPort → SPort) (s : State) : (State.modSp n f s).running = s.running := id rfl
@[simp] theorem State.modSp_lastGrant (n : Nat) (f : SPort → SPort) (s : State) : (State.modSp n f s).lastGrant = s.lastGrant := id rfl
@[simp] theorem State.modSp_order (n : Nat) (f : SPort → SPort) (s : State) : (State.modSp n f s).order = s.order := id rfl
@[simp] theorem State.modSp_transit (n : Nat) (f : SPort → SPort) (s : State) : (State.modSp n f s).transit = s.transit := id rfl
@[simp] theorem State.modSp_txns (n : Nat) (f : SPort → SPort) (s : State) : (State.modSp n f s).txns = s.txns := id rfl
@[simp] theorem State.modSp_merge (n : Nat) (f : SPort → SPort) (s : State) : (State.modSp n f s).merge = s.merge := id rfl
@[simp] theorem State.modSp_arch (n : Nat) (f : SPort → SPort) (s : State) : (State.modSp n f s).arch = s.arch := id rfl
@[simp] theorem State.modSp_archKind (n : Nat) (f : SPort → SPort) (s : State) : (State.modSp n f s).archKind = s.archKind := id rfl
@[simp] theorem State.modSp_tiles (n : Nat) (f : SPort → SPort) (s : State) : (State.modSp n f s).tiles = s.tiles := id rfl
@[simp] theorem State.modSp_lines (n : Nat) (f : SPort → SPort) (s : State) : (State.modSp n f s).lines = s.lines := id rfl
@[simp] theorem State.modSp_engines (n : Nat) (f : SPort → SPort) (s : State) : (State.modSp n f s).engines = s.engines := id rfl
@[simp] theorem State.modSp_rot (n : Nat) (f : SPort → SPort) (s : State) : (State.modSp n f s).rot = s.rot := id rfl
@[simp] theorem State.modSp_pwr (n : Nat) (f : SPort → SPort) (s : State) : (State.modSp n f s).pwr = s.pwr := id rfl
@[simp] theorem State.modSp_scaleEn (n : Nat) (f : SPort → SPort) (s : State) : (State.modSp n f s).scaleEn = s.scaleEn := id rfl
@[simp] theorem State.modSp_pwrUpdate (n : Nat) (f : SPort → SPort) (s : State) : (State.modSp n f s).pwrUpdate = s.pwrUpdate := id rfl
@[simp] theorem State.modSp_sram (n : Nat) (f : SPort → SPort) (s : State) : (State.modSp n f s).sram = s.sram := id rfl
@[simp] theorem State.modSp_pipes (n : Nat) (f : SPort → SPort) (s : State) : (State.modSp n f s).pipes = s.pipes := id rfl
@[simp] theorem State.modSp_blks (n : Nat) (f : SPort → SPort) (s : State) : (State.modSp n f s).blks = s.blks := id rfl
@[simp] theorem State.modSp_dev (n : Nat) (f : SPort → SPort) (s : State) : (State.modSp n f s).dev = s.dev := id rfl
@[simp] theorem State.modSp_upd (n : Nat) (f : SPort → SPort) (s : State) : (State.modSp n f s).upd = s.upd := id rfl
@[simp] theorem State.modSp_sup (n : Nat) (f : SPort → SPort) (s : State) : (State.modSp n f s).sup = s.sup := id rfl
@[simp] theorem State.modSp_start (n : Nat) (f : SPort → SPort) (s : State) : (State.modSp n f s).start = s.start := id rfl
@[simp] theorem State.modSp_therm (n : Nat) (f : SPort → SPort) (s : State) : (State.modSp n f s).therm = s.therm := id rfl
@[simp] theorem State.modSp_per (n : Nat) (f : SPort → SPort) (s : State) : (State.modSp n f s).per = s.per := id rfl
@[simp] theorem State.modEngine_pending (n : Nat) (f : Engine → Engine) (s : State) : (State.modEngine n f s).pending = s.pending := id rfl
@[simp] theorem State.modEngine_power (n : Nat) (f : Engine → Engine) (s : State) : (State.modEngine n f s).power = s.power := id rfl
@[simp] theorem State.modEngine_now (n : Nat) (f : Engine → Engine) (s : State) : (State.modEngine n f s).now = s.now := id rfl
@[simp] theorem State.modEngine_tb (n : Nat) (f : Engine → Engine) (s : State) : (State.modEngine n f s).tb = s.tb := id rfl
@[simp] theorem State.modEngine_lock (n : Nat) (f : Engine → Engine) (s : State) : (State.modEngine n f s).lock = s.lock := id rfl
@[simp] theorem State.modEngine_own (n : Nat) (f : Engine → Engine) (s : State) : (State.modEngine n f s).own = s.own := id rfl
@[simp] theorem State.modEngine_ha (n : Nat) (f : Engine → Engine) (s : State) : (State.modEngine n f s).ha = s.ha := id rfl
@[simp] theorem State.modEngine_hb (n : Nat) (f : Engine → Engine) (s : State) : (State.modEngine n f s).hb = s.hb := id rfl
@[simp] theorem State.modEngine_fetched (n : Nat) (f : Engine → Engine) (s : State) : (State.modEngine n f s).fetched = s.fetched := id rfl
@[simp] theorem State.modEngine_running (n : Nat) (f : Engine → Engine) (s : State) : (State.modEngine n f s).running = s.running := id rfl
@[simp] theorem State.modEngine_lastGrant (n : Nat) (f : Engine → Engine) (s : State) : (State.modEngine n f s).lastGrant = s.lastGrant := id rfl
@[simp] theorem State.modEngine_order (n : Nat) (f : Engine → Engine) (s : State) : (State.modEngine n f s).order = s.order := id rfl
@[simp] theorem State.modEngine_transit (n : Nat) (f : Engine → Engine) (s : State) : (State.modEngine n f s).transit = s.transit := id rfl
@[simp] theorem State.modEngine_txns (n : Nat) (f : Engine → Engine) (s : State) : (State.modEngine n f s).txns = s.txns := id rfl
@[simp] theorem State.modEngine_merge (n : Nat) (f : Engine → Engine) (s : State) : (State.modEngine n f s).merge = s.merge := id rfl
@[simp] theorem State.modEngine_arch (n : Nat) (f : Engine → Engine) (s : State) : (State.modEngine n f s).arch = s.arch := id rfl
@[simp] theorem State.modEngine_archKind (n : Nat) (f : Engine → Engine) (s : State) : (State.modEngine n f s).archKind = s.archKind := id rfl
@[simp] theorem State.modEngine_tiles (n : Nat) (f : Engine → Engine) (s : State) : (State.modEngine n f s).tiles = s.tiles := id rfl
@[simp] theorem State.modEngine_lines (n : Nat) (f : Engine → Engine) (s : State) : (State.modEngine n f s).lines = s.lines := id rfl
@[simp] theorem State.modEngine_rot (n : Nat) (f : Engine → Engine) (s : State) : (State.modEngine n f s).rot = s.rot := id rfl
@[simp] theorem State.modEngine_pwr (n : Nat) (f : Engine → Engine) (s : State) : (State.modEngine n f s).pwr = s.pwr := id rfl
@[simp] theorem State.modEngine_scaleEn (n : Nat) (f : Engine → Engine) (s : State) : (State.modEngine n f s).scaleEn = s.scaleEn := id rfl
@[simp] theorem State.modEngine_pwrUpdate (n : Nat) (f : Engine → Engine) (s : State) : (State.modEngine n f s).pwrUpdate = s.pwrUpdate := id rfl
@[simp] theorem State.modEngine_sram (n : Nat) (f : Engine → Engine) (s : State) : (State.modEngine n f s).sram = s.sram := id rfl
@[simp] theorem State.modEngine_pipes (n : Nat) (f : Engine → Engine) (s : State) : (State.modEngine n f s).pipes = s.pipes := id rfl
@[simp] theorem State.modEngine_sps (n : Nat) (f : Engine → Engine) (s : State) : (State.modEngine n f s).sps = s.sps := id rfl
@[simp] theorem State.modEngine_blks (n : Nat) (f : Engine → Engine) (s : State) : (State.modEngine n f s).blks = s.blks := id rfl
@[simp] theorem State.modEngine_dev (n : Nat) (f : Engine → Engine) (s : State) : (State.modEngine n f s).dev = s.dev := id rfl
@[simp] theorem State.modEngine_upd (n : Nat) (f : Engine → Engine) (s : State) : (State.modEngine n f s).upd = s.upd := id rfl
@[simp] theorem State.modEngine_sup (n : Nat) (f : Engine → Engine) (s : State) : (State.modEngine n f s).sup = s.sup := id rfl
@[simp] theorem State.modEngine_start (n : Nat) (f : Engine → Engine) (s : State) : (State.modEngine n f s).start = s.start := id rfl
@[simp] theorem State.modEngine_therm (n : Nat) (f : Engine → Engine) (s : State) : (State.modEngine n f s).therm = s.therm := id rfl
@[simp] theorem State.modEngine_per (n : Nat) (f : Engine → Engine) (s : State) : (State.modEngine n f s).per = s.per := id rfl
@[simp] theorem State.modBlk_pending (k : Nat) (f : FBlk → FBlk) (s : State) : (State.modBlk k f s).pending = s.pending := id rfl
@[simp] theorem State.modBlk_power (k : Nat) (f : FBlk → FBlk) (s : State) : (State.modBlk k f s).power = s.power := id rfl
@[simp] theorem State.modBlk_now (k : Nat) (f : FBlk → FBlk) (s : State) : (State.modBlk k f s).now = s.now := id rfl
@[simp] theorem State.modBlk_tb (k : Nat) (f : FBlk → FBlk) (s : State) : (State.modBlk k f s).tb = s.tb := id rfl
@[simp] theorem State.modBlk_lock (k : Nat) (f : FBlk → FBlk) (s : State) : (State.modBlk k f s).lock = s.lock := id rfl
@[simp] theorem State.modBlk_own (k : Nat) (f : FBlk → FBlk) (s : State) : (State.modBlk k f s).own = s.own := id rfl
@[simp] theorem State.modBlk_ha (k : Nat) (f : FBlk → FBlk) (s : State) : (State.modBlk k f s).ha = s.ha := id rfl
@[simp] theorem State.modBlk_hb (k : Nat) (f : FBlk → FBlk) (s : State) : (State.modBlk k f s).hb = s.hb := id rfl
@[simp] theorem State.modBlk_fetched (k : Nat) (f : FBlk → FBlk) (s : State) : (State.modBlk k f s).fetched = s.fetched := id rfl
@[simp] theorem State.modBlk_running (k : Nat) (f : FBlk → FBlk) (s : State) : (State.modBlk k f s).running = s.running := id rfl
@[simp] theorem State.modBlk_lastGrant (k : Nat) (f : FBlk → FBlk) (s : State) : (State.modBlk k f s).lastGrant = s.lastGrant := id rfl
@[simp] theorem State.modBlk_order (k : Nat) (f : FBlk → FBlk) (s : State) : (State.modBlk k f s).order = s.order := id rfl
@[simp] theorem State.modBlk_transit (k : Nat) (f : FBlk → FBlk) (s : State) : (State.modBlk k f s).transit = s.transit := id rfl
@[simp] theorem State.modBlk_txns (k : Nat) (f : FBlk → FBlk) (s : State) : (State.modBlk k f s).txns = s.txns := id rfl
@[simp] theorem State.modBlk_merge (k : Nat) (f : FBlk → FBlk) (s : State) : (State.modBlk k f s).merge = s.merge := id rfl
@[simp] theorem State.modBlk_arch (k : Nat) (f : FBlk → FBlk) (s : State) : (State.modBlk k f s).arch = s.arch := id rfl
@[simp] theorem State.modBlk_archKind (k : Nat) (f : FBlk → FBlk) (s : State) : (State.modBlk k f s).archKind = s.archKind := id rfl
@[simp] theorem State.modBlk_tiles (k : Nat) (f : FBlk → FBlk) (s : State) : (State.modBlk k f s).tiles = s.tiles := id rfl
@[simp] theorem State.modBlk_lines (k : Nat) (f : FBlk → FBlk) (s : State) : (State.modBlk k f s).lines = s.lines := id rfl
@[simp] theorem State.modBlk_engines (k : Nat) (f : FBlk → FBlk) (s : State) : (State.modBlk k f s).engines = s.engines := id rfl
@[simp] theorem State.modBlk_rot (k : Nat) (f : FBlk → FBlk) (s : State) : (State.modBlk k f s).rot = s.rot := id rfl
@[simp] theorem State.modBlk_pwr (k : Nat) (f : FBlk → FBlk) (s : State) : (State.modBlk k f s).pwr = s.pwr := id rfl
@[simp] theorem State.modBlk_scaleEn (k : Nat) (f : FBlk → FBlk) (s : State) : (State.modBlk k f s).scaleEn = s.scaleEn := id rfl
@[simp] theorem State.modBlk_pwrUpdate (k : Nat) (f : FBlk → FBlk) (s : State) : (State.modBlk k f s).pwrUpdate = s.pwrUpdate := id rfl
@[simp] theorem State.modBlk_sram (k : Nat) (f : FBlk → FBlk) (s : State) : (State.modBlk k f s).sram = s.sram := id rfl
@[simp] theorem State.modBlk_pipes (k : Nat) (f : FBlk → FBlk) (s : State) : (State.modBlk k f s).pipes = s.pipes := id rfl
@[simp] theorem State.modBlk_sps (k : Nat) (f : FBlk → FBlk) (s : State) : (State.modBlk k f s).sps = s.sps := id rfl
@[simp] theorem State.modBlk_dev (k : Nat) (f : FBlk → FBlk) (s : State) : (State.modBlk k f s).dev = s.dev := id rfl
@[simp] theorem State.modBlk_upd (k : Nat) (f : FBlk → FBlk) (s : State) : (State.modBlk k f s).upd = s.upd := id rfl
@[simp] theorem State.modBlk_sup (k : Nat) (f : FBlk → FBlk) (s : State) : (State.modBlk k f s).sup = s.sup := id rfl
@[simp] theorem State.modBlk_start (k : Nat) (f : FBlk → FBlk) (s : State) : (State.modBlk k f s).start = s.start := id rfl
@[simp] theorem State.modBlk_therm (k : Nat) (f : FBlk → FBlk) (s : State) : (State.modBlk k f s).therm = s.therm := id rfl
@[simp] theorem State.modBlk_per (k : Nat) (f : FBlk → FBlk) (s : State) : (State.modBlk k f s).per = s.per := id rfl
@[simp] theorem State.modSrc_pending (k i : Nat) (f : Src → Src) (s : State) : (State.modSrc k i f s).pending = s.pending := id rfl
@[simp] theorem State.modSrc_power (k i : Nat) (f : Src → Src) (s : State) : (State.modSrc k i f s).power = s.power := id rfl
@[simp] theorem State.modSrc_now (k i : Nat) (f : Src → Src) (s : State) : (State.modSrc k i f s).now = s.now := id rfl
@[simp] theorem State.modSrc_tb (k i : Nat) (f : Src → Src) (s : State) : (State.modSrc k i f s).tb = s.tb := id rfl
@[simp] theorem State.modSrc_lock (k i : Nat) (f : Src → Src) (s : State) : (State.modSrc k i f s).lock = s.lock := id rfl
@[simp] theorem State.modSrc_own (k i : Nat) (f : Src → Src) (s : State) : (State.modSrc k i f s).own = s.own := id rfl
@[simp] theorem State.modSrc_ha (k i : Nat) (f : Src → Src) (s : State) : (State.modSrc k i f s).ha = s.ha := id rfl
@[simp] theorem State.modSrc_hb (k i : Nat) (f : Src → Src) (s : State) : (State.modSrc k i f s).hb = s.hb := id rfl
@[simp] theorem State.modSrc_fetched (k i : Nat) (f : Src → Src) (s : State) : (State.modSrc k i f s).fetched = s.fetched := id rfl
@[simp] theorem State.modSrc_running (k i : Nat) (f : Src → Src) (s : State) : (State.modSrc k i f s).running = s.running := id rfl
@[simp] theorem State.modSrc_lastGrant (k i : Nat) (f : Src → Src) (s : State) : (State.modSrc k i f s).lastGrant = s.lastGrant := id rfl
@[simp] theorem State.modSrc_order (k i : Nat) (f : Src → Src) (s : State) : (State.modSrc k i f s).order = s.order := id rfl
@[simp] theorem State.modSrc_transit (k i : Nat) (f : Src → Src) (s : State) : (State.modSrc k i f s).transit = s.transit := id rfl
@[simp] theorem State.modSrc_txns (k i : Nat) (f : Src → Src) (s : State) : (State.modSrc k i f s).txns = s.txns := id rfl
@[simp] theorem State.modSrc_merge (k i : Nat) (f : Src → Src) (s : State) : (State.modSrc k i f s).merge = s.merge := id rfl
@[simp] theorem State.modSrc_arch (k i : Nat) (f : Src → Src) (s : State) : (State.modSrc k i f s).arch = s.arch := id rfl
@[simp] theorem State.modSrc_archKind (k i : Nat) (f : Src → Src) (s : State) : (State.modSrc k i f s).archKind = s.archKind := id rfl
@[simp] theorem State.modSrc_tiles (k i : Nat) (f : Src → Src) (s : State) : (State.modSrc k i f s).tiles = s.tiles := id rfl
@[simp] theorem State.modSrc_lines (k i : Nat) (f : Src → Src) (s : State) : (State.modSrc k i f s).lines = s.lines := id rfl
@[simp] theorem State.modSrc_engines (k i : Nat) (f : Src → Src) (s : State) : (State.modSrc k i f s).engines = s.engines := id rfl
@[simp] theorem State.modSrc_rot (k i : Nat) (f : Src → Src) (s : State) : (State.modSrc k i f s).rot = s.rot := id rfl
@[simp] theorem State.modSrc_pwr (k i : Nat) (f : Src → Src) (s : State) : (State.modSrc k i f s).pwr = s.pwr := id rfl
@[simp] theorem State.modSrc_scaleEn (k i : Nat) (f : Src → Src) (s : State) : (State.modSrc k i f s).scaleEn = s.scaleEn := id rfl
@[simp] theorem State.modSrc_pwrUpdate (k i : Nat) (f : Src → Src) (s : State) : (State.modSrc k i f s).pwrUpdate = s.pwrUpdate := id rfl
@[simp] theorem State.modSrc_sram (k i : Nat) (f : Src → Src) (s : State) : (State.modSrc k i f s).sram = s.sram := id rfl
@[simp] theorem State.modSrc_pipes (k i : Nat) (f : Src → Src) (s : State) : (State.modSrc k i f s).pipes = s.pipes := id rfl
@[simp] theorem State.modSrc_sps (k i : Nat) (f : Src → Src) (s : State) : (State.modSrc k i f s).sps = s.sps := id rfl
@[simp] theorem State.modSrc_dev (k i : Nat) (f : Src → Src) (s : State) : (State.modSrc k i f s).dev = s.dev := id rfl
@[simp] theorem State.modSrc_upd (k i : Nat) (f : Src → Src) (s : State) : (State.modSrc k i f s).upd = s.upd := id rfl
@[simp] theorem State.modSrc_sup (k i : Nat) (f : Src → Src) (s : State) : (State.modSrc k i f s).sup = s.sup := id rfl
@[simp] theorem State.modSrc_start (k i : Nat) (f : Src → Src) (s : State) : (State.modSrc k i f s).start = s.start := id rfl
@[simp] theorem State.modSrc_therm (k i : Nat) (f : Src → Src) (s : State) : (State.modSrc k i f s).therm = s.therm := id rfl
@[simp] theorem State.modSrc_per (k i : Nat) (f : Src → Src) (s : State) : (State.modSrc k i f s).per = s.per := id rfl
@[simp] theorem State.begun_pending (h : Hdr) (s : State) : (State.begun h s).pending = s.pending := by unfold State.begun; split <;> rfl
@[simp] theorem State.begun_power (h : Hdr) (s : State) : (State.begun h s).power = s.power := by unfold State.begun; split <;> rfl
@[simp] theorem State.begun_now (h : Hdr) (s : State) : (State.begun h s).now = s.now := by unfold State.begun; split <;> rfl
@[simp] theorem State.begun_tb (h : Hdr) (s : State) : (State.begun h s).tb = s.tb := by unfold State.begun; split <;> rfl
@[simp] theorem State.begun_lock (h : Hdr) (s : State) : (State.begun h s).lock = s.lock := by unfold State.begun; split <;> rfl
@[simp] theorem State.begun_own (h : Hdr) (s : State) : (State.begun h s).own = s.own := by unfold State.begun; split <;> rfl
@[simp] theorem State.begun_ha (h : Hdr) (s : State) : (State.begun h s).ha = s.ha := by unfold State.begun; split <;> rfl
@[simp] theorem State.begun_hb (h : Hdr) (s : State) : (State.begun h s).hb = s.hb := by unfold State.begun; split <;> rfl
@[simp] theorem State.begun_lastGrant (h : Hdr) (s : State) : (State.begun h s).lastGrant = s.lastGrant := by unfold State.begun; split <;> rfl
@[simp] theorem State.begun_order (h : Hdr) (s : State) : (State.begun h s).order = s.order := by unfold State.begun; split <;> rfl
@[simp] theorem State.begun_transit (h : Hdr) (s : State) : (State.begun h s).transit = s.transit := by unfold State.begun; split <;> rfl
@[simp] theorem State.begun_txns (h : Hdr) (s : State) : (State.begun h s).txns = s.txns := by unfold State.begun; split <;> rfl
@[simp] theorem State.begun_merge (h : Hdr) (s : State) : (State.begun h s).merge = s.merge := by unfold State.begun; split <;> rfl
@[simp] theorem State.begun_arch (h : Hdr) (s : State) : (State.begun h s).arch = s.arch := by unfold State.begun; split <;> rfl
@[simp] theorem State.begun_archKind (h : Hdr) (s : State) : (State.begun h s).archKind = s.archKind := by unfold State.begun; split <;> rfl
@[simp] theorem State.begun_tiles (h : Hdr) (s : State) : (State.begun h s).tiles = s.tiles := by unfold State.begun; split <;> rfl
@[simp] theorem State.begun_lines (h : Hdr) (s : State) : (State.begun h s).lines = s.lines := by unfold State.begun; split <;> rfl
@[simp] theorem State.begun_engines (h : Hdr) (s : State) : (State.begun h s).engines = s.engines := by unfold State.begun; split <;> rfl
@[simp] theorem State.begun_rot (h : Hdr) (s : State) : (State.begun h s).rot = s.rot := by unfold State.begun; split <;> rfl
@[simp] theorem State.begun_pwr (h : Hdr) (s : State) : (State.begun h s).pwr = s.pwr := by unfold State.begun; split <;> rfl
@[simp] theorem State.begun_scaleEn (h : Hdr) (s : State) : (State.begun h s).scaleEn = s.scaleEn := by unfold State.begun; split <;> rfl
@[simp] theorem State.begun_pwrUpdate (h : Hdr) (s : State) : (State.begun h s).pwrUpdate = s.pwrUpdate := by unfold State.begun; split <;> rfl
@[simp] theorem State.begun_sram (h : Hdr) (s : State) : (State.begun h s).sram = s.sram := by unfold State.begun; split <;> rfl
@[simp] theorem State.begun_pipes (h : Hdr) (s : State) : (State.begun h s).pipes = s.pipes := by unfold State.begun; split <;> rfl
@[simp] theorem State.begun_sps (h : Hdr) (s : State) : (State.begun h s).sps = s.sps := by unfold State.begun; split <;> rfl
@[simp] theorem State.begun_blks (h : Hdr) (s : State) : (State.begun h s).blks = s.blks := by unfold State.begun; split <;> rfl
@[simp] theorem State.begun_dev (h : Hdr) (s : State) : (State.begun h s).dev = s.dev := by unfold State.begun; split <;> rfl
@[simp] theorem State.begun_upd (h : Hdr) (s : State) : (State.begun h s).upd = s.upd := by unfold State.begun; split <;> rfl
@[simp] theorem State.begun_sup (h : Hdr) (s : State) : (State.begun h s).sup = s.sup := by unfold State.begun; split <;> rfl
@[simp] theorem State.begun_start (h : Hdr) (s : State) : (State.begun h s).start = s.start := by unfold State.begun; split <;> rfl
@[simp] theorem State.begun_therm (h : Hdr) (s : State) : (State.begun h s).therm = s.therm := by unfold State.begun; split <;> rfl
@[simp] theorem State.begun_per (h : Hdr) (s : State) : (State.begun h s).per = s.per := by unfold State.begun; split <;> rfl
@[simp] theorem State.rouse_pending (k : Nat) (s : State) : (State.rouse k s).pending = s.pending := id rfl
@[simp] theorem State.rouse_power (k : Nat) (s : State) : (State.rouse k s).power = s.power := id rfl
@[simp] theorem State.rouse_now (k : Nat) (s : State) : (State.rouse k s).now = s.now := id rfl
@[simp] theorem State.rouse_tb (k : Nat) (s : State) : (State.rouse k s).tb = s.tb := id rfl
@[simp] theorem State.rouse_lock (k : Nat) (s : State) : (State.rouse k s).lock = s.lock := id rfl
@[simp] theorem State.rouse_own (k : Nat) (s : State) : (State.rouse k s).own = s.own := id rfl
@[simp] theorem State.rouse_ha (k : Nat) (s : State) : (State.rouse k s).ha = s.ha := id rfl
@[simp] theorem State.rouse_hb (k : Nat) (s : State) : (State.rouse k s).hb = s.hb := id rfl
@[simp] theorem State.rouse_fetched (k : Nat) (s : State) : (State.rouse k s).fetched = s.fetched := id rfl
@[simp] theorem State.rouse_running (k : Nat) (s : State) : (State.rouse k s).running = s.running := id rfl
@[simp] theorem State.rouse_lastGrant (k : Nat) (s : State) : (State.rouse k s).lastGrant = s.lastGrant := id rfl
@[simp] theorem State.rouse_order (k : Nat) (s : State) : (State.rouse k s).order = s.order := id rfl
@[simp] theorem State.rouse_transit (k : Nat) (s : State) : (State.rouse k s).transit = s.transit := id rfl
@[simp] theorem State.rouse_txns (k : Nat) (s : State) : (State.rouse k s).txns = s.txns := id rfl
@[simp] theorem State.rouse_merge (k : Nat) (s : State) : (State.rouse k s).merge = s.merge := id rfl
@[simp] theorem State.rouse_arch (k : Nat) (s : State) : (State.rouse k s).arch = s.arch := id rfl
@[simp] theorem State.rouse_archKind (k : Nat) (s : State) : (State.rouse k s).archKind = s.archKind := id rfl
@[simp] theorem State.rouse_tiles (k : Nat) (s : State) : (State.rouse k s).tiles = s.tiles := id rfl
@[simp] theorem State.rouse_lines (k : Nat) (s : State) : (State.rouse k s).lines = s.lines := id rfl
@[simp] theorem State.rouse_engines (k : Nat) (s : State) : (State.rouse k s).engines = s.engines := id rfl
@[simp] theorem State.rouse_rot (k : Nat) (s : State) : (State.rouse k s).rot = s.rot := id rfl
@[simp] theorem State.rouse_scaleEn (k : Nat) (s : State) : (State.rouse k s).scaleEn = s.scaleEn := id rfl
@[simp] theorem State.rouse_pwrUpdate (k : Nat) (s : State) : (State.rouse k s).pwrUpdate = s.pwrUpdate := id rfl
@[simp] theorem State.rouse_sram (k : Nat) (s : State) : (State.rouse k s).sram = s.sram := id rfl
@[simp] theorem State.rouse_pipes (k : Nat) (s : State) : (State.rouse k s).pipes = s.pipes := id rfl
@[simp] theorem State.rouse_sps (k : Nat) (s : State) : (State.rouse k s).sps = s.sps := id rfl
@[simp] theorem State.rouse_blks (k : Nat) (s : State) : (State.rouse k s).blks = s.blks := id rfl
@[simp] theorem State.rouse_dev (k : Nat) (s : State) : (State.rouse k s).dev = s.dev := id rfl
@[simp] theorem State.rouse_upd (k : Nat) (s : State) : (State.rouse k s).upd = s.upd := id rfl
@[simp] theorem State.rouse_sup (k : Nat) (s : State) : (State.rouse k s).sup = s.sup := id rfl
@[simp] theorem State.rouse_start (k : Nat) (s : State) : (State.rouse k s).start = s.start := id rfl
@[simp] theorem State.rouse_therm (k : Nat) (s : State) : (State.rouse k s).therm = s.therm := id rfl
@[simp] theorem State.rouse_per (k : Nat) (s : State) : (State.rouse k s).per = s.per := id rfl
@[simp] theorem State.margin_pending (k j m : Nat) (s : State) : (State.margin k j m s).pending = s.pending := id rfl
@[simp] theorem State.margin_power (k j m : Nat) (s : State) : (State.margin k j m s).power = s.power := id rfl
@[simp] theorem State.margin_now (k j m : Nat) (s : State) : (State.margin k j m s).now = s.now := id rfl
@[simp] theorem State.margin_tb (k j m : Nat) (s : State) : (State.margin k j m s).tb = s.tb := id rfl
@[simp] theorem State.margin_lock (k j m : Nat) (s : State) : (State.margin k j m s).lock = s.lock := id rfl
@[simp] theorem State.margin_own (k j m : Nat) (s : State) : (State.margin k j m s).own = s.own := id rfl
@[simp] theorem State.margin_ha (k j m : Nat) (s : State) : (State.margin k j m s).ha = s.ha := id rfl
@[simp] theorem State.margin_hb (k j m : Nat) (s : State) : (State.margin k j m s).hb = s.hb := id rfl
@[simp] theorem State.margin_fetched (k j m : Nat) (s : State) : (State.margin k j m s).fetched = s.fetched := id rfl
@[simp] theorem State.margin_running (k j m : Nat) (s : State) : (State.margin k j m s).running = s.running := id rfl
@[simp] theorem State.margin_lastGrant (k j m : Nat) (s : State) : (State.margin k j m s).lastGrant = s.lastGrant := id rfl
@[simp] theorem State.margin_order (k j m : Nat) (s : State) : (State.margin k j m s).order = s.order := id rfl
@[simp] theorem State.margin_transit (k j m : Nat) (s : State) : (State.margin k j m s).transit = s.transit := id rfl
@[simp] theorem State.margin_txns (k j m : Nat) (s : State) : (State.margin k j m s).txns = s.txns := id rfl
@[simp] theorem State.margin_merge (k j m : Nat) (s : State) : (State.margin k j m s).merge = s.merge := id rfl
@[simp] theorem State.margin_arch (k j m : Nat) (s : State) : (State.margin k j m s).arch = s.arch := id rfl
@[simp] theorem State.margin_archKind (k j m : Nat) (s : State) : (State.margin k j m s).archKind = s.archKind := id rfl
@[simp] theorem State.margin_tiles (k j m : Nat) (s : State) : (State.margin k j m s).tiles = s.tiles := id rfl
@[simp] theorem State.margin_lines (k j m : Nat) (s : State) : (State.margin k j m s).lines = s.lines := id rfl
@[simp] theorem State.margin_engines (k j m : Nat) (s : State) : (State.margin k j m s).engines = s.engines := id rfl
@[simp] theorem State.margin_rot (k j m : Nat) (s : State) : (State.margin k j m s).rot = s.rot := id rfl
@[simp] theorem State.margin_scaleEn (k j m : Nat) (s : State) : (State.margin k j m s).scaleEn = s.scaleEn := id rfl
@[simp] theorem State.margin_pwrUpdate (k j m : Nat) (s : State) : (State.margin k j m s).pwrUpdate = s.pwrUpdate := id rfl
@[simp] theorem State.margin_sram (k j m : Nat) (s : State) : (State.margin k j m s).sram = s.sram := id rfl
@[simp] theorem State.margin_pipes (k j m : Nat) (s : State) : (State.margin k j m s).pipes = s.pipes := id rfl
@[simp] theorem State.margin_sps (k j m : Nat) (s : State) : (State.margin k j m s).sps = s.sps := id rfl
@[simp] theorem State.margin_blks (k j m : Nat) (s : State) : (State.margin k j m s).blks = s.blks := id rfl
@[simp] theorem State.margin_dev (k j m : Nat) (s : State) : (State.margin k j m s).dev = s.dev := id rfl
@[simp] theorem State.margin_upd (k j m : Nat) (s : State) : (State.margin k j m s).upd = s.upd := id rfl
@[simp] theorem State.margin_sup (k j m : Nat) (s : State) : (State.margin k j m s).sup = s.sup := id rfl
@[simp] theorem State.margin_start (k j m : Nat) (s : State) : (State.margin k j m s).start = s.start := id rfl
@[simp] theorem State.margin_therm (k j m : Nat) (s : State) : (State.margin k j m s).therm = s.therm := id rfl
@[simp] theorem State.margin_per (k j m : Nat) (s : State) : (State.margin k j m s).per = s.per := id rfl
@[simp] theorem State.modPort_pending (p : PortId) (f : Port → Port) (s : State) : (State.modPort p f s).pending = s.pending := by cases p <;> rfl
@[simp] theorem State.modPort_power (p : PortId) (f : Port → Port) (s : State) : (State.modPort p f s).power = s.power := by cases p <;> rfl
@[simp] theorem State.modPort_now (p : PortId) (f : Port → Port) (s : State) : (State.modPort p f s).now = s.now := by cases p <;> rfl
@[simp] theorem State.modPort_tb (p : PortId) (f : Port → Port) (s : State) : (State.modPort p f s).tb = s.tb := by cases p <;> rfl
@[simp] theorem State.modPort_lock (p : PortId) (f : Port → Port) (s : State) : (State.modPort p f s).lock = s.lock := by cases p <;> rfl
@[simp] theorem State.modPort_own (p : PortId) (f : Port → Port) (s : State) : (State.modPort p f s).own = s.own := by cases p <;> rfl
@[simp] theorem State.modPort_fetched (p : PortId) (f : Port → Port) (s : State) : (State.modPort p f s).fetched = s.fetched := by cases p <;> rfl
@[simp] theorem State.modPort_running (p : PortId) (f : Port → Port) (s : State) : (State.modPort p f s).running = s.running := by cases p <;> rfl
@[simp] theorem State.modPort_lastGrant (p : PortId) (f : Port → Port) (s : State) : (State.modPort p f s).lastGrant = s.lastGrant := by cases p <;> rfl
@[simp] theorem State.modPort_order (p : PortId) (f : Port → Port) (s : State) : (State.modPort p f s).order = s.order := by cases p <;> rfl
@[simp] theorem State.modPort_transit (p : PortId) (f : Port → Port) (s : State) : (State.modPort p f s).transit = s.transit := by cases p <;> rfl
@[simp] theorem State.modPort_txns (p : PortId) (f : Port → Port) (s : State) : (State.modPort p f s).txns = s.txns := by cases p <;> rfl
@[simp] theorem State.modPort_merge (p : PortId) (f : Port → Port) (s : State) : (State.modPort p f s).merge = s.merge := by cases p <;> rfl
@[simp] theorem State.modPort_arch (p : PortId) (f : Port → Port) (s : State) : (State.modPort p f s).arch = s.arch := by cases p <;> rfl
@[simp] theorem State.modPort_archKind (p : PortId) (f : Port → Port) (s : State) : (State.modPort p f s).archKind = s.archKind := by cases p <;> rfl
@[simp] theorem State.modPort_tiles (p : PortId) (f : Port → Port) (s : State) : (State.modPort p f s).tiles = s.tiles := by cases p <;> rfl
@[simp] theorem State.modPort_lines (p : PortId) (f : Port → Port) (s : State) : (State.modPort p f s).lines = s.lines := by cases p <;> rfl
@[simp] theorem State.modPort_engines (p : PortId) (f : Port → Port) (s : State) : (State.modPort p f s).engines = s.engines := by cases p <;> rfl
@[simp] theorem State.modPort_rot (p : PortId) (f : Port → Port) (s : State) : (State.modPort p f s).rot = s.rot := by cases p <;> rfl
@[simp] theorem State.modPort_pwr (p : PortId) (f : Port → Port) (s : State) : (State.modPort p f s).pwr = s.pwr := by cases p <;> rfl
@[simp] theorem State.modPort_scaleEn (p : PortId) (f : Port → Port) (s : State) : (State.modPort p f s).scaleEn = s.scaleEn := by cases p <;> rfl
@[simp] theorem State.modPort_pwrUpdate (p : PortId) (f : Port → Port) (s : State) : (State.modPort p f s).pwrUpdate = s.pwrUpdate := by cases p <;> rfl
@[simp] theorem State.modPort_sram (p : PortId) (f : Port → Port) (s : State) : (State.modPort p f s).sram = s.sram := by cases p <;> rfl
@[simp] theorem State.modPort_pipes (p : PortId) (f : Port → Port) (s : State) : (State.modPort p f s).pipes = s.pipes := by cases p <;> rfl
@[simp] theorem State.modPort_sps (p : PortId) (f : Port → Port) (s : State) : (State.modPort p f s).sps = s.sps := by cases p <;> rfl
@[simp] theorem State.modPort_blks (p : PortId) (f : Port → Port) (s : State) : (State.modPort p f s).blks = s.blks := by cases p <;> rfl
@[simp] theorem State.modPort_dev (p : PortId) (f : Port → Port) (s : State) : (State.modPort p f s).dev = s.dev := by cases p <;> rfl
@[simp] theorem State.modPort_upd (p : PortId) (f : Port → Port) (s : State) : (State.modPort p f s).upd = s.upd := by cases p <;> rfl
@[simp] theorem State.modPort_sup (p : PortId) (f : Port → Port) (s : State) : (State.modPort p f s).sup = s.sup := by cases p <;> rfl
@[simp] theorem State.modPort_start (p : PortId) (f : Port → Port) (s : State) : (State.modPort p f s).start = s.start := by cases p <;> rfl
@[simp] theorem State.modPort_therm (p : PortId) (f : Port → Port) (s : State) : (State.modPort p f s).therm = s.therm := by cases p <;> rfl
@[simp] theorem State.modPort_per (p : PortId) (f : Port → Port) (s : State) : (State.modPort p f s).per = s.per := by cases p <;> rfl
@[simp] theorem State.advance_pending (τ : Tick) (s : State) : (State.advance τ s).pending = s.pending := by unfold State.advance; split <;> rfl
@[simp] theorem State.advance_tb (τ : Tick) (s : State) : (State.advance τ s).tb = s.tb := by unfold State.advance; split <;> rfl
@[simp] theorem State.advance_lock (τ : Tick) (s : State) : (State.advance τ s).lock = s.lock := by unfold State.advance; split <;> rfl
@[simp] theorem State.advance_own (τ : Tick) (s : State) : (State.advance τ s).own = s.own := by unfold State.advance; split <;> rfl
@[simp] theorem State.advance_ha (τ : Tick) (s : State) : (State.advance τ s).ha = s.ha := by unfold State.advance; split <;> rfl
@[simp] theorem State.advance_hb (τ : Tick) (s : State) : (State.advance τ s).hb = s.hb := by unfold State.advance; split <;> rfl
@[simp] theorem State.advance_fetched (τ : Tick) (s : State) : (State.advance τ s).fetched = s.fetched := by unfold State.advance; split <;> rfl
@[simp] theorem State.advance_running (τ : Tick) (s : State) : (State.advance τ s).running = s.running := by unfold State.advance; split <;> rfl
@[simp] theorem State.advance_lastGrant (τ : Tick) (s : State) : (State.advance τ s).lastGrant = s.lastGrant := by unfold State.advance; split <;> rfl
@[simp] theorem State.advance_order (τ : Tick) (s : State) : (State.advance τ s).order = s.order := by unfold State.advance; split <;> rfl
@[simp] theorem State.advance_transit (τ : Tick) (s : State) : (State.advance τ s).transit = s.transit := by unfold State.advance; split <;> rfl
@[simp] theorem State.advance_txns (τ : Tick) (s : State) : (State.advance τ s).txns = s.txns := by unfold State.advance; split <;> rfl
@[simp] theorem State.advance_merge (τ : Tick) (s : State) : (State.advance τ s).merge = s.merge := by unfold State.advance; split <;> rfl
@[simp] theorem State.advance_arch (τ : Tick) (s : State) : (State.advance τ s).arch = s.arch := by unfold State.advance; split <;> rfl
@[simp] theorem State.advance_archKind (τ : Tick) (s : State) : (State.advance τ s).archKind = s.archKind := by unfold State.advance; split <;> rfl
@[simp] theorem State.advance_lines (τ : Tick) (s : State) : (State.advance τ s).lines = s.lines := by unfold State.advance; split <;> rfl
@[simp] theorem State.advance_engines (τ : Tick) (s : State) : (State.advance τ s).engines = s.engines := by unfold State.advance; split <;> rfl
@[simp] theorem State.advance_pwr (τ : Tick) (s : State) : (State.advance τ s).pwr = s.pwr := by unfold State.advance; split <;> rfl
@[simp] theorem State.advance_scaleEn (τ : Tick) (s : State) : (State.advance τ s).scaleEn = s.scaleEn := by unfold State.advance; split <;> rfl
@[simp] theorem State.advance_pwrUpdate (τ : Tick) (s : State) : (State.advance τ s).pwrUpdate = s.pwrUpdate := by unfold State.advance; split <;> rfl
@[simp] theorem State.advance_sram (τ : Tick) (s : State) : (State.advance τ s).sram = s.sram := by unfold State.advance; split <;> rfl
@[simp] theorem State.advance_pipes (τ : Tick) (s : State) : (State.advance τ s).pipes = s.pipes := by unfold State.advance; split <;> rfl
@[simp] theorem State.advance_sps (τ : Tick) (s : State) : (State.advance τ s).sps = s.sps := by unfold State.advance; split <;> rfl
@[simp] theorem State.advance_blks (τ : Tick) (s : State) : (State.advance τ s).blks = s.blks := by unfold State.advance; split <;> rfl
@[simp] theorem State.advance_upd (τ : Tick) (s : State) : (State.advance τ s).upd = s.upd := by unfold State.advance; split <;> rfl
@[simp] theorem State.advance_sup (τ : Tick) (s : State) : (State.advance τ s).sup = s.sup := by unfold State.advance; split <;> rfl
@[simp] theorem State.advance_therm (τ : Tick) (s : State) : (State.advance τ s).therm = s.therm := by unfold State.advance; split <;> rfl
@[simp] theorem State.advance_per (τ : Tick) (s : State) : (State.advance τ s).per = s.per := by unfold State.advance; split <;> rfl
@[simp] theorem State.cmdMargin_pending (h : Hdr) (op : Nat) (s : State) : (State.cmdMargin h op s).pending = s.pending := by unfold State.cmdMargin; split <;> rfl
@[simp] theorem State.cmdMargin_power (h : Hdr) (op : Nat) (s : State) : (State.cmdMargin h op s).power = s.power := by unfold State.cmdMargin; split <;> rfl
@[simp] theorem State.cmdMargin_now (h : Hdr) (op : Nat) (s : State) : (State.cmdMargin h op s).now = s.now := by unfold State.cmdMargin; split <;> rfl
@[simp] theorem State.cmdMargin_tb (h : Hdr) (op : Nat) (s : State) : (State.cmdMargin h op s).tb = s.tb := by unfold State.cmdMargin; split <;> rfl
@[simp] theorem State.cmdMargin_lock (h : Hdr) (op : Nat) (s : State) : (State.cmdMargin h op s).lock = s.lock := by unfold State.cmdMargin; split <;> rfl
@[simp] theorem State.cmdMargin_own (h : Hdr) (op : Nat) (s : State) : (State.cmdMargin h op s).own = s.own := by unfold State.cmdMargin; split <;> rfl
@[simp] theorem State.cmdMargin_ha (h : Hdr) (op : Nat) (s : State) : (State.cmdMargin h op s).ha = s.ha := by unfold State.cmdMargin; split <;> rfl
@[simp] theorem State.cmdMargin_hb (h : Hdr) (op : Nat) (s : State) : (State.cmdMargin h op s).hb = s.hb := by unfold State.cmdMargin; split <;> rfl
@[simp] theorem State.cmdMargin_fetched (h : Hdr) (op : Nat) (s : State) : (State.cmdMargin h op s).fetched = s.fetched := by unfold State.cmdMargin; split <;> rfl
@[simp] theorem State.cmdMargin_running (h : Hdr) (op : Nat) (s : State) : (State.cmdMargin h op s).running = s.running := by unfold State.cmdMargin; split <;> rfl
@[simp] theorem State.cmdMargin_lastGrant (h : Hdr) (op : Nat) (s : State) : (State.cmdMargin h op s).lastGrant = s.lastGrant := by unfold State.cmdMargin; split <;> rfl
@[simp] theorem State.cmdMargin_order (h : Hdr) (op : Nat) (s : State) : (State.cmdMargin h op s).order = s.order := by unfold State.cmdMargin; split <;> rfl
@[simp] theorem State.cmdMargin_transit (h : Hdr) (op : Nat) (s : State) : (State.cmdMargin h op s).transit = s.transit := by unfold State.cmdMargin; split <;> rfl
@[simp] theorem State.cmdMargin_txns (h : Hdr) (op : Nat) (s : State) : (State.cmdMargin h op s).txns = s.txns := by unfold State.cmdMargin; split <;> rfl
@[simp] theorem State.cmdMargin_merge (h : Hdr) (op : Nat) (s : State) : (State.cmdMargin h op s).merge = s.merge := by unfold State.cmdMargin; split <;> rfl
@[simp] theorem State.cmdMargin_arch (h : Hdr) (op : Nat) (s : State) : (State.cmdMargin h op s).arch = s.arch := by unfold State.cmdMargin; split <;> rfl
@[simp] theorem State.cmdMargin_archKind (h : Hdr) (op : Nat) (s : State) : (State.cmdMargin h op s).archKind = s.archKind := by unfold State.cmdMargin; split <;> rfl
@[simp] theorem State.cmdMargin_tiles (h : Hdr) (op : Nat) (s : State) : (State.cmdMargin h op s).tiles = s.tiles := by unfold State.cmdMargin; split <;> rfl
@[simp] theorem State.cmdMargin_lines (h : Hdr) (op : Nat) (s : State) : (State.cmdMargin h op s).lines = s.lines := by unfold State.cmdMargin; split <;> rfl
@[simp] theorem State.cmdMargin_engines (h : Hdr) (op : Nat) (s : State) : (State.cmdMargin h op s).engines = s.engines := by unfold State.cmdMargin; split <;> rfl
@[simp] theorem State.cmdMargin_rot (h : Hdr) (op : Nat) (s : State) : (State.cmdMargin h op s).rot = s.rot := by unfold State.cmdMargin; split <;> rfl
@[simp] theorem State.cmdMargin_scaleEn (h : Hdr) (op : Nat) (s : State) : (State.cmdMargin h op s).scaleEn = s.scaleEn := by unfold State.cmdMargin; split <;> rfl
@[simp] theorem State.cmdMargin_pwrUpdate (h : Hdr) (op : Nat) (s : State) : (State.cmdMargin h op s).pwrUpdate = s.pwrUpdate := by unfold State.cmdMargin; split <;> rfl
@[simp] theorem State.cmdMargin_sram (h : Hdr) (op : Nat) (s : State) : (State.cmdMargin h op s).sram = s.sram := by unfold State.cmdMargin; split <;> rfl
@[simp] theorem State.cmdMargin_pipes (h : Hdr) (op : Nat) (s : State) : (State.cmdMargin h op s).pipes = s.pipes := by unfold State.cmdMargin; split <;> rfl
@[simp] theorem State.cmdMargin_sps (h : Hdr) (op : Nat) (s : State) : (State.cmdMargin h op s).sps = s.sps := by unfold State.cmdMargin; split <;> rfl
@[simp] theorem State.cmdMargin_blks (h : Hdr) (op : Nat) (s : State) : (State.cmdMargin h op s).blks = s.blks := by unfold State.cmdMargin; split <;> rfl
@[simp] theorem State.cmdMargin_dev (h : Hdr) (op : Nat) (s : State) : (State.cmdMargin h op s).dev = s.dev := by unfold State.cmdMargin; split <;> rfl
@[simp] theorem State.cmdMargin_upd (h : Hdr) (op : Nat) (s : State) : (State.cmdMargin h op s).upd = s.upd := by unfold State.cmdMargin; split <;> rfl
@[simp] theorem State.cmdMargin_sup (h : Hdr) (op : Nat) (s : State) : (State.cmdMargin h op s).sup = s.sup := by unfold State.cmdMargin; split <;> rfl
@[simp] theorem State.cmdMargin_start (h : Hdr) (op : Nat) (s : State) : (State.cmdMargin h op s).start = s.start := by unfold State.cmdMargin; split <;> rfl
@[simp] theorem State.cmdMargin_therm (h : Hdr) (op : Nat) (s : State) : (State.cmdMargin h op s).therm = s.therm := by unfold State.cmdMargin; split <;> rfl
@[simp] theorem State.cmdMargin_per (h : Hdr) (op : Nat) (s : State) : (State.cmdMargin h op s).per = s.per := by unfold State.cmdMargin; split <;> rfl
@[simp] theorem State.taken_pending (h : Hdr) (op : Nat) (s : State) : (State.taken h op s).pending = s.pending := by rcases s.taken_cases h op with e | ⟨f, fs, e⟩ <;> simp [e]
@[simp] theorem State.taken_power (h : Hdr) (op : Nat) (s : State) : (State.taken h op s).power = s.power := by rcases s.taken_cases h op with e | ⟨f, fs, e⟩ <;> simp [e]
@[simp] theorem State.taken_tb (h : Hdr) (op : Nat) (s : State) : (State.taken h op s).tb = s.tb := by rcases s.taken_cases h op with e | ⟨f, fs, e⟩ <;> simp [e]
@[simp] theorem State.taken_running (h : Hdr) (op : Nat) (s : State) : (State.taken h op s).running = s.running := by rcases s.taken_cases h op with e | ⟨f, fs, e⟩ <;> simp [e]
@[simp] theorem State.taken_lastGrant (h : Hdr) (op : Nat) (s : State) : (State.taken h op s).lastGrant = s.lastGrant := by rcases s.taken_cases h op with e | ⟨f, fs, e⟩ <;> simp [e]
@[simp] theorem State.taken_order (h : Hdr) (op : Nat) (s : State) : (State.taken h op s).order = s.order := by rcases s.taken_cases h op with e | ⟨f, fs, e⟩ <;> simp [e]
@[simp] theorem State.taken_transit (h : Hdr) (op : Nat) (s : State) : (State.taken h op s).transit = s.transit := by rcases s.taken_cases h op with e | ⟨f, fs, e⟩ <;> simp [e]
@[simp] theorem State.taken_txns (h : Hdr) (op : Nat) (s : State) : (State.taken h op s).txns = s.txns := by rcases s.taken_cases h op with e | ⟨f, fs, e⟩ <;> simp [e]
@[simp] theorem State.taken_merge (h : Hdr) (op : Nat) (s : State) : (State.taken h op s).merge = s.merge := by rcases s.taken_cases h op with e | ⟨f, fs, e⟩ <;> simp [e]
@[simp] theorem State.taken_arch (h : Hdr) (op : Nat) (s : State) : (State.taken h op s).arch = s.arch := by rcases s.taken_cases h op with e | ⟨f, fs, e⟩ <;> simp [e]
@[simp] theorem State.taken_archKind (h : Hdr) (op : Nat) (s : State) : (State.taken h op s).archKind = s.archKind := by rcases s.taken_cases h op with e | ⟨f, fs, e⟩ <;> simp [e]
@[simp] theorem State.taken_lines (h : Hdr) (op : Nat) (s : State) : (State.taken h op s).lines = s.lines := by rcases s.taken_cases h op with e | ⟨f, fs, e⟩ <;> simp [e]
@[simp] theorem State.taken_engines (h : Hdr) (op : Nat) (s : State) : (State.taken h op s).engines = s.engines := by rcases s.taken_cases h op with e | ⟨f, fs, e⟩ <;> simp [e]
@[simp] theorem State.taken_pwr (h : Hdr) (op : Nat) (s : State) : (State.taken h op s).pwr = s.pwr := by rcases s.taken_cases h op with e | ⟨f, fs, e⟩ <;> simp [e]
@[simp] theorem State.taken_scaleEn (h : Hdr) (op : Nat) (s : State) : (State.taken h op s).scaleEn = s.scaleEn := by rcases s.taken_cases h op with e | ⟨f, fs, e⟩ <;> simp [e]
@[simp] theorem State.taken_pwrUpdate (h : Hdr) (op : Nat) (s : State) : (State.taken h op s).pwrUpdate = s.pwrUpdate := by rcases s.taken_cases h op with e | ⟨f, fs, e⟩ <;> simp [e]
@[simp] theorem State.taken_sram (h : Hdr) (op : Nat) (s : State) : (State.taken h op s).sram = s.sram := by rcases s.taken_cases h op with e | ⟨f, fs, e⟩ <;> simp [e]
@[simp] theorem State.taken_pipes (h : Hdr) (op : Nat) (s : State) : (State.taken h op s).pipes = s.pipes := by rcases s.taken_cases h op with e | ⟨f, fs, e⟩ <;> simp [e]
@[simp] theorem State.taken_sps (h : Hdr) (op : Nat) (s : State) : (State.taken h op s).sps = s.sps := by rcases s.taken_cases h op with e | ⟨f, fs, e⟩ <;> simp [e]
@[simp] theorem State.taken_blks (h : Hdr) (op : Nat) (s : State) : (State.taken h op s).blks = s.blks := by rcases s.taken_cases h op with e | ⟨f, fs, e⟩ <;> simp [e]
@[simp] theorem State.taken_upd (h : Hdr) (op : Nat) (s : State) : (State.taken h op s).upd = s.upd := by rcases s.taken_cases h op with e | ⟨f, fs, e⟩ <;> simp [e]
@[simp] theorem State.taken_sup (h : Hdr) (op : Nat) (s : State) : (State.taken h op s).sup = s.sup := by rcases s.taken_cases h op with e | ⟨f, fs, e⟩ <;> simp [e]
@[simp] theorem State.taken_therm (h : Hdr) (op : Nat) (s : State) : (State.taken h op s).therm = s.therm := by rcases s.taken_cases h op with e | ⟨f, fs, e⟩ <;> simp [e]
@[simp] theorem State.taken_per (h : Hdr) (op : Nat) (s : State) : (State.taken h op s).per = s.per := by rcases s.taken_cases h op with e | ⟨f, fs, e⟩ <;> simp [e]
@[simp] theorem State.begins_pending (h : Hdr) (op : Nat) (s : State) : (State.begins h op s).pending = s.pending := by simp [State.begins, State.fetchedAt]
@[simp] theorem State.begins_power (h : Hdr) (op : Nat) (s : State) : (State.begins h op s).power = s.power := by simp [State.begins, State.fetchedAt]
@[simp] theorem State.begins_tb (h : Hdr) (op : Nat) (s : State) : (State.begins h op s).tb = s.tb := by simp [State.begins, State.fetchedAt]
@[simp] theorem State.begins_lock (h : Hdr) (op : Nat) (s : State) : (State.begins h op s).lock = s.lock := by simp [State.begins, State.fetchedAt]
@[simp] theorem State.begins_own (h : Hdr) (op : Nat) (s : State) : (State.begins h op s).own = s.own := by simp [State.begins, State.fetchedAt]
@[simp] theorem State.begins_lastGrant (h : Hdr) (op : Nat) (s : State) : (State.begins h op s).lastGrant = s.lastGrant := by simp [State.begins, State.fetchedAt]
@[simp] theorem State.begins_order (h : Hdr) (op : Nat) (s : State) : (State.begins h op s).order = s.order := by simp [State.begins, State.fetchedAt]
@[simp] theorem State.begins_transit (h : Hdr) (op : Nat) (s : State) : (State.begins h op s).transit = s.transit := by simp [State.begins, State.fetchedAt]
@[simp] theorem State.begins_txns (h : Hdr) (op : Nat) (s : State) : (State.begins h op s).txns = s.txns := by simp [State.begins, State.fetchedAt]
@[simp] theorem State.begins_merge (h : Hdr) (op : Nat) (s : State) : (State.begins h op s).merge = s.merge := by simp [State.begins, State.fetchedAt]
@[simp] theorem State.begins_arch (h : Hdr) (op : Nat) (s : State) : (State.begins h op s).arch = s.arch := by simp [State.begins, State.fetchedAt]
@[simp] theorem State.begins_archKind (h : Hdr) (op : Nat) (s : State) : (State.begins h op s).archKind = s.archKind := by simp [State.begins, State.fetchedAt]
@[simp] theorem State.begins_tiles (h : Hdr) (op : Nat) (s : State) : (State.begins h op s).tiles = s.tiles := by simp [State.begins, State.fetchedAt]
@[simp] theorem State.begins_lines (h : Hdr) (op : Nat) (s : State) : (State.begins h op s).lines = s.lines := by simp [State.begins, State.fetchedAt]
@[simp] theorem State.begins_engines (h : Hdr) (op : Nat) (s : State) : (State.begins h op s).engines = s.engines := by simp [State.begins, State.fetchedAt]
@[simp] theorem State.begins_rot (h : Hdr) (op : Nat) (s : State) : (State.begins h op s).rot = s.rot := by simp [State.begins, State.fetchedAt]
@[simp] theorem State.begins_scaleEn (h : Hdr) (op : Nat) (s : State) : (State.begins h op s).scaleEn = s.scaleEn := by simp [State.begins, State.fetchedAt]
@[simp] theorem State.begins_pwrUpdate (h : Hdr) (op : Nat) (s : State) : (State.begins h op s).pwrUpdate = s.pwrUpdate := by simp [State.begins, State.fetchedAt]
@[simp] theorem State.begins_sram (h : Hdr) (op : Nat) (s : State) : (State.begins h op s).sram = s.sram := by simp [State.begins, State.fetchedAt]
@[simp] theorem State.begins_pipes (h : Hdr) (op : Nat) (s : State) : (State.begins h op s).pipes = s.pipes := by simp [State.begins, State.fetchedAt]
@[simp] theorem State.begins_sps (h : Hdr) (op : Nat) (s : State) : (State.begins h op s).sps = s.sps := by simp [State.begins, State.fetchedAt]
@[simp] theorem State.begins_blks (h : Hdr) (op : Nat) (s : State) : (State.begins h op s).blks = s.blks := by simp [State.begins, State.fetchedAt]
@[simp] theorem State.begins_dev (h : Hdr) (op : Nat) (s : State) : (State.begins h op s).dev = s.dev := by simp [State.begins, State.fetchedAt]
@[simp] theorem State.begins_upd (h : Hdr) (op : Nat) (s : State) : (State.begins h op s).upd = s.upd := by simp [State.begins, State.fetchedAt]
@[simp] theorem State.begins_sup (h : Hdr) (op : Nat) (s : State) : (State.begins h op s).sup = s.sup := by simp [State.begins, State.fetchedAt]
@[simp] theorem State.begins_start (h : Hdr) (op : Nat) (s : State) : (State.begins h op s).start = s.start := by simp [State.begins, State.fetchedAt]
@[simp] theorem State.begins_therm (h : Hdr) (op : Nat) (s : State) : (State.begins h op s).therm = s.therm := by simp [State.begins, State.fetchedAt]
@[simp] theorem State.begins_per (h : Hdr) (op : Nat) (s : State) : (State.begins h op s).per = s.per := by simp [State.begins, State.fetchedAt]
@[simp] theorem State.begins_now (h : Hdr) (op : Nat) (s : State) : (State.begins h op s).now = (s.advance h.at_).now := by simp [State.begins, State.fetchedAt]
@[simp] theorem State.begins_tile (h : Hdr) (op t : Nat) (s : State) : (State.begins h op s).tile t = s.tile t := by simp only [State.tile, State.begins_tiles]
@[simp] theorem State.begins_chan (h : Hdr) (op t c : Nat) (s : State) : (State.begins h op s).chan t c = s.chan t c := by simp only [State.chan, State.begins_tile]
@[simp] theorem State.begins_ctx (h : Hdr) (op p c : Nat) (s : State) : (State.begins h op s).ctx p c = s.ctx p c := by simp only [State.ctx, State.pipe, State.begins_pipes]
@[simp] theorem State.begins_pipe (h : Hdr) (op p : Nat) (s : State) : (State.begins h op s).pipe p = s.pipe p := by simp only [State.pipe, State.begins_pipes]
@[simp] theorem State.begins_blk (h : Hdr) (op k : Nat) (s : State) : (State.begins h op s).blk k = s.blk k := by simp only [State.blk, State.begins_blks]
@[simp] theorem State.rouse_tile (k t : Nat) (s : State) : (State.rouse k s).tile t = s.tile t := id rfl
@[simp] theorem Port.modRing_enable (r : Nat) (f : Ring → Ring) (P : Port) : (P.modRing r f).enable = P.enable := id rfl
@[simp] theorem Port.modRing_dbPoll (r : Nat) (f : Ring → Ring) (P : Port) : (P.modRing r f).dbPoll = P.dbPoll := id rfl
@[simp] theorem Port.modRing_live (r : Nat) (f : Ring → Ring) (P : Port) : (P.modRing r f).live = P.live := id rfl
@[simp] theorem Port.modRing_linkUp (r : Nat) (f : Ring → Ring) (P : Port) : (P.modRing r f).linkUp = P.linkUp := id rfl
@[simp] theorem Port.modRing_busMaster (r : Nat) (f : Ring → Ring) (P : Port) : (P.modRing r f).busMaster = P.busMaster := id rfl
@[simp] theorem Port.modRing_speed (r : Nat) (f : Ring → Ring) (P : Port) : (P.modRing r f).speed = P.speed := id rfl
@[simp] theorem Port.modRing_width (r : Nat) (f : Ring → Ring) (P : Port) : (P.modRing r f).width = P.width := id rfl
@[simp] theorem Port.modRing_l1 (r : Nat) (f : Ring → Ring) (P : Port) : (P.modRing r f).l1 = P.l1 := id rfl
@[simp] theorem Port.modRing_dbErr (r : Nat) (f : Ring → Ring) (P : Port) : (P.modRing r f).dbErr = P.dbErr := id rfl
@[simp] theorem Port.modRing_fellAt (r : Nat) (f : Ring → Ring) (P : Port) : (P.modRing r f).fellAt = P.fellAt := id rfl
@[simp] theorem Port.modRing_dbLo (r : Nat) (f : Ring → Ring) (P : Port) : (P.modRing r f).dbLo = P.dbLo := id rfl
@[simp] theorem Port.modRing_dbHi (r : Nat) (f : Ring → Ring) (P : Port) : (P.modRing r f).dbHi = P.dbHi := id rfl
@[simp] theorem Port.modRing_subSrc (r : Nat) (f : Ring → Ring) (P : Port) : (P.modRing r f).subSrc = P.subSrc := id rfl
@[simp] theorem Port.modRing_subKind (r : Nat) (f : Ring → Ring) (P : Port) : (P.modRing r f).subKind = P.subKind := id rfl
@[simp] theorem Port.modRing_staging (r : Nat) (f : Ring → Ring) (P : Port) : (P.modRing r f).staging = P.staging := id rfl
@[simp] theorem Port.modRing_dropCnt (r : Nat) (f : Ring → Ring) (P : Port) : (P.modRing r f).dropCnt = P.dropCnt := id rfl
@[simp] theorem Port.modRing_dropFirst (r : Nat) (f : Ring → Ring) (P : Port) : (P.modRing r f).dropFirst = P.dropFirst := id rfl
@[simp] theorem Port.modRing_dropLast (r : Nat) (f : Ring → Ring) (P : Port) : (P.modRing r f).dropLast = P.dropLast := id rfl
@[simp] theorem Port.modRing_pollAgain (r : Nat) (f : Ring → Ring) (P : Port) : (P.modRing r f).pollAgain = P.pollAgain := id rfl
@[simp] theorem Port.modRing_pollAt (r : Nat) (f : Ring → Ring) (P : Port) : (P.modRing r f).pollAt = P.pollAt := id rfl
@[simp] theorem Port.modRing_cs (r : Nat) (f : Ring → Ring) (P : Port) : (P.modRing r f).cs = P.cs := id rfl
@[simp] theorem Port.modRing_owed (r : Nat) (f : Ring → Ring) (P : Port) : (P.modRing r f).owed = P.owed := id rfl
@[simp] theorem Port.modRing_tbHi (r : Nat) (f : Ring → Ring) (P : Port) : (P.modRing r f).tbHi = P.tbHi := id rfl
@[simp] theorem Port.modRing_tbLo (r : Nat) (f : Ring → Ring) (P : Port) : (P.modRing r f).tbLo = P.tbLo := id rfl
@[simp] theorem Port.modRing_catDisc (r : Nat) (f : Ring → Ring) (P : Port) : (P.modRing r f).catDisc = P.catDisc := id rfl
@[simp] theorem Port.modRing_catLast (r : Nat) (f : Ring → Ring) (P : Port) : (P.modRing r f).catLast = P.catLast := id rfl
@[simp] theorem Port.modRing_msix (r : Nat) (f : Ring → Ring) (P : Port) : (P.modRing r f).msix = P.msix := id rfl
@[simp] theorem Port.modRing_pba (r : Nat) (f : Ring → Ring) (P : Port) : (P.modRing r f).pba = P.pba := id rfl
@[simp] theorem Port.modRing_rr (r : Nat) (f : Ring → Ring) (P : Port) : (P.modRing r f).rr = P.rr := id rfl
@[simp] theorem Port.modRing_out (r : Nat) (f : Ring → Ring) (P : Port) : (P.modRing r f).out = P.out := id rfl
@[simp] theorem Tile.modChan_powered (c : Nat) (f : Chan → Chan) (T : Tile) : (T.modChan c f).powered = T.powered := id rfl
@[simp] theorem Tile.modChan_lp (c : Nat) (f : Chan → Chan) (T : Tile) : (T.modChan c f).lp = T.lp := id rfl
@[simp] theorem Tile.modChan_reen (c : Nat) (f : Chan → Chan) (T : Tile) : (T.modChan c f).reen = T.reen := id rfl
@[simp] theorem Tile.modChan_chatN (c : Nat) (f : Chan → Chan) (T : Tile) : (T.modChan c f).chatN = T.chatN := id rfl
@[simp] theorem Tile.modChan_chatW (c : Nat) (f : Chan → Chan) (T : Tile) : (T.modChan c f).chatW = T.chatW := id rfl
@[simp] theorem Tile.modChan_tpWidth (c : Nat) (f : Chan → Chan) (T : Tile) : (T.modChan c f).tpWidth = T.tpWidth := id rfl
@[simp] theorem Tile.modChan_tpPeriod (c : Nat) (f : Chan → Chan) (T : Tile) : (T.modChan c f).tpPeriod = T.tpPeriod := id rfl
@[simp] theorem Tile.modChan_heatRef (c : Nat) (f : Chan → Chan) (T : Tile) : (T.modChan c f).heatRef = T.heatRef := id rfl
@[simp] theorem Tile.modChan_excRef (c : Nat) (f : Chan → Chan) (T : Tile) : (T.modChan c f).excRef = T.excRef := id rfl
@[simp] theorem Tile.modChan_crNow (c : Nat) (f : Chan → Chan) (T : Tile) : (T.modChan c f).crNow = T.crNow := id rfl
@[simp] theorem Tile.modChan_railFault (c : Nat) (f : Chan → Chan) (T : Tile) : (T.modChan c f).railFault = T.railFault := id rfl
@[simp] theorem Tile.modChan_railSeen (c : Nat) (f : Chan → Chan) (T : Tile) : (T.modChan c f).railSeen = T.railSeen := id rfl
@[simp] theorem Tile.modChan_railLow (c : Nat) (f : Chan → Chan) (T : Tile) : (T.modChan c f).railLow = T.railLow := id rfl
@[simp] theorem Tile.modChan_railHigh (c : Nat) (f : Chan → Chan) (T : Tile) : (T.modChan c f).railHigh = T.railHigh := id rfl
@[simp] theorem Tile.modChan_cjc (c : Nat) (f : Chan → Chan) (T : Tile) : (T.modChan c f).cjc = T.cjc := id rfl
@[simp] theorem Tile.modChan_tdie (c : Nat) (f : Chan → Chan) (T : Tile) : (T.modChan c f).tdie = T.tdie := id rfl
@[simp] theorem Tile.modChan_cjcFixed (c : Nat) (f : Chan → Chan) (T : Tile) : (T.modChan c f).cjcFixed = T.cjcFixed := id rfl
@[simp] theorem Tile.modChan_mirs (c : Nat) (f : Chan → Chan) (T : Tile) : (T.modChan c f).mirs = T.mirs := id rfl
@[simp] theorem Tile.modChan_cv (c : Nat) (f : Chan → Chan) (T : Tile) : (T.modChan c f).cv = T.cv := id rfl
@[simp] theorem Tile.modChan_seqs (c : Nat) (f : Chan → Chan) (T : Tile) : (T.modChan c f).seqs = T.seqs := id rfl
@[simp] theorem Tile.modChan_rules (c : Nat) (f : Chan → Chan) (T : Tile) : (T.modChan c f).rules = T.rules := id rfl
@[simp] theorem Tile.modChan_rfxLat (c : Nat) (f : Chan → Chan) (T : Tile) : (T.modChan c f).rfxLat = T.rfxLat := id rfl
@[simp] theorem Tile.modChan_link (c : Nat) (f : Chan → Chan) (T : Tile) : (T.modChan c f).link = T.link := id rfl
@[simp] theorem Tile.modChan_saf (c : Nat) (f : Chan → Chan) (T : Tile) : (T.modChan c f).saf = T.saf := id rfl
@[simp] theorem Tile.modChan_evSeq (c : Nat) (f : Chan → Chan) (T : Tile) : (T.modChan c f).evSeq = T.evSeq := id rfl
@[simp] theorem Tile.modChan_vitHa (c : Nat) (f : Chan → Chan) (T : Tile) : (T.modChan c f).vitHa = T.vitHa := id rfl
@[simp] theorem Tile.modChan_vitHb (c : Nat) (f : Chan → Chan) (T : Tile) : (T.modChan c f).vitHb = T.vitHb := id rfl
@[simp] theorem Tile.modChan_vitDisc (c : Nat) (f : Chan → Chan) (T : Tile) : (T.modChan c f).vitDisc = T.vitDisc := id rfl
@[simp] theorem Tile.modChan_bound (c : Nat) (f : Chan → Chan) (T : Tile) : (T.modChan c f).bound = T.bound := id rfl
@[simp] theorem Tile.modChan_rotating (c : Nat) (f : Chan → Chan) (T : Tile) : (T.modChan c f).rotating = T.rotating := id rfl
@[simp] theorem Tile.modChan_engine (c : Nat) (f : Chan → Chan) (T : Tile) : (T.modChan c f).engine = T.engine := id rfl

end Sys2Proof.Machine
end

