-- ==== Sys2Proof/Machine/Package.lean ====
section
/-!
DEFINITION. The ball map (15 R466 to R468): which ball stands at a row and column of the 44 × 44 field, viewed from the
lid side.
-/
namespace Sys2Proof.Machine

/-- The balls of a tile's island (15 Table 15-11). -/
inductive TileBall where
  | chan (c : Nat)
  | lplus
  | m
  | lx
  | cr
  deriving DecidableEq, Repr

/-- The pins of a serial port in the ten-pin order (15 R468). -/
inductive SpPin where
  | sck
  | sckr
  | d (lane : Nat)
  | cs (n : Nat)
  deriving DecidableEq, Repr

/-- The hub's balls (15 R468, Table 15-12). -/
inductive HubBall where
  | sp (port : Nat) (pin : SpPin)
  | refclk | sync | wake | alive
  | fsafe | porst | perst (p : PortId) | recov | tmode
  | gnd | vio | viso | vka | vcore | vphy
  | tx (p : PortId) (lane : Nat) (neg : Bool)
  | rx (p : PortId) (lane : Nat) (neg : Bool)
  | clk (p : PortId) (neg : Bool)
  deriving DecidableEq, Repr

/-- The pull of a board pin (15 Table 15-6). -/
inductive Pull where
  | none | up | down
  | upInReset
  deriving DecidableEq, Repr

/-- The pull of each board pin (15 R462, Table 15-6): none on a pin that the table gives none. -/
def HubBall.pull : HubBall → Pull
  | .fsafe | .porst | .perst _ | .tmode => .down
  | .recov => .up
  | .sp _ (.cs _) => .upInReset
  | _ => .none

/-- The board pins that are inputs at all times (15 R462, Table 15-6); SYNC and the data pins of a serial port turn. -/
def HubBall.isInput : HubBall → Bool
  | .refclk | .wake | .fsafe | .porst | .perst _ | .recov | .tmode | .clk _ _ | .rx _ _ _ => true
  | .sp _ .sckr => true
  | _ => false

/-- A ball of the package. -/
inductive Ball where
  | tile (t : Nat) (b : TileBall)
  | hub (b : HubBall)
  deriving DecidableEq, Repr

/-- The ball at depth `d` and place `k` of an island (15 Table 15-11). -/
def islandBall (d k : Nat) : TileBall :=
  if d ≤ 5 then (if 7 * (d - 1) + (k - 1) < 32 then .chan (7 * (d - 1) + (k - 1)) else .lplus)
  else if d = 6 then (if k ≤ 3 then .lplus else .m)
  else if d = 7 then (if k ≤ 5 then .m else .lx)
  else if k ≤ 6 then .m
  else .cr

/-- The row and column of depth `d` and place `k` of tile `t`'s island (15 Table 15-10). -/
def islandAt (t d k : Nat) : Nat × Nat :=
  let j := 9 * (t % 4) + k
  match t / 4 with
  | 0 => (d, j)
  | 1 => (j, 45 - d)
  | 2 => (45 - d, 45 - j)
  | _ => (45 - j, d)

/-- The pin of a serial port at its place 0 to 9 (15 R468). -/
def spPinAt (i : Nat) : SpPin :=
  match i with
  | 0 => .sck
  | 1 => .sckr
  | _ => if i < 6 then .d (i - 2) else .cs (i - 6)

/-- Place `i` of a square ring whose corners are `a` and `b`, taken rightward along row `a`, up column `b`, leftward along
row `b` and down column `a` (15 R468). -/
def ringAt (a b i : Nat) : Nat × Nat :=
  let n := b - a
  match i / n with
  | 0 => (a, a + i % n)
  | 1 => (a + i % n, b)
  | 2 => (b, b - i % n)
  | _ => (b - i % n, a)

/-- Position `i` of the 144 of rings 1 and 2 (15 R468). -/
def hubRingAt (i : Nat) : Nat × Nat := if i < 76 then ringAt 13 32 i else ringAt 14 31 (i - 76)

/-- The ball of position `i` of rings 1 and 2 (15 R468). -/
def hubRingBall (i : Nat) : HubBall :=
  if i < 140 then .sp (i / 10) (spPinAt (i % 10))
  else if i = 140 then .refclk
  else if i = 141 then .sync
  else if i = 142 then .wake
  else .alive

/-- The balls of a port's row of the inner hub field (15 Table 15-12, rows 29 and 30). -/
def portRowBall (p : PortId) (col : Nat) : HubBall :=
  if col < 19 then .tx p ((col - 15) / 2) ((col - 15) % 2 = 1)
  else if col < 23 then .rx p ((col - 19) / 2) ((col - 19) % 2 = 1)
  else if col < 25 then .clk p (col = 24)
  else if col < 28 then .vphy
  else .gnd

/-- The ball at a position of the inner hub field (15 Table 15-12). -/
def innerBall (row col : Nat) : HubBall :=
  match row with
  | 15 =>
    if col < 25 then .sp 14 (spPinAt (col - 15))
    else [HubBall.fsafe, .porst, .perst .ha, .perst .hb, .recov, .tmode].getD (col - 25) .gnd
  | 16 => if col < 25 then .sp 15 (spPinAt (col - 15)) else .gnd
  | 17 => .vio
  | 18 | 19 => if col ≤ 26 then .viso else .gnd
  | 20 => if col ≤ 16 then .vka else .gnd
  | 29 => portRowBall .ha col
  | 30 => portRowBall .hb col
  | _ => if (row + col) % 2 = 0 then .vcore else .gnd

/-- The ball at a row and column, both counted from 1; none where the position is empty (15 R466). -/
def ballAt (row col : Nat) : Option Ball :=
  let inner (r c : Nat) : Bool := 15 ≤ r && r ≤ 30 && 15 ≤ c && c ≤ 30
  if inner row col then some (.hub (innerBall row col))
  else match (List.range 144).find? fun i => hubRingAt i = (row, col) with
    | some i => some (.hub (hubRingBall i))
    | none => (List.range 16).findSome? fun t => (List.range 8).findSome? fun d => (List.range 7).findSome? fun k =>
        if islandAt t (d + 1) (k + 1) = (row, col) then some (.tile t (islandBall (d + 1) (k + 1))) else none

end Sys2Proof.Machine
end

