-- ==== Sys2Proof/WellFormed.lean ====
section
/-!
DEFINITION. What a command's operands can carry: the widths of the descriptor's fields (07 Table 7-5), and the ranges
of the places a happening can fall on (00 R2, R3).
-/
namespace Sys2Proof

/-- The fields of a descriptor fit their bytes, and its ring exists. -/
def Hdr.wf (h : Hdr) : Bool :=
  h.ring < 64 && h.cnt < 2 ^ 64 && h.tag < 2 ^ 32 && h.deadline < 2 ^ 64 && h.arg < 65536

/-- A port's command ring number. -/
def ringOk (r : Nat) : Bool := r < 64

/-- Every operand lies in the range that its row can carry. -/
def Instr.wf : Instr → Bool
  | .nop h | .timeRead h | .outCancel h | .chTrimZero h | .chTrimReset h | .rfxStatus h | .seqArm h | .seqDisarm h
  | .streamStop h | .spAbort h | .tileOffline h | .tileReadmit h | .imageRevert h | .imageRecover h | .settingsSave h
  | .imageErase h => h.wf
  | .chMode h mode par _ _ _ => h.wf && mode < 32 && par < 4
  | .outSet h commit value => h.wf && commit < 2 ^ 64 && value < 2 ^ 32
  | .mirForceOff h commit | .mirForceOn h commit | .mirRelease h commit => h.wf && commit < 2 ^ 64
  | .chTrimSet h ofs gain => h.wf && ofs < 2 ^ 24 && gain < 2 ^ 24
  | .chTrimSpan h ref => h.wf && ref < 2 ^ 24
  | .rfxWrite h _ _ _ _ | .rfxEnable h _ | .inject h _ => h.wf
  | .seqTrigger h tick => h.wf && tick < 2 ^ 64
  | .calibrate h conv | .calibrateExcl h conv => h.wf && conv < 4
  | .streamStart h ring => h.wf && ring < 256
  | .streamSource h c => h.wf && c < 256
  | .bankLoad h image => h.wf && image.length = 1536 && image.all fun w => -32768 ≤ w && w ≤ 32767
  | .bankSelect h bank f => h.wf && bank < 256 && f < 65536
  | .spFrame h r res _ => h.wf && res < 2 ^ 64 && r.cmd < 65536 && r.addr < 2 ^ 32 && r.count < 65536
  | .faultAck h mask => h.wf && mask < 65536
  | .logRead h log count addr start => h.wf && log < 256 && count < 65536 && addr < 2 ^ 64 && start < 2 ^ 32
  | .rotate h _ => h.wf
  | .imageWrite h _ offset len bytes _ => h.wf && offset < 2 ^ 22 && len < 2 ^ 32 && bytes.length ≤ 65536
  | .imageVerify h _ _ | .imageConfirm h _ => h.wf
  | .imageActivateLive h _ secs | .imageActivateRestart h _ secs => h.wf && secs < 2 ^ 32
  | .catRead h start count addr => h.wf && start < 2 ^ 32 && count < 65536 && addr < 2 ^ 64
  | .catWrite h start count words => h.wf && start < 2 ^ 32 && count < 65536 && words.length ≤ 1024
  | .lock h key | .unlock h key => h.wf && key < 2 ^ 32
  | .claim h cls first | .release h cls first | .handover h cls first | .takeover h cls first
  | .ownerQuery h cls first => h.wf && cls < 256 && first < 65536
  | .txnSubmit h commit members =>
    h.wf && commit < 2 ^ 64 && members.all fun m => m.g < 65536 && m.action < 256 && m.value < 2 ^ 32
  | .txnCancel h tag => h.wf && tag < 2 ^ 32
  | .doorbellPoll _ _ prods _ => prods.length ≤ 64
  | .nudge _ _ offset _ => offset < 0x4000
  | .descriptorFetch _ _ ring d => ringOk ring && d.opcode < 256 && d.flags < 256 && d.arg < 65536
  | .commandWaitDeadline _ _ ring _ => ringOk ring
  | .msixMessage _ _ ring => ring < 119
  | .ringError _ _ ring kind => ringOk ring && 1 ≤ kind && kind ≤ 3
  | .ringEnable _ _ ring val => ringOk ring && val.toNat.testBit 31
  | .ringDisable _ _ ring val => ringOk ring && !val.toNat.testBit 31
  | .portEnable _ _ _ | .portReset _ _ _ | .orderHorizonWrite _ _ _ | .tbNowLoRead _ _ | .powerOn _ _ _ | .brownOut _
  | .porstFall _ | .startup _ _ _ _ _ | .startupComplete _ | .vkaLoss _ | .fallowEntry _ | .wakeCrossing _
  | .fsafeFall _ | .deviceScopeEnd _ | .syncEdge _ | .syncLeadPulse _ | .syncLost _ | .trimSaveTimer _
  | .eventRelease _ | .horizonEpisodeEnd _ | .rotationLoadEnd _ _ | .rotationPrecopyEnd _ _ | .rotationGapStart _
  | .rotationHandover _ | .rotationGapTimeout _ | .powerReportRenewal _ _ | .netCheck _ | .aliveGateService _
  | .aliveGateTimeout _ | .hubTempSample _ _ | .stormWindowEnd _ | .plogMirrorWrite _ _ | .sessionTimeout _
  | .activationSvSwitch _ _ | .trialExpiry _ | .svLockstepMismatch _ | .fsafeRise _ | .pcieUncorrectableError _ _ _
  | .aliveEdge _ => true
  | .portLiveChange _ _ _ _ speed width _ => speed < 3 && width < 3
  | .channelRegWrite _ _ t c reg _ => t < 16 && c < 32 && reg < 3
  | .trimRegWrite _ _ t c reg _ => t < 16 && c < 32 && reg < 2
  | .rfxRegWrite _ _ t r reg _ => t < 16 && r < 64 && reg < 4
  | .seqCfgArm _ _ t n val => t < 16 && n < 8 && val.toNat.testBit 31
  | .seqCfgDisarm _ _ t n val => t < 16 && n < 8 && !val.toNat.testBit 31
  | .refEnable _ _ t val => t < 16 && val.toNat.testBit 31
  | .refDisable _ _ t val => t < 16 && !val.toNat.testBit 31
  | .injCfgWrite _ _ t _ | .doTestWrite _ _ t _ | .rfxLatClear _ _ t _ | .vitCapture _ _ t _ => t < 16
  | .registerWrite _ _ addr dwords be _ => addr < 0x100000 && addr % 4 = 0 && 1 ≤ dwords && be < 16
  | .depotImageLoadEnd _ n _ => n < 18
  | .supplyThreshold _ rail _ => rail < 5
  | .refReady _ t _ | .barrierTransferStart _ t | .barrierTransferLoss _ t | .barrierTransferResume _ t
  | .lplusSample _ t _ | .reenergiseSlot _ t | .crailSample _ t _ | .tileTempSample _ t _ _ _ | .dmdResult _ t _
  | .calPeriodStart _ t | .refCompare _ t _ | .watchdogService _ t | .watchdogExpiry _ t | .linkReturn _ t _
  | .repairHandover _ t | .tileOfflineComplete _ t | .readmissionComplete _ t _ _ => t < 16
  | .inputCrossing _ t c _ | .sieveAccession _ t c | .chatterWindowEnd _ t c | .stuckTimeout _ t c | .dicGateEnd _ t c
  | .trimButtonHold _ t c | .trimButtonStuck _ t c | .trimCaptureTimeout _ t c | .outputCommit _ t c
  | .shortGndDetect _ t c | .overloadRetry _ t c | .thermalShutdown _ t c | .thermalReenable _ t c | .overDecl _ t c
  | .openOn _ t c _ | .offStateCheck _ t c _ | .darkPulse _ t c _ _ | .pinClamp _ t c _ _ | .surge _ t c _ _
  | .surgeEnd _ t c | .aoReadback _ t c _ | .aiiFoldback _ t c | .aiiRetry _ t c _
  | .excitationCycleCheck _ t c _ _ | .mirrorPeriodStart _ t c => t < 16 && c < 32
  | .txnMemberArrival _ _ _ t | .txnReady _ _ _ t | .txnDecisionArrival _ _ _ t | .txnCommit _ _ _ t
  | .txnAccessionReport _ _ _ t => t < 16
  | .txnDecision _ _ _ => true
  | .outputActionArrival _ _ ring _ => ringOk ring
  | .seqTimerTrigger _ t n | .heldTriggerRelease _ t n | .slotStart _ t n | .scanDeadline _ t n
  | .speculativeScanStart _ t n | .specConfirmTimeout _ t n => t < 16 && n < 8
  | .conversionEnd _ t conv _ | .rangingReattempt _ t conv | .injectStart _ t conv | .calStep _ t conv _ _ =>
    t < 16 && conv < 2
  | .injectDeadline _ t _ ring _ => t < 16 && ringOk ring
  | .lineChangeHub _ l => l < 64
  | .lineChangeTile _ t l => t < 16 && l < 64
  | .laneFailure _ t lanes => t < 16 && lanes < 8
  | .linkFrameCorrupted _ t lane => t < 16 && lane < 3
  | .eventArrivalMerge _ src => src < 17
  | .pipelineInput _ p => p < 16
  | .blockTimeout _ p s | .streamDeliveryDeadline _ p s => p < 16 && s < 32
  | .sramScrub _ bank row _ => bank < 256 && row < 4096
  | .sramDoubleBitError _ bank row _ => bank < 256 && row < 4096
  | .railAdjust _ k _ | .marginRecovery _ k | .retentionEntry _ k => k < 312
  | .presentEnd _ k i => k < 55 && i < 16
  | .selfchkCompare _ k diff => k < 55 && diff < 65536
  | .spFrameStart _ n | .sckrStrayEdge _ n => n < 16
  | .spFrameEnd _ n words _ => n < 16 && words.length ≤ 1024

end Sys2Proof
end

