-- ==== Sys2Proof/Tests/Slice0.lean ====
section
/-!
SUPPORT. Tests of the model: terms that the well-formedness checks refuse, witnesses that the hypotheses of the statements
can be met together, and single steps with results read off the specification's tables.
-/
namespace Sys2Proof.Tests

set_option maxRecDepth 40000

open Sys2Proof Sys2Proof.Machine

/-! ## Small states -/

/-- The header of a command of HA on ring 0. -/
def hdr (arg : Nat) : Hdr :=
  { at_ := 0, port := .ha, ring := 0, cnt := 0, tag := 1, deadline := 0, silent := false, fence := false, arg := arg }

/-- In service with every tile powered; nothing is owned. -/
def base : State := { tiles := (List.range 16).map fun t => { engine := t, powered := true }, start := { phase := .complete } }

/-- The same with everything owned by HA. -/
def own : State :=
  let all := [512, 128, 512, 64, 16].map fun n => List.replicate n (some PortId.ha)
  { base with own := { tab := all, start := all, mid := all } }

/-- The same with everything owned by HB, whose port is down. -/
def peer : State :=
  let all := [512, 128, 512, 64, 16].map fun n => List.replicate n (some PortId.hb)
  { base with own := { tab := all, start := all, mid := all } }

/-- Port HA runs: ring 1 takes completions, ring 2 takes events, ring 3 blocks of one sample, ring 0 commands. -/
def live (s : State) : State := s.modPort .ha fun P => { P with
  enable := true, live := true, linkUp := true, busMaster := true,
  rings := [{ en := true, cq := 1, size := 4, prod := 1 }, { en := true, ty := 1, size := 4 }, { en := true, ty := 2, size := 4, unsig := true },
    { en := true, ty := 3, size := 4 }] ++ List.replicate 60 {} }

/-! ## Well-formedness refuses -/

theorem wf_hdr : (Instr.nop { hdr 0 with ring := 64 }).wf = false ∧ (Instr.nop { hdr 0 with cnt := 2 ^ 64 }).wf = false ∧
    (Instr.nop { hdr 0 with tag := 2 ^ 32 }).wf = false ∧ (Instr.nop { hdr 0 with deadline := 2 ^ 64 }).wf = false ∧
    (Instr.nop (hdr 65536)).wf = false ∧ (Instr.nop (hdr 65535)).wf = true := by decide
theorem wf_channel : (Instr.chMode (hdr 0) 32 0 false 0 0).wf = false ∧ (Instr.chMode (hdr 0) 0 4 false 0 0).wf = false ∧
    (Instr.outSet (hdr 0) (2 ^ 64) 0).wf = false ∧ (Instr.outSet (hdr 0) 0 (2 ^ 32)).wf = false ∧
    (Instr.mirForceOn (hdr 0) (2 ^ 64)).wf = false ∧ (Instr.chTrimSet (hdr 0) (2 ^ 24) 0).wf = false ∧
    (Instr.chTrimSet (hdr 0) 0 (2 ^ 24)).wf = false ∧ (Instr.chTrimSpan (hdr 0) (2 ^ 24)).wf = false := by decide
theorem wf_sequence : (Instr.seqTrigger (hdr 0) (2 ^ 64)).wf = false ∧ (Instr.calibrate (hdr 0) 4).wf = false ∧
    (Instr.streamStart (hdr 0) 256).wf = false ∧ (Instr.streamSource (hdr 0) 256).wf = false ∧
    (Instr.bankSelect (hdr 0) 256 0).wf = false ∧ (Instr.bankSelect (hdr 0) 0 65536).wf = false ∧
    (Instr.bankLoad (hdr 0) [0]).wf = false := by decide

theorem wf_bankWord : (Instr.bankLoad (hdr 0) (List.replicate 1536 (-32769))).wf = false := by decide
theorem wf_frame : (Instr.spFrame (hdr 0) ⟨65536, 0, 0, 0, 0, 0, 8, 0, 0, 0, []⟩ 0 false).wf = false ∧
    (Instr.spFrame (hdr 0) ⟨0, 0, 0, 2 ^ 32, 0, 0, 8, 0, 0, 0, []⟩ 0 false).wf = false ∧
    (Instr.spFrame (hdr 0) ⟨0, 0, 0, 0, 0, 0, 8, 0, 65536, 0, []⟩ 0 false).wf = false ∧
    (Instr.spFrame (hdr 0) ⟨0, 0, 0, 0, 0, 0, 8, 0, 0, 0, []⟩ (2 ^ 64) false).wf = false := by decide
theorem wf_service : (Instr.faultAck (hdr 0) 65536).wf = false ∧ (Instr.logRead (hdr 0) 256 1 0 0).wf = false ∧
    (Instr.logRead (hdr 0) 0 65536 0 0).wf = false ∧ (Instr.logRead (hdr 0) 0 1 (2 ^ 64) 0).wf = false ∧
    (Instr.logRead (hdr 0) 0 1 0 (2 ^ 32)).wf = false ∧ (Instr.imageWrite (hdr 0) false (2 ^ 22) 0 [] false).wf = false ∧
    (Instr.imageWrite (hdr 0) false 0 (2 ^ 32) [] false).wf = false ∧ (Instr.imageActivateLive (hdr 0) false (2 ^ 32)).wf = false ∧
    (Instr.imageActivateRestart (hdr 0) false (2 ^ 32)).wf = false := by decide
theorem wf_catalogue : (Instr.catRead (hdr 0) (2 ^ 32) 1 0).wf = false ∧ (Instr.catRead (hdr 0) 0 65536 0).wf = false ∧
    (Instr.catRead (hdr 0) 0 1 (2 ^ 64)).wf = false ∧ (Instr.catWrite (hdr 0) (2 ^ 32) 1 []).wf = false ∧
    (Instr.catWrite (hdr 0) 0 65536 []).wf = false ∧ (Instr.lock (hdr 0) (2 ^ 32)).wf = false ∧
    (Instr.unlock (hdr 0) (2 ^ 32)).wf = false ∧ (Instr.claim (hdr 0) 256 0).wf = false ∧
    (Instr.claim (hdr 0) 0 65536).wf = false := by decide
theorem wf_txn : (Instr.txnSubmit (hdr 1) (2 ^ 64) []).wf = false ∧ (Instr.txnSubmit (hdr 1) 0 [⟨65536, 0, 0⟩]).wf = false ∧
    (Instr.txnSubmit (hdr 1) 0 [⟨0, 256, 0⟩]).wf = false ∧ (Instr.txnSubmit (hdr 1) 0 [⟨0, 0, 2 ^ 32⟩]).wf = false ∧
    (Instr.txnCancel (hdr 0) (2 ^ 32)).wf = false ∧ (Instr.txnMemberArrival 0 .ha 1 16).wf = false := by decide
theorem wf_port : (Instr.doorbellPoll 0 .ha (List.replicate 65 0) false).wf = false ∧ (Instr.nudge 0 .ha 0x4000 0).wf = false ∧
    (Instr.descriptorFetch 0 .ha 64 ⟨0, 0, 0, 0, 0, 0⟩).wf = false ∧ (Instr.descriptorFetch 0 .ha 0 ⟨256, 0, 0, 0, 0, 0⟩).wf = false ∧
    (Instr.descriptorFetch 0 .ha 0 ⟨0, 256, 0, 0, 0, 0⟩).wf = false ∧ (Instr.descriptorFetch 0 .ha 0 ⟨0, 0, 65536, 0, 0, 0⟩).wf = false ∧
    (Instr.commandWaitDeadline 0 .ha 64 0).wf = false ∧ (Instr.msixMessage 0 .ha 119).wf = false ∧
    (Instr.ringError 0 .ha 64 1).wf = false ∧ (Instr.ringError 0 .ha 0 0).wf = false ∧ (Instr.ringError 0 .ha 0 4).wf = false ∧
    (Instr.ringEnable 0 .ha 0 0).wf = false ∧ (Instr.ringDisable 0 .ha 0 0x80000000).wf = false ∧
    (Instr.portLiveChange 0 .ha true true 3 0 false).wf = false ∧ (Instr.portLiveChange 0 .ha true true 0 3 false).wf = false := by decide
theorem wf_register : (Instr.channelRegWrite 0 .ha 16 0 0 0).wf = false ∧ (Instr.channelRegWrite 0 .ha 0 32 0 0).wf = false ∧
    (Instr.channelRegWrite 0 .ha 0 0 3 0).wf = false ∧ (Instr.trimRegWrite 0 .ha 0 0 2 0).wf = false ∧
    (Instr.rfxRegWrite 0 .ha 0 64 0 0).wf = false ∧ (Instr.rfxRegWrite 0 .ha 0 0 4 0).wf = false ∧
    (Instr.seqCfgArm 0 .ha 0 0 0).wf = false ∧ (Instr.seqCfgArm 0 .ha 0 8 0x80000000).wf = false ∧
    (Instr.seqCfgDisarm 0 .ha 0 0 0x80000000).wf = false ∧ (Instr.refEnable 0 .ha 0 0).wf = false ∧
    (Instr.refDisable 0 .ha 0 0x80000000).wf = false ∧ (Instr.injCfgWrite 0 .ha 16 0).wf = false ∧
    (Instr.registerWrite 0 .ha 0x100000 1 15 0).wf = false ∧ (Instr.registerWrite 0 .ha 2 1 15 0).wf = false ∧
    (Instr.registerWrite 0 .ha 0 0 15 0).wf = false ∧ (Instr.registerWrite 0 .ha 0 1 16 0).wf = false := by decide

theorem wf_place : (Instr.depotImageLoadEnd 0 18 true).wf = false ∧ (Instr.supplyThreshold 0 5 0).wf = false ∧
    (Instr.lplusSample 0 16 0).wf = false ∧ (Instr.inputCrossing 0 16 0 true).wf = false ∧ (Instr.inputCrossing 0 0 32 true).wf = false ∧
    (Instr.outputActionArrival 0 .ha 64 0).wf = false ∧ (Instr.slotStart 0 0 8).wf = false ∧ (Instr.rangingReattempt 0 0 2).wf = false ∧
    (Instr.injectDeadline 0 0 .ha 64 0).wf = false ∧ (Instr.lineChangeHub 0 64).wf = false ∧ (Instr.lineChangeTile 0 0 64).wf = false ∧
    (Instr.laneFailure 0 0 8).wf = false ∧ (Instr.linkFrameCorrupted 0 0 3).wf = false ∧ (Instr.eventArrivalMerge 0 17).wf = false ∧
    (Instr.pipelineInput 0 16).wf = false ∧ (Instr.blockTimeout 0 0 32).wf = false ∧ (Instr.sramScrub 0 256 0 true).wf = false ∧
    (Instr.sramScrub 0 0 4096 true).wf = false ∧ (Instr.sramDoubleBitError 0 0 4096 0).wf = false ∧ (Instr.railAdjust 0 312 0).wf = false ∧
    (Instr.presentEnd 0 55 0).wf = false ∧ (Instr.presentEnd 0 0 16).wf = false ∧ (Instr.selfchkCompare 0 0 65536).wf = false ∧
    (Instr.spFrameStart 0 16).wf = false ∧ (Instr.spFrameEnd 0 0 (List.replicate 1025 0) 0).wf = false := by decide

/-! ## Witnesses: hypotheses that can be met -/

theorem witness_IdleStepCountsOneTick : State.reset.pending = [] ∧ State.reset.power = .running ∧
    ({ base with tb := { mode := 1, slewLeft := 3, rate := 1 } } : State).tb.slewCnt < 4999 ∧
    (let s : State := { base with tb := { mode := 1, slewLeft := 3, slewCnt := 4999, rate := -1 } }
     s.tb.mode = 1 ∧ s.tb.slewLeft ≠ 0 ∧ 4999 ≤ s.tb.slewCnt) ∧ base.tb.slewLeft = 0 := by decide
theorem witness_CommandsLeaveQueue : (Instr.nop (hdr 0)).withinRatings = true ∧ (Instr.surge 0 0 0 0 5000).withinRatings = true ∧
    (Instr.surge 0 0 0 0 5001).withinRatings = false ∧ (Instr.pinClamp 0 0 0 true (-60001)).withinRatings = false ∧
    (Instr.lplusSample 0 0 6001).withinRatings = false ∧ (Instr.supplyThreshold 0 3 6001).withinRatings = false := by decide
theorem witness_StoppedDeviceKeepsItsState :
    ({ base with power := .held } : State).power ≠ .running ∧ (Instr.nop (hdr 0)).whileStopped = false := by decide
theorem witness_EndOfStepAddsNothingWhenQuiet : base.quiet = true := by decide
theorem witness_NoReactionWaitsBetweenCommands : base.dev.todo = [] := rfl
theorem witness_StoreStaysCanonical : Memory.wf [(0, 1), (5, 0)] = true := by decide
theorem witness_OnlyImageCommandsWriteTheStore :
    (∀ h k o n bs f, Instr.imageErase (hdr 0) ≠ .imageWrite h k o n bs f) ∧ ∀ h k f, Instr.imageErase (hdr 0) ≠ .imageVerify h k f :=
  ⟨fun _ _ _ _ _ _ h => (by cases h), fun _ _ _ h => (by cases h)⟩
theorem witness_ImageWriteStoresItsBytesAndNoOthers : base.lets (hdr 0) 0x80 [] false = true ∧ Memory.wf base.per.cells = true ∧
    (base.advance 0).sessionBad (hdr 0) = none ∧ writeBad true (0x100000 - 64) 64 (List.replicate 64 7) = none ∧
    writeBad false 0 64 (List.replicate 64 7) = none ∧ base.upd.stage.busy = false := by decide
theorem witness_OnlySettingCommandsChangeSettings : (Instr.outSet (hdr 0) 0 1).sets = false := rfl
theorem witness_OnlyTheirCommandsChangeLockOwnersAndSupplies : (Instr.outSet (hdr 0) 0 1).steers = false := rfl
theorem witness_CompletionIsWrittenToItsRing :
    (live base).portRuns .ha = true ∧ (((live base).port .ha).ring 1).active = true ∧ (((live base).port .ha).ring 1).ty = 1 ∧
    ((live base).ha.ring 0).cq = 1 ∧ (((live base).port .ha).ring 1).free 1 = true ∧
    ((((live base).port .ha).modRing 1 fun q => { q with cons := 4096 }).ring 1).free 1 = false ∧ base.portRuns .ha = false ∧ ({ hdr 0 with silent := true } : Hdr).silent = true := by decide
theorem witness_RefusedCommandsCompleteInCheckOrder :
    ({ base with dev := { base.dev with grave := true } } : State).dev.grave = true ∧ base.dev.grave = false ∧
    (badField 16).st ≠ 5 ∧ ([(0, 3)].find? fun x => decide (base.owner x.1 x.2 ≠ some .ha)) = some (0, 3) ∧
    (∀ x ∈ [(0, 511)], own.owner x.1 x.2 = some .ha) ∧ State.reset.phaseLets {} = false ∧ own.phaseLets {} = true ∧
    ({ own with now := 6 } : State).past { hdr 0 with deadline := 5 } = true ∧ own.past (hdr 0) = false ∧ ((base.taken (hdr 0) 0).turn (hdr 0) 0 = true) ∧
    (base.taken (hdr 0) 0).turn (hdr 0) 1 = false ∧ (base.tile 0).bound = true ∧
    (let s : State := { base with rot := { busy := true, tile := 0, phase := .ready }, now := 10 * ms }
     s.holdsBack 0 = true ∧ s.engineless 0 = false) ∧
    ((base.modTile 0 fun T => { T with bound := false }).tile 0).bound = false ∧
    ({ own with lock := { locked := true, key := 1 } } : State).locked = true ∧ own.locked = false ∧
    ((own.modLink 0 fun L => { L with life := .offline }).engineless 0 ||
      !([Life.online].contains ((own.modLink 0 fun L => { L with life := .offline }).tile 0).link.life)) = true := by decide
theorem witness_QueriesOnlyComplete : base.lets (hdr 15) 0x00 [] false = true ∧ base.lets (hdr 15) 0x01 [] false = true ∧
    base.lets (hdr 15) 0xA4 [] false = true ∧ base.lets (hdr 15) 0x1A [] false = true ∧ ownBad 4 15 1 48 = none ∧ ownBad 0 464 48 48 = none ∧
    base.serves 0 15 = true := by decide
theorem witness_OwnershipRequestsMoveTheirRange : own.lets (hdr 2) 0xA0 [] false = true ∧ own.lets (hdr 2) 0xA1 [] false = true ∧
    own.lets (hdr 2) 0xA2 [] false = true ∧ (peer.begins (hdr 2) 0xA3).downMs .hb < 10 ∧ peer.lets (hdr 2) 0xA3 [] false = true ∧
    (((peer.begins (hdr 2) 0xA0).judges .ha).view .ha).of 0 510 = some PortId.hb ∧ ownBad 0 510 2 512 = none ∧
    own.own.tick ≠ some (own.begins (hdr 2) 0xA0).now ∧ (∀ k < 2, own.own.tab.of 0 (510 + k) ≠ some PortId.hb) ∧
    (∀ k < 2, own.own.tab.of 0 (510 + k) = some PortId.ha) ∧
    (let s : State := { peer with now := 10 * ms, hb := { fellAt := some 0 } }
     s.lets (hdr 2) 0xA3 [] false = true ∧ (s.begins (hdr 2) 0xA3).downMs .hb = 10 ∧ (s.port .hb).live = false) := by decide
theorem witness_LockAndUnlockByKey : base.lets (hdr 0) 0x92 [] false = true ∧ base.lock.locked = false ∧
    (let s : State := { base with lock := { locked := true, key := 7, fails := 8 } }
     s.lets (hdr 0) 0x92 [] false = true ∧ s.lock.locked = true ∧ s.lock.lastWrong = none ∧ (7 = s.lock.key ∧ 8 ≠ s.lock.key)) ∧
    (let s : State := { base with lock := { locked := true, key := 7, fails := 8, lastWrong := some 0 } }
     let v := (s.begins (hdr 0) 0x92).lockSeen .ha
     v.locked = true ∧ 8 ≤ v.fails ∧ v.lastWrong = some 0 ∧ (s.begins (hdr 0) 0x92).now < 0 + sec) := by decide
theorem witness_FaultAckClearsNamedLatchedSources : base.lets (hdr 54) 0x70 [] false = true ∧ (hdr 54).arg < 55 ∧
    (base.tile (35 - 35)).lost = false ∧ (base.tile (50 - 35)).lost = false ∧
    (({ base.raise 54 0 0 0 0 with now := 1 } : State).begins (hdr 54) 0x70).ackable 54 1 = [0] := by decide
theorem witness_LogAndCatalogueReadsWriteHostMemory : base.lets (hdr 0) 0x71 [] false = true ∧ base.lets (hdr 0) 0x90 [] false = true ∧ 64 % 64 = 0 ∧
    catBad 0x100 1024 0 = none ∧ catBad 0 1 4 = none := by decide
theorem witness_CatalogueWriteActsAsRegisterWrites : base.lets (hdr 0) 0x91 [] false = true ∧ catBad 0x120 1 0 = none ∧
    (let s : State := { base with lock := { locked := true, key := 7 } }
     (s.begins (hdr 0) 0x91).locked = true) ∧
    ([0x20000] : List Nat).any isRwl = true ∧ ([0x120] : List Nat).any (otherPort .ha) = false ∧
    (catPut .ha 0x120 [5000#32] 0 base).2 = (1, none) := by decide

/-- A transaction of HA with one member, due at `c`. -/
def txn (c : Nat) : Txn := { h := hdr 1, c := c, members := [⟨0, 0, 1⟩], order := 0 }

theorem witness_TransactionsAreQueuedAndCancelled : own.lets (hdr 1) 0xA8 [] false = true ∧
    own.lets (hdr 1) 0xA8 (memberOwn [⟨0, 1, 0⟩]) false = true ∧ own.lets (hdr 1) 0xA9 [] false = true ∧ [(⟨0, 1, 0⟩ : Member)].length = (hdr 1).arg ∧
    (own.begins (hdr 1) 0xA8).txn .ha 1 = none ∧ (own.begins (hdr 1) 0xA8).badMember [⟨0, 1, 0⟩] = none ∧ own.txns.length < 32 ∧
    (own.begins (hdr 1) 0xA8).now + 10000 ≤ 10000 ∧
    (let s : State := { own with txns := [txn 10000] }
     (s.begins (hdr 1) 0xA8).txn .ha 1 = some (txn 10000) ∧ (s.begins (hdr 1) 0xA8).now < (txn 10000).d) := by decide

/-- Everything owned by HA, with channel 0 of tile 0 in mode `m`. -/
def inMode (m : Mode) : State := own.modChan 0 0 fun c => { c with mode := m, valid := true }

theorem witness_OutputActionsGoToTheirTile : (inMode .dout).lets (hdr 511) 0x11 [(0, 511)] false = true ∧ (hdr 511).arg < 512 ∧
    (inMode .dout).lets (hdr 511) 0x12 [(0, 511)] false = true ∧ (inMode .dout).lets (hdr 511) 0x13 [(0, 511)] false = true ∧
    (inMode .dout).serves 0 15 = true ∧ ((inMode .dout).chan 0 0).mode ≠ .dop ∧ 1 ≤ ((inMode .dout).chan 0 0).outMax := by decide
theorem witness_TrimCommandsSetOrWait : (inMode .aiv).lets (hdr 0) 0x14 [(0, 0)] true = true ∧ (inMode .aiv).serves 0 0 = true ∧
    (let ch := ((inMode .aiv).begins (hdr 0) 0x14).chan 0 0
     ch.mode.trimmable = true ∧ ch.ofsOk 0 = true ∧ ch.ofsOk (sext 24 5) = true ∧ gainOk 0x399999 = true ∧
       gainOk 0x466666 = true ∧ ch.mode.isMeas = true) := by decide
theorem witness_ModeCommandSetsExactlyItsChannel :
    own.lets (hdr 0) 0x10 ((own.advance 0).modeOwns 0 1 0 false 0 0) true = true ∧ own.serves 0 0 = true ∧ Mode.ofCode 1 = some .di ∧
    ((own.begins (hdr 0) 0x10).chWrite 0 0 (((own.begins (hdr 0) 0x10).chan 0 0).commanded .di 0 false 0 0) true true).2 = 0 ∧
    own.lets (hdr 0) 0x10 ((own.advance 0).modeOwns 0 2 0 true 0 0) true = true ∧ Mode.ofCode 2 = some .dic ∧
    ((own.begins (hdr 0) 0x10).chWrite 0 0 (((own.begins (hdr 0) 0x10).chan 0 0).commanded .dic 0 true 0 0) true true).2 ≠ 0 := by decide
theorem witness_RuleCommandsWriteExactlyTheirRule : own.serves 0 0 = true ∧ own.lets (hdr 0) 0x18 (ruleOwns 0 (ruleOf 0 0 0 0)) true = true ∧
    opsBad 0x18 (payload [(16, 4, 0), (20, 4, 0), (24, 4, 0), (28, 4, 0)]) = none ∧ ruleBad (ruleOf 0 0 0 0) = none ∧
    (own.begins (hdr 0) 0x18).lineClash 0 0 (ruleOf 0 0 0 0) = false ∧
    own.lets (hdr 0) 0x19 (ruleOwns 0 (((own.advance 0).tile 0).rules.getD 0 {})) false = true := by decide

/-- Sequence 0 of tile 0 as `f` makes it, with the reference ready. -/
def seq0 (f : Seq → Seq) : State := (own.modSeq 0 0 f).modCv 0 fun u => { u with refEn := true, refReady := true, injW := 60000 }

theorem witness_SequenceCommandsArmTriggerAndDisarm : (seq0 id).lets (hdr 0) 0x30 [(1, 0)] false = true ∧ (seq0 id).serves 0 0 = true ∧
    ((seq0 id).tile 0).seq 0 = {} ∧
    (seq0 id).lets (hdr 0) 0x31 [(1, 0)] false = true ∧ (seq0 id).lets (hdr 0) 0x32 [(1, 0)] false = true ∧
    (let s := seq0 fun q => { q with arm := true, active := true }
     let u : State := { s with now := 1 }
     (s.begins (hdr 0) 0x32).tnow 0 ≤ ((s.tile 0).seq 0).armAt ∧ ((u.tile 0).seq 0).armAt < (u.begins (hdr 0) 0x32).tnow 0) ∧
    (let s := seq0 fun q => { q with arm := true, active := true }
     ((s.tile 0).seq 0).active = true ∧ ((s.tile 0).seq 0).arm = true ∧ (s.begins (hdr 0) 0x30).tnow 0 < 1 ∧
       0 ≤ (s.begins (hdr 0) 0x30).tnow 0) := by decide
theorem witness_SequenceIsAdmitted :
    (let s := (seq0 fun q => { q with
       cfg := 0x01000000#32, period := 3000000 }).modChan 0 0 fun c => { c with mode := .aiv, cfg := cfgReset .aiv }
     let s := s.modCv 0 fun u => { u with injGap := 60000, injW := 100 }
     (s.tile 0).seqAdmit 0 { (s.tile 0).seq 0 with arm := true, active := true }) = 0 := by decide

theorem witness_ConverterCommandsAreQueued :
    (let s := seq0 id
     let c := s.modChan 0 0 fun c => { c with mode := .aiv, cfg := cfgReset .aiv }
     c.lets (hdr 0) 0x33 [(0, 0)] false = true ∧ c.serves 0 0 = true ∧ opsBad 0x33 0x00830A00 = none ∧ (c.tile 0).cv.refReady = true ∧
     injTarget 0 0x00830A00#32 = some (0, 0) ∧ (c.tile 0).slotOk 0 0x00830A00#32 = true ∧
     (c.tile 0).slotWorst 0 0x00830A00#32 ≤ (c.tile 0).cv.injW * us ∧ (c.tile 0).cv.injQ.length < 4) ∧
    injTarget 512 0x80000000#32 = some (0, 32) ∧ injTarget 527 0xAC000000#32 = some (15, 43) ∧
    (let s := seq0 id
     s.lets (hdr 0) 0x34 [] false = true ∧ s.lets (hdr 0) 0x34 ((List.range 8).map fun n => (1, 8 * 0 + n)) false = true ∧
       (s.tile 0).armedSeqs = [] ∧ ((s.tile 0).cv.cal.busy && (s.tile 0).cv.cal.excl) = false) := by decide

/-- Everything owned by HA and HA's rings running, with channel 0 of tile 0 a DI channel and context 0 of pipeline 0 as `f`
makes it. -/
def ctx0 (f : Ctx → Ctx) : State :=
  ((live own).modChan 0 0 fun c => { c with mode := .aiv, cfg := cfgReset .aiv, valid := true }).modCtx 0 0 f

theorem witness_StreamCommandsStartStopAndSwitch : (ctx0 id).lets (hdr 0) 0x50 [(2, 0)] false = true ∧
    (ctx0 id).lets (hdr 0) 0x51 [(2, 0)] false = true ∧ (ctx0 id).lets (hdr 0) 0x52 [(2, 0)] false = true ∧
    (let b := (ctx0 id).begins (hdr 0) 0x50
     let x := b.ctx 0 0
     ((b.port .ha).ring 3).active = true ∧ ((b.port .ha).ring 3).ty = 3 ∧ ((b.port .ha).ring 3).block = x.blockN ∧ x.run = false ∧
     x.adm = 0 ∧ (b.tile 0).ctxBad (b.pipe 0) x = false ∧ x.grid = false ∧ (b.streamFull 0 0 .ha).isNone = true) ∧
    (let b := ((ctx0 fun x => { x with run := true }).modChan 0 31 fun c => { c with mode := .aiv, cfg := cfgReset .aiv }).begins (hdr 0) 0x50
     let x := b.ctx 0 0
     x.run = true ∧ x.ending = none ∧ x.r.pendSrc = none ∧ ((b.tile 0).chan 31).mode.streams = true ∧
     ((b.tile 0).chan 31).weight = ((b.tile 0).chan x.r.ch).weight ∧ ((b.tile 0).chan 31).signed = ((b.tile 0).chan x.r.ch).signed ∧
     x.grid = false) := by decide
theorem witness_BankCommandsLoadAndFade : own.lets (hdr 63) 0x53 [(3, 63)] true = true ∧
    ((own.begins (hdr 63) 0x53).pipe 15).bankUsed 3 = false ∧
    (let s := ctx0 fun x => { x with run := true }
     let b := (s.begins (hdr 0) 0x53).modCtx 0 0 id
     let P := { b.pipe 0 with banks := [{ words := [], valid := true }, { words := [], valid := true }, {}, {}] }
     s.lets (hdr 0) 0x54 [(2, 0)] false = true ∧ (b.ctx 0 0).run = true ∧ (b.ctx 0 0).ending = none ∧ (b.ctx 0 0).r.fade = none ∧
     1 ≠ (b.ctx 0 0).bankNow ∧ (P.banks.getD 1 {}).valid = true ∧
     (b.ctx 0 0).banksDiffer (P.inForce (b.ctx 0 0)) (P.banks.getD 1 {}) = false ∧ P.committed + (b.ctx 0 0).demand ≤ 4800) := by decide
theorem witness_SerialCommandsQueueAndAbortFrames :
    (let s := own.modSp 15 fun p => { p with en := true }
     s.lets (hdr 63) 0x60 [(4, 15)] false = true ∧ (s.sps.getD 15 {}).en = true ∧ s.lets (hdr 15) 0x61 [(4, 15)] false = true) := by decide
theorem witness_ServiceCommandsTakeTheirTile : own.lets (hdr 15) 0x88 [] false = true ∧ own.lets (hdr 15) 0x78 [] false = true ∧ own.lets (hdr 15) 0x79 [] false = true ∧
    (own.advance 0).holdsBack 15 = false ∧
    (own.advance 0).peerOwns .ha (32 * 15) 32 = none ∧ own.serves 0 15 = true ∧
    (own.begins (hdr 15) 0x88).rotImage 15 false = some 0 ∧ own.rot.busy = false ∧
    ((own.begins (hdr 15) 0x88).pickEng (some 0)).isSome = true ∧
    (let b := (own.modLink 15 fun L => { L with life := .offline }).begins (hdr 15) 0x88
     b.engineless 15 = false ∧ (b.tile 15).bound = true ∧ (b.tile 15).link.life = .offline) := by decide

/-- A container of 320 bytes with empty engine and supervisor sections, in live format (10 Tables 10-2 and 10-3). -/
def container : List Byte :=
  [0x56, 0x4C, 0x49, 0x4D, 1, 0, 0, 1, 0x40, 1, 0, 0, 5] ++ List.replicate 27 0 ++ [2] ++ List.replicate 7 0 ++
    List.replicate 9 255 ++ List.replicate 71 0 ++ [1, 0, 0, 0, 0, 1] ++ List.replicate 10 0 ++ [2, 0, 0, 0, 0, 1] ++ List.replicate 170 0

/-- The device with that image in bank B; bank A runs. -/
def images : State := { base with per := { base.per with
  cells := (container.zipIdx.map fun x => (bankBase 1 + x.2, x.1)).filter fun x => x.2 ≠ 255 } }

theorem witness_container : (State.storeNat (bankBase 1 + 8) 4 images) = 320 ∧ container.length = 320 ∧
    images.formatOk (bankBase 1) false = true := by decide +kernel
theorem witness_ImageIsVerifiedConfirmedErased : images.lets (hdr 0) 0x81 [] false = true ∧
    ([0x83, 0x86, 0x87].all fun op => base.lets (hdr 0) op [] false) = true ∧
    (images.advance 0).sessionBad (hdr 0) = none ∧ images.upd.stage.busy = false ∧
    (Config.ecdsaOk (images.store (bankBase 1) 256) (images.store (bankBase 1 + 256) 64) (images.store (keySlot 0) 64) = true →
      images.checkImage (bankBase 1) false = 0) ∧
    base.checkImage (bankBase 1) false = 1 ∧ base.saveBarred = false ∧ base.start.setSrc ≠ 3 ∧
    (let s : State := { base with upd := { base.upd with stage := .trial }, per := { base.per with recB := { st := .trial } } }
     s.trialBank.isSome = true ∧ (s.begins (hdr 0) 0x86).saveBarred = true ∧ s.lets (hdr 0) 0x83 [] false = true ∧ s.lets (hdr 0) 0x86 [] false = true ∧
       (s.advance 0).sessionBad (hdr 0) = none) := by
  refine ⟨by decide +kernel, by decide +kernel, by decide +kernel, by decide +kernel, fun h => ?_, by decide +kernel, by decide +kernel, by decide +kernel, by decide +kernel⟩
  have hl : State.storeNat (bankBase 1 + 8) 4 images = 320 := by decide +kernel
  have hk : State.storeNat (bankBase 1 + 42) 1 images = 0 := by decide +kernel
  have h1 : images.formatOk (bankBase 1) false = true := by decide +kernel
  have h2 : State.storeNat (bankBase 1 + 20) 4 images = images.per.hwType := by decide +kernel
  have h3 : State.storeNat (bankBase 1 + 24) 16 images = 0 := by decide +kernel
  have h4 : ¬ ((images.store (keySlot 0) 64).all (fun b => b = 0) = true ∨ images.revokedNow.testBit 0 = true) := by decide +kernel
  have h5 : ¬ State.storeNat (bankBase 1 + 16) 2 images < images.floorNow := by decide +kernel
  simp only [State.checkImage, hl, hk, h1, h2, h3, h5]
  simp [h, bankSize] at h4 ⊢
  exact h4

theorem witness_ActivationRestartRevertAndRecovery :
    (let s : State := { images with
       upd := { images.upd with stage := .verified },
       per := { images.per with recB := { st := .verified, engDigest := Config.sha256 [], svDigest := Config.sha256 [] } } }
     s.lets (hdr 0) 0x82 [] true = true ∧ (s.advance 0).sessionBad (hdr 0) = none ∧ (s.advance 0).peerOwns .ha 0 512 = none ∧
     secsBad 0 = false ∧ (s.begins (hdr 0) 0x82).canActivate = true ∧
     (s.begins (hdr 0) 0x82).tiles.any (fun T => T.link.life ≠ .online) = false ∧
     (s.begins (hdr 0) 0x82).liveFits (bankBase 1) (bankBase 0) = true ∧
     engNos.any (fun n => ((s.begins (hdr 0) 0x82).engine n).usable) = true) ∧
    (let s : State := { base with upd := { base.upd with stage := .activating } }
     s.lets (hdr 0) 0x84 [] false = true ∧ (s.advance 0).sessionBad (hdr 0) = none) ∧ base.lets (hdr 0) 0x84 [] false = true ∧
    base.lets (hdr 0) 0x85 [] true = true ∧ (base.advance 0).peerOwns .ha 0 512 = none := by decide +kernel
theorem witness_ActivationDigestsMatch :
    State.digestsMatch 1 { images with per := { images.per with
      recB := { st := .verified, engDigest := Config.sha256 [], svDigest := Config.sha256 [] } } } = true := by
  have h1 : State.sectionBytes (bankBase 1) 1 { images with per := { images.per with
      recB := { st := .verified, engDigest := Config.sha256 [], svDigest := Config.sha256 [] } } } = some [] := by decide +kernel
  have h2 : State.sectionBytes (bankBase 1) 2 { images with per := { images.per with
      recB := { st := .verified, engDigest := Config.sha256 [], svDigest := Config.sha256 [] } } } = some [] := by decide +kernel
  simp only [State.digestsMatch, h1, h2]
  simp [State.bankRec]

theorem witness_RegisterWritesReachTheirRegisterOrAreCounted : base.power = .running ∧ (blockOf 0xFFFFC).isNone = true ∧
    otherPort .ha 0x1000 = otherPort .hb 0x2000 ∧ ((base.advance 0).rwl = true ∧ isRwl 0x20000 = true) ∧
    (({ base with lock := { locked := true } } : State).advance 0).rwl = false ∧
    ((blockOf 0x120).isNone = false ∧ otherPort .ha 0x120 = false) := by decide
theorem witness_TileRegisterWritesSetTheirFields : base.power = .running ∧ (base.advance 0).rwl = true ∧
    bit 0x80000000#32 31 = true ∧ bit 0#32 31 = false ∧
    (let T := ((seq0 fun q => { q with arm := true, active := true }).advance 0).tile 0
     T.cv.refEn = true ∧ T.refHeld = true) ∧
    (let T := ((seq0 id).advance 0).tile 0
     T.cv.refEn = true ∧ T.refHeld = false ∧ T.worstAll T.armedSeqs (max 100 (fld 0xFFFFFFFF#32 31 16)) (fld 0xFFFFFFFF#32 15 0) = true) ∧
    ({ base.tile 15 with tpWidth := 100, tpPeriod := 1 } : Tile).heat ≤ 6000 ∧
    ruleBad ((((base.advance 0).tile 15).rules.getD 63 {}).put 3 0) = none ∧
    (base.advance 0).lineClash 15 63 ((((base.advance 0).tile 15).rules.getD 63 {}).put 3 0) = false ∧
    (((inMode .aiv).advance 0).chan 0 0).ofsOk (sext 24 (fld 0x00FFFFFF#32 23 0)) = true ∧ gainOk (fld 0x00400000#32 23 0) = true := by decide
theorem witness_SequenceAndPortRegisterWrites : base.power = .running ∧ (base.advance 0).rwl = true ∧
    (let q := (((seq0 fun q => { q with arm := true, active := true }).advance 0).tile 0).seq 0
     q.active = true ∧ q.arm = true) ∧ (((base.advance 0).tile 15).seq 7).active = false ∧ seqCodesBad 0#32 = false ∧
    (((live base).advance 0).port .ha |>.ring 2).en = true ∧ (((live base).advance 0).port .ha |>.ring 2).ty ≠ 1 := by decide

/-- The descriptor of a NOP. -/
def nop : Desc := { opcode := 0, flags := 0, arg := 0, tag := 7, deadline := 0, ops := 0 }

theorem witness_IntakeTakesProducersAndDescriptors : (live base).power = .running ∧ ((live base).advance 0).portRuns .ha = true ∧
    (((live base).advance 0).port .ha).dbErr = false ∧ (((live base).advance 0).port .ha).turn = some 0 ∧ descBad nop = none ∧ descWrong nop = none ∧
    (((live base).advance 0).port .ha).pollAt ≤ ((live base).advance 0).now ∧ ((live base).advance 0).portRuns .hb = false ∧
    ((live base).advance 0).lastGrant ≠ some .ha ∧ (((live base).advance 0).port .ha).pollWords = 4 ∧
    descBad { nop with flags := 4 } = some 1 ∧ descBad { nop with opcode := 255 } = some 0 := by decide
theorem witness_WaitsMessagesAndRingErrors :
    (let f : Fetched := { port := .ha, ring := 63, cnt := 0, desc := { nop with deadline := 5 }, tile := some 15, waiting := true }
     let s : State := { live base with now := 6, fetched := [f] }
     let b := s.advance 0
     ∃ f, (b.fetched.find? fun f => f.port = .ha && f.ring = 63 && f.cnt = 0 && f.waiting) = some f ∧ b.past (f.hdr b.now) = true) ∧
    (let b := (live base).advance 0
     ((b.port .ha).ring 2).unsig = true ∧ ((b.port .ha).ring 2).ty ≠ 0 ∧ ((b.port .ha).ring 2).lastMsg = none ∧
       b.portRuns .ha = true ∧ ((b.port .ha).ring 2).active = true) ∧
    ((live base).power = .running ∧ ((live base).advance 0).unseen 0 = false ∧ (((live base).advance 0).port .ha).live = true ∧
      (((live base).modBlk 0 fun x => { x with owedHa := true }).advance 0 |>.blk 0).owedHa = true ∧
      (((live base).advance 0).blk 0).sentHa = none) := by
  refine ⟨⟨_, rfl, ?_⟩, ?_, ?_⟩ <;> decide
theorem witness_PortResetAndLiveFollowTheLink : (live base).power = .running := rfl
theorem witness_ResetsKeepStoreAndKeepAliveDomain : base.power = .running ∧
    ({ base with power := .fallow } : State).power = .fallow ∧ 4 < base.sup.ok.length ∧
    ({ base with power := .fallow } : State).power ≠ .running := by decide
theorem witness_StartUpBootsThenConfiguresTilesThenCompletes :
    (let s : State := { base with power := .held }
     (false = true ↔ s.per.nextCause = 2) ∧ (s.atP.takeVio 3300).lowFsafe.dev.grave = false ∧
       (s.atP.takeVio 3300).lowFsafe.start.wantRecovery = false ∧ s.per.recA.st ≠ .trial ∧ s.per.recB.st ≠ .trial) ∧
    ({ base with start := { phase := .rom } } : State).power = .running ∧
    (let s : State := { base with start := { phase := .tiles }, tiles := [{}] }
     (s.advance 0).start.phase ≠ .complete ∧ ((s.advance 0).tile 0).powered = false ∧ (s.advance 0).dev.netOn = false ∧
       (s.advance 0).start.phase = .tiles) ∧
    (let s : State := { base with dev := { base.dev with netOn := true } }
     (s.advance 0).dev.netOn = true) ∧
    (let b := (base.modEngine 17 fun e => { e with st := .loading }).advance 0
     (b.engine 17).st = .loading ∧ b.freeEng 17 = true) := by decide
theorem witness_StartUpBootsAnActiveBank :
    ((({ base with power := .held } : State).atP.takeVio 3300).lowFsafe).bootActive = (some 0, false) := by
  generalize hb : (({ base with power := .held } : State).atP.takeVio 3300).lowFsafe = b
  have h1 : b.sectionBytes (bankBase 0) 1 = none := by subst hb; decide +kernel
  have h2 : b.sectionBytes (bankBase 0) 2 = none := by subst hb; decide +kernel
  have hA : b.per.recA = base.per.recA := by subst hb; rfl
  have hB : b.per.recB = base.per.recB := by subst hb; rfl
  have hd : b.digestsMatch 0 = true := by
    simp only [State.digestsMatch, State.bankRec, h1, h2, hA]
    simp [base]
  simp only [State.bootActive, State.floorNow, State.bankRec, hA, hB]
  simpa [base] using hd
theorem witness_SupplySafeNetAndBarrierHappenings : base.power = .running ∧ railBeyond 2 4001 = true ∧
    railBeyond 0 900 = false ∧
    (let s : State := { base with sup := { ok := [true, true, true, true, true], seen := [] } }
     ((s.advance 0).sup.ok.getD 0 true) = true ∧ railOk (s.advance 0).sup.vio33 0 0 = false ∧ railBeyond 0 0 = false) ∧
    (let s : State := { base with sup := { ok := [false, true, true, true, true], seen := [] } }
     ((s.advance 0).sup.ok.getD 0 true) = false ∧ railOk (s.advance 0).sup.vio33 0 900 = true) ∧
    base.dev.fsafe = true ∧ ({ base with dev := { base.dev with fsafe := false } } : State).dev.fsafe = false ∧
    (let b := ({ base with now := ms, dev := { base.dev with netOn := true } } : State).advance 0
     b.dev.netOn = true ∧ b.net = false ∧ b.dev.highSince + ms ≤ b.now) ∧
    ((base.advance 0).tile 15).powered = true ∧ ((State.reset.advance 0).tile 15).powered = false := by decide

/-- At count `τ`, with channel 0 of tile 0 as `f` makes it. -/
def chanAt (τ : Nat) (f : Chan → Chan) : State := { base.modChan 0 0 f with now := τ }

theorem witness_InputsCrossSieveCountAndWatch :
    (let s := (chanAt 0 fun c => { c with mode := .di }).modLink 0 fun L => { L with life := .offline }
     s.power = .running ∧ (s.tile 0).powered = true ∧ ((s.advance 0).tile 0).online = false ∧ ((s.advance 0).chan 0 0).mode.isLvl = true) ∧
    (let s := (chanAt (10 * sec) fun c => { c with
       mode := .di, cfg := 0x003C0000#32, valid := true, di := { pend := true, first := true, comp := true } })
     let b := s.advance 0
     let ch := b.chan 0 0
     (b.tile 0).online = true ∧ ch.mode.isLvl = true ∧ ch.mode ≠ .dic ∧ false ≠ ch.di.comp ∧ ch.di.pend = true ∧ ch.di.first = true ∧
       ch.di.crossAt + max ch.sieveT 1 ≤ b.tnow 0 ∧ ch.chatEn = false ∧ ch.valid = true ∧ ch.ratio = false) ∧
    (let b := (chanAt 0 fun c => { c with mode := .di, cfg := 0x003D0000#32, di := { pend := true, crossed := true, first := true, comp := true } }).advance 0
     (b.chan 0 0).chatEn = true ∧ (b.chan 0 0).di.crossed = true ∧ false ≠ (b.chan 0 0).di.comp ∧ (b.chan 0 0).ratio = false) ∧
    ([0, 1, 2].all fun n => decide (((chanAt 0 fun c => { c with mode := .dic, cfg := BitVec.ofNat 32 (4096 * n) }).advance 0 |>.chan 0 0).cnt = n)) = true ∧
    (let ch := ((chanAt 0 fun c => { c with mode := .dic }).advance 0).chan 0 0
     ch.di.pend = false ∧ ch.dic.lastEdge = none ∧ true ≠ ch.di.comp ∧ (true != ch.invert) = true) ∧
    (let b := (chanAt (10 * sec) fun c => { c with mode := .di, di := { pend := true } }).advance 0
     (b.chan 0 0).di.first = false ∧ (b.chan 0 0).di.pend = true ∧ (b.chan 0 0).di.crossAt + max (b.chan 0 0).sieveT 1 ≤ b.tnow 0) ∧
    (let b := (chanAt (70 * sec) fun c => { c with mode := .dic, cfg := cfgReset .dic, valid := true }).advance 0
     let ch := b.chan 0 0
     ch.mode = .dic ∧ ch.dic.gateStart + ch.stuckT * ms ≤ b.tnow 0 ∧ ch.diagP.testBit 3 = false ∧ b.streamed 0 0 = false ∧
       ch.valid = true) ∧
    (let b := (chanAt (10 * sec) fun c => { c with mode := .di, di := { chatRun := true } }).advance 0
     let ch := b.chan 0 0
     ch.di.chatRun = true ∧ ch.di.chatter = false ∧ ch.di.chatStart + (b.tile 0).chatW * ms ≤ b.tnow 0) ∧
    (let b := (chanAt (2 * sec) fun c => { c with mode := .di, cfg := 1, di := { first := true, level := true } }).advance 0
     let ch := b.chan 0 0
     ch.di.first = true ∧ ch.di.level = true ∧ ch.stuckT ≠ 0 ∧ ch.diagP.testBit 1 = false ∧ ch.di.riseAt + ch.stuckT * sec ≤ b.tnow 0) := by
  decide +kernel

/-- A TRIM pair on channels 0 and 1 of tile 0 whose buttons are held as `B` has it, at count `τ`. -/
def pair (τ : Nat) (B : BtnState) : State :=
  { (base.modChan 0 0 fun c => { c with mode := .trim, cfg := cfgReset .trim, btn := B }).modChan 0 1 (fun c => { c with
    mode := .trim, cfg := cfgReset .trim }) with now := τ }

theorem witness_TrimButtonsCapturesAndTheSaveTimer :
    (let b := (pair (61 * sec) { zeroAt := some 0 }).advance 0
     (b.tile 0).online = true ∧ (b.tile 0).trimLower 0 = some 0 ∧ (b.chan 0 0).btn.done = false ∧
       (b.chan 0 0).btn.zeroAt = some 0 ∧ 0 + 3 * sec ≤ b.tnow 0 ∧ 0 + 60 * sec < b.tnow 0 ∧ (b.chan 0 0).btn.zeroStuck = false) ∧
    (let b := (pair (3 * sec) { spanAt := some 0 }).advance 0
     (b.chan 0 0).btn.spanAt = some 0 ∧ (b.chan 0 0).btn.zeroAt = none ∧ (b.chan 0 0).btn.both = false ∧ 0 + 3 * sec ≤ b.tnow 0) ∧
    (let b := (pair (3 * sec) { zeroAt := some 0, spanAt := some 0 }).advance 0
     max 0 0 + 3 * sec ≤ b.tnow 0 ∧ (b.chan 0 0).btn.zeroStuck = false ∧ (b.chan 0 0).btn.spanStuck = false) ∧
    (let b := ({ base with upd := { base.upd with savePend := true, saveAt := some 0 } } : State).advance 0
     b.upd.saveAt = some 0 ∧ 0 ≤ b.now ∧ b.upd.savePend = true ∧ b.saveBarred = false ∧ b.start.setSrc ≠ 3) ∧
    base.upd.savePend = false := by decide +kernel
theorem witness_SyncPinSetsCountsAndLosesTheTimebase :
    (let b := ({ base with tb := { mode := 1, stepEn := true, loadLo := 100000 } } : State).advance 0
     let load := b.tb.loadHi * 2 ^ 32 + b.tb.loadLo
     b.tb.mode = 1 ∧ b.tb.edgeSeen = false ∧ b.tb.stepEn = true ∧ load % max b.tb.period 1 = 0 ∧ b.now < load) ∧
    (let b := ({ base with tb := { mode := 1 }, now := 150000 } : State).advance 0
     b.tb.mode = 1 ∧ b.tb.stepEn = false ∧ 2 * b.tb.lastEdge + 3 * b.tb.period ≤ 2 * b.now ∧ b.tb.noEdge = false) ∧
    (let b := ({ base with tb := { mode := 2 }, now := 100000 } : State).advance 0
     b.tb.mode = 2 ∧ b.now % max b.tb.period 1 = 0) ∧ (base.advance 0).tb.mode ≠ 1 := by decide

/-- The transaction of `txn` with the lists that `f` gives it, at count `τ`. -/
def txnAt (τ : Nat) (f : Txn → Txn) : State := { base with now := τ, txns := [f (txn 10000)] }

theorem witness_TransactionIsAskedDecidedCommittedAndReported : (base.advance 0).txn .ha 1 = none ∧ ((base.advance 0).tile 0).powered = true ∧
    ((State.reset.advance 0).tile 0).powered = false ∧
    (let b := (txnAt 0 id).advance 0
     let x := txn 10000
     b.txn .ha 1 = some x ∧ x.tiles.contains 0 = true ∧ x.arrived.contains 0 = false ∧ (b.tile 0).lost = false) ∧
    (let x : Txn := { txn 10000 with arrived := [0], answers := [(0, 0, 0)] }
     x.answers.find? (fun a => decide (a.1 = 0)) = some (0, 0, 0) ∧ x.decided = none ∧ (txnAt 0 fun _ => x).txn .ha 1 = some x ∧
       ((txnAt 0 fun _ => x).modTxn .ha 1 fun x => { x with answers := [], got := [(0, 0, 0)] }).txn .ha 1 =
         some { x with answers := [], got := [(0, 0, 0)] }) ∧
    (let x : Txn := { txn 10000 with arrived := [0], got := [(0, 0, 0)] }
     let b := (txnAt 10000 fun _ => x).advance 0
     x.decided = none ∧ x.d ≤ b.now ∧ x.allReady = true ∧ x.cancelled = false) ∧
    (let x := txn 10000
     x.allReady = false ∧ x.cancelled = false ∧ x.refusal = none ∧ x.d ≤ 10000) ∧
    (let x : Txn := { txn 10000 with arrived := [0], decided := some true }
     x.decided.isSome = true ∧ x.arrived.contains 0 = true ∧ x.held.contains 0 = false ∧ x.ended.contains 0 = false) ∧
    (let x : Txn := { txn 10000 with arrived := [0], decided := some true, held := [0] }
     let b := (txnAt 10000 fun _ => x).atTile 0 0
     (b.tile 0).powered = true ∧ x.lost.contains 0 = false ∧ x.c ≤ b.tnow 0 ∧ x.held.contains 0 = true) ∧ (txn 10000).held.contains 0 = false ∧
    (let x : Txn := { txn 10000 with arrived := [0], decided := some true, held := [0], ended := [0] }
     let b := (txnAt 10000 fun _ => x).advance 0
     let a := b.modTxn .ha 1 fun x => { x with reported := x.reported ++ [0] }
     x.ended.contains 0 = true ∧ x.reported.contains 0 = false ∧
       ∃ y, a.txn .ha 1 = some y ∧ y.ovr a = true) ∧
    (let x : Txn := { txn 10000 with ended := [0], members := [⟨0, 0, 1⟩, ⟨32, 0, 1⟩] }
     let a := ((txnAt 10000 fun _ => x).advance 0).modTxn .ha 1 fun x => { x with reported := x.reported ++ [0] }
     ∃ y, a.txn .ha 1 = some y ∧ y.ovr a = false) := by
  refine ⟨by decide, by decide, by decide, by decide, by decide, by decide, by decide, by decide, by decide, by decide, ⟨by decide, by decide, _, rfl, by decide⟩,
    ⟨_, rfl, by decide⟩⟩

/-- An action of HA on channel 0 with value 1, due at `c`. -/
def act (c : Nat) : Action := { h := hdr 0, kind := 0, g := 0, value := 1, commit := c, order := 0, opcode := 0x20 }

/-- Channel 0 of tile 0 is a valid DO channel as `f` makes it, L+ is NORMAL and the count is `τ`. -/
def doAt (τ : Nat) (f : Chan → Chan) : State :=
  { (base.modTile 0 fun T => { T with lp := { T.lp with st := .normal } }).modChan 0 0 (fun c => f { c with
    mode := .dout, valid := true, o := { c.o with lvl3 := some 1 } }) with now := τ }

theorem witness_ActionsArriveCommitAndSwitchesProtectThemselves :
    (let b := ({ doAt 5 id with transit := [act 4] } : State).advance 0
     (b.transit.find? fun a => a.h.port = .ha && a.h.ring = 0 && a.h.cnt = 0) = some (act 4) ∧ (b.tile 0).lost = false ∧
       (act 4).commit ≠ 0 ∧ (act 4).commit < b.tnow 0) ∧
    ((doAt 5 id).tile 0).preCheck 0 0 1 = 0 ∧ (base.tile 0).preCheck 0 0 1 ≠ 0 ∧
    (let b := (doAt 5 id).advance 0
     let T := b.tile 0
     T.powered = true ∧ (T.chan (T.lead 0)).mode = .dout ∧ T.runs (T.lead 0) (b.tnow 0) = true ∧
       (T.chan 0).mode.thermalBit.isSome = true) ∧
    (let b := (doAt 5 fun c => { c with o := { c.o with prot := true, retryAt := some 5 } }).advance 0
     (b.chan 0 0).o.retryAt = some 5 ∧ 5 ≤ b.tnow 0 ∧ (b.chan 0 0).o.prot = true ∧ (b.chan 0 0).o.latch = false) ∧
    ((base.tile 0).chan 0).mode ≠ .dout ∧ ((base.tile 0).chan 0).mode.thermalBit = none ∧
    (let b := (inMode .aoi).advance 0
     ((b.tile 0).chan 0).mode.thermalBit.isSome = true ∧ ((b.tile 0).chan ((b.tile 0).lead 0)).mode.isAo = true ∧
       (b.tile 0).safe ((b.tile 0).lead 0) = false) := by decide +kernel

theorem witness_PinsAndLoadsAreDiagnosed :
    (let b := (doAt 0 id).advance 0
     ((b.tile 0).chan ((b.tile 0).lead 0)).mode = .dout ∧ (b.tile 0).lp.st = .normal) ∧ base.power = .running ∧
    (let b := (doAt 5 fun c => { c with diag := 0x40000000#32, o := { c.o with lvl3 := some 0 } }).advance 0
     let T := b.tile 0
     T.online = true ∧ bit (T.chan 0).diag 30 = true ∧ T.stage 0 (b.tnow 0) = 0 ∧ (T.chan 0).diagP.testBit 5 = false) ∧
    (let b := (doAt (100 * ms) fun c => { c with diag := 0x80000000#32 }).advance 0
     let T := b.tile 0
     (T.chan 0).mode = .dout ∧ (T.chan 0).tpEn = true ∧ T.runs 0 (b.tnow 0) = true ∧ T.safe 0 = false ∧
       (T.chan 0).o.noDarkTill ≤ b.tnow 0 ∧ (T.chan 0).o.darkNext ≤ b.tnow 0 ∧
       ((T.group 0).all fun k => decide ((T.chan k).o.suspect ≠ some 1)) = true) ∧ ((base.tile 0).chan 0).tpEn = false ∧
    bit ((doAt 0 id).chan 0 0).diag 30 = false ∧ ((doAt 0 id).tile 0).stage 0 0 ≠ 0 ∧ ((doAt 0 id).chan 0 0).o.elecOff = false ∧
    pinBeyond 60001 0 = true ∧ pinBeyond 40001 0 = false ∧ pinBeyond 40000 501 = false ∧ Mode.hasSurge .aiv = true ∧
    (let b := (chanAt (10 * ms) fun c => { c with mode := .aiv, m := { c.m with surgeAt := some 0 } }).advance 0
     (b.chan 0 0).m.surgeAt = some 0 ∧ 0 + 10 * ms ≤ b.tnow 0) := by decide +kernel

/-- Tile 0 with its L+ monitor as given. -/
def lp (p : LPlus) : LPlus := ((base.modTile 0 fun T => { T with lp := p }).advance 0 |>.tile 0).lp

theorem witness_FieldSupplyRailLoopsAndMirrorsFollowTheirSamples : lplusBeyond 6001 = true ∧ lplusBeyond 2400 = false ∧
    ((lp {}).count 0).next = (lp {}).st ∧
    ((lp { st := .normal, nLow := 1 }).count 1799).next.off = true ∧ ((lp { st := .normal, nHigh := 1 }).count 3101).next.off = true ∧
    ((lp { st := .normal, nMiss := 1 }).count 1199).next.gone = true ∧
    ((lp { st := .high, nMiss := 1 }).count 1199).next.gone = true ∧
    ((lp { st := .missing, nRev := 1 }).count (-301)).next = .reversed ∧ ((lp { st := .low, nExit := 19 }).count 1861).next = .normal ∧ ((lp { st := .missing, nExit := 19 }).count 1301).next = .low ∧
    (base.tile 0).reen = false ∧ (chanNos.filter (base.tile 0).waits).isEmpty = true ∧
    (let T := ((doAt 0 fun c => { c with o := { c.o with elecOff := true, lvl3 := some 1 } }).modTile 0 fun T => { T with reen := true }).tile 0
     T.reen = true ∧ (chanNos.filter T.waits).isEmpty = false) ∧ (base.tile 0).crSet = 0 ∧
    (let b := ((chanAt 0 fun c => { c with mode := .aov, cfg := cfgReset .aov }).modTile 0 fun T => { T with
       lp := { T.lp with st := .normal }, railLow := 4 }).advance 0
     let T := b.tile 0
     T.crSet ≠ 0 ∧ T.railFault = false ∧ (T.lp.st = .normal ∨ T.lp.st = .low) ∧ 10 * 0 < 9 * b.railTarget 0 0 ∧ 5 ≤ T.railLow + 1) ∧
    (let b := ((chanAt 0 fun c => { c with mode := .aov, cfg := cfgReset .aov }).modTile 0 fun T => { T with
       railFault := true, railHigh := 4 }).advance 0
     let T := b.tile 0
     T.crSet ≠ 0 ∧ T.railFault = true ∧ 95 * b.railTarget 0 0 ≤ 100 * 240 ∧ 5 ≤ T.railHigh + 1) ∧
    (let b := (chanAt 0 fun c => { c with mode := .aii, cfg := cfgReset .aii, m := { c.m with fold := true } }).advance 0
     (b.chan 0 0).mode = .aii ∧ (b.chan 0 0).m.fold = true) ∧
    (let b := (chanAt 0 fun c => { c with mode := .aii, cfg := cfgReset .aii }).advance 0
     (b.chan 0 0).mode = .aii ∧ (b.chan 0 0).m.fold = false) ∧
    (let b := (chanAt 0 fun c => { c with mode := .mir, cfg := cfgReset .mir, m := { c.m with mirNext := some 5 } }).advance 0
     (b.chan 0 0).m.mirGen = false ∧ (b.chan 0 0).m.mirNext = some 5 ∧ (b.chan 0 0).m.mirPer + (b.chan 0 0).m.mirPd ≤ b.tnow 0) ∧
    (let b := (chanAt 0 fun c => { c with mode := .mir, m := { c.m with mirGen := true, mirPd := 1 } }).advance 0
     (b.chan 0 0).m.mirGen = true ∧ b.tnow 0 < (b.chan 0 0).m.mirPer + (b.chan 0 0).m.mirPd) ∧
    ((inMode .exp).chan 0 0).mode = .exp ∧ (base.chan 0 0).mode ≠ .exp ∧ (base.chan 0 0).mode ≠ .exs ∧ (base.tile 0).online = true ∧
    ((base.modCv 0 fun u => { u with calAuto := false }).tile 0).cv.calAuto = false := by decide +kernel
theorem witness_AnalogueReadbackFinishes :
    (let r : Readback := ⟨4000000, 1000000, false, false⟩
     let b := (chanAt 0 fun c => { c with mode := .aoi, cfg := cfgReset .aoi, valid := true }).advance 0
     let ch := (b.tile 0).chan 0
     let x := (b.tile 0).aoCond 0 (b.tnow 0) r
     let tc := 2 * fld ch.diag 28 24
     let k (n : Nat) : Bool := x.1.getD n false
     let a := (((((b.modChan 0 0 fun ch => { ch with
       readback := sat 0xFFFFFF (Readback.code true r),
       m := { ch.m with has := true, x := Readback.code true r, y := Readback.code true r, ts := b.tnow 0, na := r.na, uv := r.uv } }).accessioned 0 0 0
         (Readback.code true r) (b.tnow 0) 0 0).aoDiag 0 0 0 tc (k 0)).aoDiag 0 0 1 tc (k 1)).aoDiag 0 0 2 tc (k 2))
     let d := a.aoDiag 0 0 3 10 (x.2 && !(k 0 || k 1 || k 2 || ch.diagP.testBit 4))
     ch.mode = .aoi ∧ (d.chan 0 0).diagP.testBit 3 = false ∧ ((d.aoDiag 0 0 6 100 (k 3)).chan 0 0).diagP.testBit 6 = false) := by
  decide +kernel

/-- At count `τ`, with sequence 0 of tile 0 as `f` makes it and its reference ready. -/
def seqAt (τ : Nat) (f : Seq → Seq) : State := { seq0 (fun q => f { q with arm := true, active := true }) with now := τ }

theorem witness_TriggersStartHoldAndSpeculateScans : (base.tile 0).online = true ∧
    (let q := (((seqAt 100000 fun q => { q with cfg := 0x01000000#32 }).advance 0).tile 0).seq 0
     q.active = true ∧ q.arm = true ∧ q.src = 1 ∧ q.nextTick = 100000) ∧
    (let q := (((seqAt 5 fun q => { q with future := [(5, hdr 0)] }).advance 0).tile 0).seq 0
     (q.future.find? fun x => decide (x.1 ≤ 5)) = some (5, hdr 0)) ∧
    (let q := (((seqAt 100000 fun q => { q with held := some 7, lastTrig := some 0 }).advance 0).tile 0).seq 0
     (q.future.find? fun x => decide (x.1 ≤ 100000)) = none ∧ q.held = some 7 ∧ q.scan = none ∧ q.arm = true ∧
       q.lastTrig = some 0 ∧ 0 + q.period ≤ 100000) ∧
    (let q := (((seqAt 20 fun q => { q with hist := [10, 0], cfg := 0x00004000#32 }).advance 0).tile 0).seq 0
     q.hist = [10, 0] ∧ 0 < q.specN ∧ q.src ≠ 1 ∧ q.scan = none ∧ q.held = none ∧ q.since = false ∧ q.specWait = 0 ∧ 20 + 0 = 2 * 10) ∧
    (let q := (((seqAt 1100 fun q => { q with scan := some { trig := 0, spec := some 0 } }).advance 0).tile 0).seq 0
     q.scan = some { trig := 0, spec := some 0 } ∧ 0 + q.specTol + 1000 ≤ 1100) ∧
    (let b := (seqAt 10 fun q => { q with deadline := 9, scan := some { trig := 0 } }).advance 0
     b.scanPast 0 0 = true ∧ ((b.tile 0).seq 0).scan = some { trig := 0 }) ∧
    (let b := (seqAt 9 fun q => { q with cfg := 0x01000000#32, scan := some { trig := 0 } }).advance 0
     (b.tile 0).slotReady 0 = some (0, 0x00830A00#32) ∧ ((b.tile 0).cv.job 0) = none ∧ (b.tile 0).injReady 0 9 = none ∧ (b.tile 0).stepDue 0 9 = false) ∧
    (base.tile 0).slotReady 0 = none := by decide +kernel

/-- A running conversion of channel 0 of tile 0 by an injected conversion. -/
def job : Job := { src := .inj { h := hdr 0, input := 0, slot := 0x00030A00#32 }, input := 0, slot := 0x00030A00#32, start := 0, sampleAt := 0 }

/-- Tile 0 converts `j` on converter P, with channel 0 in mode AIV. -/
def jobOn (j : Job) : State :=
  (chanAt 9 fun c => { c with mode := .aiv, cfg := cfgReset .aiv, valid := true }).modCv 0 fun u => { u with jobP := some j }

/-- Tile 0 has `e` first in its injected conversions. -/
def injOn (e : Inj) : State := { base.modCv 0 (fun u => { u with injQ := [e] }) with now := 9 }

theorem witness_ConversionsAreJudgedAgainAcceptedOrDiscarded : (base.tile 0).cv.job 0 = none ∧
    (((jobOn { job with waiting := true }).advance 0).tile 0).cv.job 0 = some { job with waiting := true } ∧
    (((jobOn job).advance 0).tile 0).cv.job 0 = some job ∧ job.waiting = false ∧ job.drop = none ∧
    (((jobOn job).advance 0).tile 0).judge 0 job false ⟨1000000, 0, false, 0, 0⟩ ≠ .drop 2 false true ∧
    (((jobOn job).advance 0).tile 0).judge 0 { job with clamp := true } false ⟨1000000, 0, false, 0, 0⟩ = .drop 2 false true ∧ job.left = false ∧
    ((jobOn job).chan 0 0).mode ≠ .dmd ∧
    (let j : Job := { job with slot := 0x00830A00#32, gain := 6 }
     ∃ k, (((jobOn j).advance 0).tile 0).judge 0 j false ⟨10000000000000, 0, false, 0, 0⟩ = .again k) ∧
    ((base.tile 0).cv.jobF = none) ∧
    (let T := (((chanAt 9 fun c => { c with mode := .dmd, cfg := cfgReset .dmd }).modCv 0 fun u => { u with jobF := some job }).advance 0).tile 0
     T.cv.jobF = some job ∧ (T.chan 0).mode = .dmd ∧ (T.chan 0).isRatio = false) ∧
    (let e : Inj := { h := hdr 0, input := 0, slot := 0x00030A00#32 }
     (((injOn e).advance 0).tile 0).injReady 0 9 = some e ∧ e.h.deadline = 0) ∧
    (let e : Inj := { h := { hdr 0 with deadline := 1 }, input := 0, slot := 0x00030A00#32 }
     let b := (injOn e).advance 0
     (b.tile 0).injReady 0 9 = some e ∧ e.h.deadline + 9 < b.now + (b.tile 0).sampleTick e.input e.slot 9 ∧ b.past e.h = true) ∧
    (base.tile 0).injReady 0 9 = none := by
  refine ⟨by decide, by decide, by decide, by decide, by decide, by decide, by decide, by decide, by decide, ⟨_, rfl⟩, by decide, by decide, by decide,
    by decide, by decide⟩

theorem witness_CalibrationAndReferenceFollowTheirComparisons :
    (let u := ((({ base.modCv 0 (fun u => { u with refReady := true, cal := { u.cal with lastAt := some 0 } }) with
       now := 3600 * sec } : State).advance 0).tile 0).cv
     u.cal.lastAt = some 0 ∧ u.calAuto = true ∧ u.refReady = true ∧ u.calPeriod ≠ 0 ∧ 0 + u.calPeriod * (60 * sec) ≤ 3600 * sec) ∧
    (base.tile 0).cv.cal.lastAt = none ∧
    (let u := (base.modCv 0 (fun u => { u with cal := { u.cal with busy := true, convs := 3, stepsP := 575 } }) |>.tile 0).cv
     u.job 0 = none ∧ u.cal.stepsP + 1 = 576) ∧
    (let T := base.modCv 0 (fun u => { u with cal := { u.cal with busy := true, convs := 3, stepsP := 575 } }) |>.tile 0
     T.stepDue 0 8450 = true ∧ T.stepAt 0 + calStepT 0 ≤ 8450 ∧ 8449 < T.stepAt 0 + calStepT 0) ∧ (base.tile 0).stepDue 0 0 = false ∧
    (let u := (base.modCv 0 (fun u => { u with refEn := true, badCnt := 2 }) |>.tile 0).cv
     u.refEn = true ∧ u.refReady = false ∧ u.refFault = false ∧ u.badCnt + 1 = 3) ∧
    (let u := (base.modCv 0 (fun u => { u with refEn := true, refFault := true, goodCnt := 9 }) |>.tile 0).cv
     u.refEn = true ∧ u.refFault = true ∧ u.goodCnt + 1 = 10) ∧ (base.tile 0).cv.refEn = false := by decide

/-- An event of channel `c` of tile `t`. -/
def event (t c : Nat) : Event := { kind := 1, tile := t, ch := c, ts := 0, seq := 1, payload := 0 }

theorem witness_LinesLanesMergeAndReleaseFollowTheLink : base.power = .running ∧ (base.lines.getD 0 {}).toHub = [] ∧
    (let b := ({ base with lines := [{ toHub := [(true, 0)], toTiles := [(0, true, 0)] }] } : State).advance 0
     (b.lines.getD 0 {}).toHub = [(true, 0)] ∧ (b.tile (b.lines.getD 0 {}).tile).lost = false ∧ (b.tile 0).lost = false ∧
       ((b.lines.getD 0 {}).toTiles.find? fun x => decide (x.1 = 0)) = some (0, true, 0) ∧ (b.lines.getD 0 {}).stale = false ∧
       (b.tile 0).online = true) ∧
    (let T := (base.advance 0).tile 0
     T.powered = true ∧ T.link.laneOk &&& 4 ≠ 0 ∧ T.link.laneUse &&& (T.link.laneOk &&& 4) = 0 ∧
       lanesIn (T.link.laneOk - (T.link.laneOk &&& 4)) = 2 ∧ T.link.laneOk &&& 0 = 0 ∧ T.link.laneOk.testBit 2 = true) ∧
    (let T := (base.modLink 0 fun L => { L with laneOk := 0 }).advance 0 |>.tile 0
     T.powered = true ∧ T.link.laneOk = 0) ∧ lanesIn 7 ≠ 1 ∧ lanesIn 4 = 1 ∧
    ({ toHub := [(true, 0)], stale := true } : Line).stale = true ∧ (base.tile 0).link.life ≠ .offline ∧
    (let T := (base.modLink 0 fun L => { L with bad := [(0, 0), (0, 0), (0, 0), (0, 0)] }).advance 0 |>.tile 0
     T.link.bad.length = 4) ∧
    (let b := (base.modLink 15 fun L => { L with sendQ := [.ev (event 15 31)] }).advance 0
     popEv (b.tile 15).link.sendQ = some (event 15 31, []) ∧ (b.tile 15).heard = true) ∧
    ({ base with merge := { base.merge with hubOut := [event 16 32] } } : State).merge.hubOut = [event 16 32] ∧
    (let b := ({ base with merge := { base.merge with epi := true }, now := ms } : State).advance 0
     b.merge.epi = true ∧ b.merge.epiLast + ms ≤ b.now) := by decide

/-- Context 31 of pipeline 15 as `f` makes it, at count `τ`. -/
def ctxAt (τ : Nat) (f : Ctx → Ctx) : State := { base.modCtx 15 31 f with now := τ }

theorem witness_PipelinesTakeCloseAndDeliver : base.power = .running ∧ popRes (base.tile 15).link.sendQ = none ∧
    (let r : PipeIn := { ch := 31, gap := true }
     let b := (base.modLink 15 fun L => { L with sendQ := [.res r] }).advance 0
     popRes (b.tile 15).link.sendQ = some (r, []) ∧ (b.tile 15).heard = true) ∧
    (let b := (base.modLink 15 fun L => { L with laneOk := 0 }).advance 0
     (b.tile 15).heard = false) ∧
    (let x := ((ctxAt (100 * ms) fun x => { x with run := true, r := { x.r with part := [(0, 0)] } }).advance 0).ctx 15 31
     x.run = true ∧ x.r.part ≠ [] ∧ x.blockT ≠ 0 ∧ x.r.partAt + x.blockT ≤ 100 * ms) ∧
    (((ctxAt 0 id).advance 0).ctx 15 31).run = false ∧ (((ctxAt 0 id).advance 0).ctx 15 31).r.wait = none ∧
    (let w : Block := { ctx := 31, first := 0, period := 0, samples := [], bseq := 0, close := 0, grid := false, dic := false, deadline := 1 }
     let x := ((ctxAt 2 fun x => { x with r := { x.r with wait := some w } }).advance 0).ctx 15 31
     x.r.wait = some w ∧ w.deadline ≠ 0 ∧ w.deadline < 2 ∧ w.dl = false) := by decide
theorem witness_WatchdogsRotationsRepairsAndServiceRunTheirSteps : ((base.advance 0).tile 15).bound = true ∧
    ((base.advance 0).tile 15).lost = false ∧ ((base.modTile 15 fun T => { T with bound := false }).tile 15).bound = false ∧
    (let b := ({ base with now := 10 * ms } : State).advance 0
     (b.tile 15).powered = true ∧ (b.tile 15).saf.wd = false ∧ (b.tile 15).saf.wdServed + (b.tile 15).saf.timeout * ms ≤ b.now) ∧
    (base.advance 0).now < ((base.advance 0).tile 15).saf.wdServed + ((base.advance 0).tile 15).saf.timeout * ms ∧
    (let r := (({ base with rot := { busy := true, phase := .gap, gapAt := 0 }, now := 20000 } : State).advance 0).rot
     r.busy = true ∧ r.phase = .gap ∧ 20000 ≤ r.gapAt + 20000 ∧ r.gapAt + 20000 ≤ 20000) ∧
    (let r := (({ base with rot := { repairs := [(15, 15, 16, 0)] } } : State).advance 0).rot
     (r.repairs.find? fun r => decide (r.1 = 15) && decide (r.2.2.1 ≠ 31)) = some (15, 15, 16, 0)) ∧ base.rot.busy = false ∧
    (let b := (base.modLink 15 fun L => { L with life := .readmitting }).advance 0
     (b.tile 15).link.life = .readmitting ∧ (b.tile 15).powered = true ∧ lanesIn (7 % 8) = 3) ∧ base.dev.grave = false ∧
    (base.advance 0).atG = true ∧
    (let b := ({ base with rot := { busy := true, phase := .ready, tile := 15 } } : State).advance 0
     b.rot.busy = true ∧ b.rot.phase = .ready ∧ b.atG = true) ∧
    (let b := (({ base with rot := { busy := true, phase := .ready, tile := 15 } } : State).modSeq 15 0 fun q => { q with
       arm := true, active := true, scan := some { trig := 0 } }).advance 0
     b.atG = false) ∧
    ((base.modLink 15 fun L => { L with life := .offlining }).tile 15).link.life = .offlining ∧
    (base.tile 15).link.life ≠ .offlining ∧ (base.tile 15).link.life ≠ .readmitting := by decide
theorem witness_MemoryBanksAndRailsKeepTheirRecords : base.power = .running ∧
    (let b := (base.modSram 255 fun x => { x with rows := [4095] }).advance 0
     (b.sram.getD 255 {}).rows.contains 4095 = true ∧ (b.sram.getD 0 {}).rows.contains 4095 = false) ∧
    (let b := ({ base with now := 10000 } : State).advance 0
     b.scaleEn = true ∧ b.busyBlk 50 = false ∧ (b.pwr.getD 50 {}).workAt + 100 * us ≤ b.now) ∧
    (let b := ({ base with now := 9999 } : State).advance 0
     b.now < (b.pwr.getD 50 {}).workAt + 100 * us ∧ b.busyBlk 51 = true) ∧
    (({ base with scaleEn := false } : State).advance 0).scaleEn = false := by decide
theorem witness_FaultSourcesNetAliveArchiveAndLogFollowTheirHappenings : base.power = .running ∧
    (let a := (((base.advance 0).raise 40 15 0 1 0).modBlk 40 fun x => { x with safe := true })
     (a.tile 5).saf.off = false ∧ (a.tile 5).saf.blk = false) ∧
    (let a := ((((base.modSaf 5 fun f => { f with blk := true }).advance 0).raise 40 15 0 1 0).modBlk 40 fun x => { x with safe := true })
     (a.tile 5).saf.blk = true) ∧
    (let b := ({ base with now := ms } : State).advance 0
     b.condHolds 54 15 = false ∧ ((b.blk 54).src 15).last + ms ≤ b.bnow 54 ∧ b.dev.gateAt + ms ≤ b.now) ∧
    (base.advance 0).bnow 54 < (((base.advance 0).blk 54).src 15).last + ms ∧ (base.advance 0).dev.grave = false ∧
    (base.advance 0).now < (base.advance 0).dev.gateAt + ms ∧
    (let b := ({ base with now := 50000, dev := { base.dev with gateOk := true } } : State).advance 0
     b.now % 50000 = 0 ∧ b.aliveWhy = 0) ∧
    (({ base with now := 1 } : State).advance 0).now % 50000 ≠ 0 ∧
    (let b := ({ base with now := 1000000 } : State).advance 0
     b.now % 1000000 = 0 ∧ (b.arch.all fun A => A.storms.isEmpty) = true ∧ b.arch.length = 4) ∧
    (let e : Event := { kind := 1, tile := 15, ch := 31, ts := 0 }
     let l : Plog := { ready := true, queue := [(0, .ev e)] }
     l.ready = true ∧ l.queue ≠ [] ∧ l.failed = false) ∧ base.per.plog.queue = [] := by decide

/-- A write frame of one word on select 0. -/
def frame (deadline : Tick) : Frame :=
  { h := { hdr 0 with deadline := deadline }, sel := 0, fr := ⟨1, 0, 0, 0, 0, 1, 8, 0, 1, 0, [0]⟩, resAddr := 0 }

theorem witness_SessionActivationTrialAndFramesEnd : (base.advance 0).dev.grave = false ∧
    (({ base with dev := { base.dev with grave := true } } : State).advance 0).dev.grave = true ∧
    (let b := ({ base with upd := { base.upd with idleAt := some 0 }, now := 60 * sec } : State).advance 0
     b.upd.idleAt = some 0 ∧ 0 + 60 * sec ≤ b.now) ∧
    (let b := ({ base with upd := { base.upd with stage := .activating } } : State).advance 0
     b.upd.stage = .activating ∧ b.upd.svDone = false ∧ b.readable (1 - b.upd.runBank) = true) ∧
    (let b := ({ base with
       upd := { base.upd with stage := .activating }, per := { base.per with half0 := { valid := true, fmt := 256 } } } : State).advance 0
     b.readable (1 - b.upd.runBank) = false) ∧
    (let b := ({ base with upd := { base.upd with stage := .trial, trialEnd := some 5 }, now := 5 } : State).advance 0
     b.upd.stage = .trial ∧ b.upd.trialEnd = some 5 ∧ 5 ≤ b.now) ∧
    (let b := (base.modSp 15 fun p => { p with en := true, wait := [frame 0, frame 0] }).advance 0
     let P := b.sps.getD 15 {}
     P.cur = none ∧ P.wait = [frame 0, frame 0] ∧ P.free ≤ b.now ∧ b.dev.grave = false ∧ b.past (frame 0).h = false ∧
       P.en = true ∧ (frame 0).fails = false ∧
       recBad (frame 0).fr (P.sels.getD (frame 0).sel {}) 0 = none) ∧ recBad { (frame 0).fr with cmdB := 16 } {} 0 = some 2 ∧
    (let b := ({ base.modSp 15 (fun p => { p with wait := [frame 1] }) with now := 2 } : State).advance 0
     b.past (frame 1).h = true) ∧ (base.sps.getD 15 {}).en = false ∧
    (let b := (base.modSp 15 fun p => { p with cur := some (frame 0) }).advance 0
     (b.sps.getD 15 {}).cur = some (frame 0) ∧ (b.now < (frame 0).rise)) ∧
    (let b := ({ base.modSp 15 fun p => { p with cur := some (frame 0) } with now := (frame 0).rise } : State).advance 0
     (frame 0).rise ≤ b.now) := by decide
theorem witness_EnginesAreBoundToTheirTilesAfterReset :
    (State.reset = State.reset ∨ ∃ (s : State) (pw : Power) (cause : Nat), State.reset = s.restart pw cause) := .inl rfl

/-! ## The specification's worked examples and tables -/

/-- 00_scope, worked example: the registers of channel 5.6 stand at 0x34060 to 0x3406C, and its motor current is channel 166. -/
theorem test_channel_block_address : tileAddr 5 (16 * 6) = 0x34060 ∧ 32 * 5 + 6 = 166 ∧ (blockOf 0x3406C).isSome = true := by decide

/-- 02 Table 2-5: ORDER_HORIZON resets to 5,000 ticks; 03 Table 3-9: TP_WIDTH and TP_PERIOD to 300 and 10; 01 Table 1-6: an
engine. -/
theorem test_reset_registers : State.reset.readWord .ha 0x120 = 5000#32 ∧ (State.reset.tile 0).tpWidth = 300 ∧
    (State.reset.tile 0).tpPeriod = 10 ∧ State.reset.readWord .hb 0x120 = 5000#32 := by decide

/-- 03, worked example: the door tile's account is 495.0 mW. -/
def door : List Chan :=
  List.replicate 6 { mode := .di } ++
    [{ mode := .aii, cfg := cfgReset .aii }, { mode := .off },
     { mode := .dout, par := 1, cfg := BitVec.ofNat 32 (480 * 2 ^ 18 + 60 * 2 ^ 9 + 2), diag := 0x80000000#32 }, { mode := .dop },
     { mode := .dout, cfg := BitVec.ofNat 32 (100 * 2 ^ 18) }, { mode := .dout, cfg := BitVec.ofNat 32 (50 * 2 ^ 18) },
     { mode := .exs, cfg := cfgReset .exs }, { mode := .dmd }, { mode := .dmd }, { mode := .off }]

theorem test_heat_of_door_tile : ({ chans := door ++ door, tpPeriod := 10 } : Tile).heat = 4950 := by decide

/-- 04, worked example: an AOI channel for 240 to 260 Ω on a tile whose four outputs declare the same, and one for 500 to
600 Ω. -/
def driveTile (cfg : Word) (n : Nat) : Tile :=
  { chans := List.replicate 4 { mode := .di } ++ List.replicate 12 {} ++ List.replicate n { mode := .aoi, cfg := cfg } }

theorem test_heat_of_drive_references : (driveTile (BitVec.ofNat 32 (60 * 128 + 50)) 3).heat = 5745 ∧
    (driveTile (BitVec.ofNat 32 (60 * 128 + 50)) 4).heat = 7392 ∧ (driveTile (BitVec.ofNat 32 (26 * 128 + 24)) 4).heat = 4440 := by
  decide

/-- 04, worked example: 12.4 mA maps to 3,100.00 Hz. -/
theorem test_mirror_map :
    mirMap { mode := .mir } { srcLo := 800000#32, srcHi := 4000000#32, outLo := 100000, outHi := 500000 } false 2480000 = 310000 := by
  decide

/-- 05, worked example: select() takes gain 0x06 at 4.000 mA, 0x05 at 9 mA and 0x04 at 10.1 mA on the 48 Ω sense. -/
theorem test_select_gain : (({ mode := .aii, cfg := 0x04241401#32 } : Chan).selectGain 192000000,
    ({ mode := .aii, cfg := 0x04241401#32 } : Chan).selectGain 432000000,
    ({ mode := .aii, cfg := 0x04241401#32 } : Chan).selectGain 484800000) = (6, 5, 4) := by decide

/-- 05 R213, the door tile: S is 1,648 µs and WORST reads 173,250. -/
theorem test_worst_case_of_door_tile :
    (let q : Seq := { arm := true, active := true, cfg := 0x01000001#32, period := 200000, slots := [0x18830A00#32, 0x58830A00#32] }
     let T : Tile := { chans := List.replicate 32 { mode := .aii, cfg := cfgReset .aii } }
     T.seqSum q = 164800 ∧ T.worstOf [(0, q)] 1000 0 0 q = some 173250) := by decide +kernel

/-- 06, worked example: 41 units of demand, 83 words, 325 settling inputs and DELAY_HALF 324. -/
theorem test_filter_of_gap_filler :
    (let b : CBank := { words := [31, 2, 3, 4], valid := true }
     let x : Ctx := { src := 0x40000000#32, struct := 0x20E10000#32, det := 0x480001F4#32 }
     let T : Tile := { chans := List.replicate 32 { mode := .aii, cfg := cfgReset .aii },
                       seqs := [{ cfg := 0x01000000#32, period := 2500 }] }
     (T.demand x b, x.memWords b, x.settle b, x.halfDelay b) = (41, 83, 325, 324)) := by decide

/-- 08, worked example: the three rules of door 7 are sound and act as its table says. -/
theorem test_rules_of_door_7 : ruleBad (ruleOf 0x81300000#32 0x92000000#32 0 0xC0000000#32) = none ∧
    ruleBad (ruleOf 0x99300000#32 0x92000000#32 0 0x06000007#32) = none ∧
    ruleBad (ruleOf 0x9C700000#32 0 0 0x82000ED8#32) = none ∧
    (ruleOf 0x99300000#32 0x92000000#32 0 0x06000007#32).action = 6 ∧ (ruleOf 0x99300000#32 0x92000000#32 0 0x06000007#32).line = 7 := by
  decide

/-- 11, worked example: the flash read has 168 cycles, its last edge at 3,400 ns, its select rise at 3,450 ns. -/
def flashRead : Frame :=
  { h := hdr 0, sel := 1, fr := ⟨0x6B, 1, 3, 0x1C000, 8, 8, 8, 0, 64, 0, []⟩, resAddr := 64,
    cfg := { half := 1, ret := 2, lead := 5, trail := 5, gap := 10 } }

theorem test_serial_flash_read : recTotal flashRead.fr = 168 ∧ flashRead.lastEdge 168 = 340 ∧ flashRead.rise = 345 ∧
    flashRead.rise + flashRead.cfg.gap = 355 ∧ recBad flashRead.fr flashRead.cfg 64 = none := by decide

/-- 14, worked example: a read at 0x34100 of 72 words stops at 0x341FC; 0x34200 lies in no block. -/
theorem test_catalogue_read_of_door_11 : catBad 0x34100 64 0 = none ∧ catBad 0x34200 64 0 = some 16 ∧
    blockOf 0x34100 = blockOf 0x341FC ∧ (blockOf 0x34400).isSome = true := by decide

/-- 02, worked example: C 1,200,050,000 makes D 1,200,048,000. -/
theorem test_transaction_decision_tick : (txn 1200050000).d = 1200048000 := by decide

/-- 09 Table 9-5: the deadline fault of a command is class 1 at its block, a lost tile link class 1, FSAFE_N class 1. -/
theorem test_default_classes : srcDefault 35 10 = some (0, 0, 16) ∧ srcDefault 50 14 = some (1, 0, 16) ∧
    srcDefault 54 0 = some (1, 0, 16) ∧ srcDefault 54 11 = none := by decide

/-- 15, worked example: channel 5.17 stands at position 13-42. -/
theorem test_ball_of_channel_5_17 : ballAt 13 42 = some (.tile 5 (.chan 17)) := by decide

/-- 07 Tables 7-8 and 7-11, R263: REASON stands in bits 15:12 of DETAIL over INDEX, PHASE in bit 31 of the last word. -/
theorem test_completion_bytes :
    (let c : Completion := { ts := 0, tag := 0, opcode := 0x10, status := 2, reason := 4, index := 0x105, payload := 0, ring := 1, cnt := 2 }
     let bs := c.bytes true
     (bs.length, bs.getD 13 0, bs.getD 14 0, bs.getD 15 0, bs.getD 28 0, bs.getD 31 0)) = (32, 2, 0x05, 0x41, 2, 0x82) := by decide

/-- 07 R263: PHASE is 1 in even passes of a ring. -/
theorem test_phase : (phaseBit 16 15, phaseBit 16 16, phaseBit 16 32) = (true, false, true) := by decide

/-! ## Single steps -/

/-- What `f` shows of the state that one command answers. -/
def after {α : Type} (c : Instr) (s : State) (f : State → α) : Option α :=
  match exec c s with
  | .next u => some (f u)
  | _ => none

/-- 02 R53: an edge on SYNC in FOLLOW, stepped to its load value. -/
theorem test_sync_edge_steps : after (.syncEdge 0) { base with tb := { mode := 1, stepEn := true, loadLo := 200000 } }
    (fun u => (u.now, u.tb.stepped)) = some (200000, true) := by decide
/-- 14 R445: LOCK takes the key and the port; 07 Table 7-8: its completion is OK with LOCKED. -/
theorem test_lock : after (.lock (hdr 0) 7) base (fun u => (u.lock.locked, u.lock.key, u.lock.port)) = some (true, 7, .ha) := by decide
/-- 14 R446: UNLOCK with the key. -/
theorem test_unlock : after (.unlock (hdr 0) 7) { base with lock := { locked := true, key := 7 } } (fun u => u.lock.locked) = some false := by
  decide
/-- 07 R281: CLAIM of two free channels. -/
theorem test_claim : after (.claim (hdr 2) 0 30) base (fun u => [29, 30, 31, 32].map fun g => u.own.tab.of 0 g) =
    some [none, some .ha, some .ha, none] := by decide
/-- 12 R425: a WAKE crossing in Fallow counts, and saturates. -/
theorem test_wake_count : after (.wakeCrossing 0) { base with
    power := .fallow, per := { base.per with ka := { base.per.ka with wakeCnt := 0xFFFF } } } (fun u => u.per.ka.wakeCnt) = some 0xFFFF := by
  decide
/-- 03 R87 to R89: a change held for the Sieve time becomes the level. -/
theorem test_sieve : after (.sieveAccession 10000 0 0)
    (chanAt 0 fun c => { c with mode := .di, cfg := 0x003C0000#32, di := { comp := true, pend := true, crossAt := 0 } })
    (fun u => ((u.chan 0 0).di.level, (u.chan 0 0).di.first)) = some (true, true) := by decide
/-- 08 R316: lane 2, a spare, fails: no sparing, the lanes in use stay. -/
theorem test_spare_lane_fails : after (.laneFailure 0 3 4) base (fun u => ((u.tile 3).link.laneOk, (u.tile 3).link.laneUse)) =
    some (3, 3) := by decide
/-- 01 R16: with lane 0 failed the spare is used. -/
theorem test_lane_fails : after (.laneFailure 0 3 1) base (fun u => ((u.tile 3).link.laneOk, (u.tile 3).link.laneUse)) = some (6, 6) := by
  decide
/-- 05 R186: the third comparison beyond 1000 ppm is the reference fault. -/
theorem test_reference_fault : after (.refCompare 0 4 101) (base.modCv 4 fun u => { u with refEn := true, refReady := true, badCnt := 2 })
    (fun u => ((u.tile 4).cv.refFault, (u.tile 4).cv.refReady)) = some (true, false) := by decide
/-- 11 Table 11-6: a stray edge on SCKR of an idle port counts. -/
theorem test_stray_edge : after (.sckrStrayEdge 0 7) base (fun u => (u.sps.getD 7 {}).stray) = some 1 := by decide
/-- 09 R344: FSAFE_N low asserts the net and sets FSAFE_SEEN. -/
theorem test_fsafe_fall : after (.fsafeFall 0) base (fun u => (u.dev.netOn, u.dev.fsafeSeen, (u.tile 9).saf.net)) = some (true, true, true) := by
  decide

end Sys2Proof.Tests
end

section
/-!
PROOFS. The identity words under every step (01 R28), the state that a device reset leaves (01 R20), and what a waiting
command's deadline, a message and an error at a port do (01 R37; 07 R258, R266, R291).
-/
namespace Sys2Proof

/-- The commands that write bytes of the store (10 R363, R365). -/
def Instr.writesStore : Instr → Bool
  | .imageWrite _ _ _ _ _ _ | .imageVerify _ _ _ => true
  | _ => false

end Sys2Proof

namespace Sys2Proof.Machine

/-! ## The identity words -/

/-- The words of the identity area (01 R28): revision, hardware type, PCI Express identities and unit identity. -/
def Persist.identity (p : Persist) : Nat × Nat × Nat × Nat × Nat := (p.revId, p.hwType, p.pciVendor, p.pciSubsys, p.unitId)

/-- What keeps the store and the identity words keeps the identity words. -/
theorem State.identity_of_kept {u s : State} (h : u.per.kept = s.per.kept) : u.per.identity = s.per.identity :=
  congrArg (·.2) h

theorem answer_mono {o : Host.Outcome State Fault Refusal} {P Q : State → Prop} (h : ∀ v, P v → Q v) (ha : answer o P) :
    answer o Q := by
  cases o with
  | next v => exact h v ha
  | fault => trivial
  | refused => trivial

/-! ## The two commands that write the store -/

/-- Writing the store writes bytes only. -/
@[simp] theorem State.storePut_identity (a : Nat) (bs : List Byte) (s : State) :
    (s.storePut a bs).per.identity = s.per.identity := rfl

theorem State.checkDelta_identity (s : State) : s.checkDelta.1.per.identity = s.per.identity := by
  obtain e | ⟨a, bs, b, f, e⟩ := s.checkDelta_cases
  · rw [e]
  · rw [e, State.storePut_identity]
    exact State.identity_of_kept (State.modRec_kept b f s)

theorem State.imageWrite_identity (h : Hdr) (kiln : Bool) (offset len : Nat) (bytes : List Byte) (fails : Bool) (s : State) :
    (State.imageWrite h kiln offset len bytes fails s).1.per.identity = s.per.identity := by
  unfold State.imageWrite
  dsimp only
  split
  · rfl
  · split
    · exact State.identity_of_kept (by split <;> simp)
    · rw [State.storePut_identity]
      exact State.identity_of_kept (by split <;> simp)

theorem State.imageVerify_identity (h : Hdr) (kiln fails : Bool) (s : State) :
    (State.imageVerify h kiln fails s).1.per.identity = s.per.identity := by
  have ho : (s.openSession h.port).per.identity = s.per.identity := State.identity_of_kept (by simp)
  have hv (u : State) : u.verifiedRec.per.identity = u.per.identity := State.identity_of_kept (by simp)
  unfold State.imageVerify
  dsimp only
  split
  · rfl
  · split
    · exact State.identity_of_kept (by simp)
    · cases kiln with
      | true =>
        have hd := (s.openSession h.port).checkDelta_identity.trans ho
        simp only [if_true]
        generalize (s.openSession h.port).checkDelta = x at hd
        split
        · exact hd
        · exact (hv _).trans hd
      | false =>
        simp only [Bool.false_eq_true, if_false]
        split
        · exact ho
        · exact (hv _).trans ho

/-- A ring command keeps the identity words where its effect does: its fetch, its refusal, its wait and its completion keep
them. -/
theorem State.runCmd_identity (h : Hdr) (op : Nat) (c : Cmd) {act : State → State × Option Reply} (s : State)
    (hact : ∀ u, (act u).1.per.identity = u.per.identity) : (s.runCmd h op c act).per.identity = s.per.identity := by
  obtain ⟨_, e⟩ | e | ⟨r, hr, e⟩ | ⟨fs, e⟩ | ⟨_, e⟩ := s.runCmd_cases h op c act
  · rw [e]
  · rw [e]
    exact State.identity_of_kept (by simp)
  · have hb : (s.taken h op).begin_ h op c act = (s.taken h op).begin_ h op c fun u => (u, none) := by
      unfold State.begin_
      rw [State.taken_refuses, hr]
    rw [e, hb]
    exact State.identity_of_kept (by simp)
  · rw [e]
    exact State.identity_of_kept (State.taken_kept h op s)
  · have hu : ((((s.taken h op).begun h).cmdMargin h op).rouse (((s.taken h op).engOf op h.arg).getD 54)).per.identity =
        s.per.identity := State.identity_of_kept (by simp)
    rw [e]
    dsimp only
    split
    · exact (State.identity_of_kept (State.reply_kept _ _ _ _)).trans ((hact _).trans hu)
    · exact (hact _).trans hu

theorem State.onRing_identity (h : Hdr) (op : Nat) (c : State → Cmd) {act : State → State × Option Reply} (s : State)
    (hact : ∀ u, (act u).1.per.identity = u.per.identity) : (s.onRing h op c act).per.identity = s.per.identity := by
  unfold State.onRing State.onTick
  split
  · calc (((s.advance h.at_).runCmd h op (c (s.advance h.at_)) act).finish).per.identity
        = ((s.advance h.at_).runCmd h op (c (s.advance h.at_)) act).per.identity := State.identity_of_kept (State.finish_kept _)
      _ = (s.advance h.at_).per.identity := State.runCmd_identity _ _ _ _ hact
      _ = s.per.identity := State.identity_of_kept (State.advance_kept _ _)
  · rfl

/-! ## Every command -/

/-- Every command but the two that write the store keeps its bytes and the identity words. The cases are grouped by where a
command acts (a ring, a register, a tile, the supervisor, a tick); the frame of that place reduces each to the frame of the
command's own operation. -/
theorem exec_kept (i : Instr) (s : State) (hi : i.writesStore = false) :
    answer (exec i s) fun v => v.per.kept = s.per.kept := by
  cases i
  case imageWrite | imageVerify => cases hi
  -- ring commands
  case nop | timeRead | chMode | outSet | mirForceOff | mirForceOn | mirRelease | outCancel | chTrimSet | chTrimZero
      | chTrimSpan | chTrimReset | rfxWrite | rfxEnable | rfxStatus | seqArm | seqDisarm | seqTrigger | inject
      | calibrate | calibrateExcl | streamStart | streamStop | streamSource | bankLoad | bankSelect | spFrame
      | spAbort | faultAck | logRead | tileOffline | tileReadmit | rotate | imageActivateLive | imageActivateRestart
      | imageConfirm | imageRevert | imageRecover | settingsSave | imageErase | catRead | catWrite | lock | unlock
      | claim | release | handover | takeover | ownerQuery | txnSubmit | txnCancel =>
    exact State.onRing_kept _ _ _ _ _ fun u => by simp
  -- register writes
  case ringEnable | ringDisable | portEnable | channelRegWrite | seqCfgArm | seqCfgDisarm | refEnable | refDisable
      | injCfgWrite | doTestWrite | rfxRegWrite | rfxLatClear | trimRegWrite | orderHorizonWrite | vitCapture
      | registerWrite =>
    exact State.onWrite_kept _ _ _ _ _ _ _
  -- happenings inside a tile
  case refReady | sieveAccession | chatterWindowEnd | stuckTimeout | dicGateEnd | trimButtonHold | trimButtonStuck
      | offStateCheck | aoReadback | crailSample | seqTimerTrigger | heldTriggerRelease | slotStart | conversionEnd
      | rangingReattempt | dmdResult | scanDeadline | speculativeScanStart | specConfirmTimeout | injectStart
      | injectDeadline | calPeriodStart | calStep | refCompare =>
    exact State.onTile_kept _ _ _ _ fun u => by simp
  -- happenings at the pins of a tile
  case inputCrossing | txnCommit | outputCommit | shortGndDetect | overloadRetry | thermalShutdown | thermalReenable
      | overDecl | openOn | darkPulse | surgeEnd | reenergiseSlot | aiiFoldback | aiiRetry | excitationCycleCheck
      | mirrorPeriodStart | tileTempSample =>
    exact State.onPower_kept _ _ _ _ fun u => by simp
  -- rotations and repairs
  case rotationLoadEnd | rotationPrecopyEnd | rotationGapStart | rotationHandover | rotationGapTimeout
      | repairHandover | readmissionComplete =>
    exact State.onEngine_kept _ _ _ fun u => by simp
  -- happenings of the supervisor
  case depotImageLoadEnd | trimSaveTimer | sessionTimeout | activationSvSwitch | trialExpiry =>
    exact State.onSv_kept _ _ _ fun u => by simp
  -- other happenings at a tick
  case doorbellPoll | nudge | descriptorFetch | commandWaitDeadline | msixMessage | ringError | portReset
      | portLiveChange | tbNowLoRead | barrierTransferStart | startupComplete | barrierTransferLoss
      | barrierTransferResume | deviceScopeEnd | syncEdge | syncLeadPulse | syncLost | trimCaptureTimeout
      | txnMemberArrival | txnReady | txnDecision | txnDecisionArrival | txnAccessionReport | outputActionArrival
      | lineChangeHub | lineChangeTile | watchdogService | watchdogExpiry | laneFailure | linkReturn
      | eventArrivalMerge | eventRelease | horizonEpisodeEnd | pipelineInput | blockTimeout | streamDeliveryDeadline
      | tileOfflineComplete | sramScrub | sramDoubleBitError | railAdjust | marginRecovery | retentionEntry
      | powerReportRenewal | presentEnd | selfchkCompare | netCheck | aliveGateService | aliveGateTimeout
      | hubTempSample | stormWindowEnd | plogMirrorWrite | spFrameStart | spFrameEnd | svLockstepMismatch
      | linkFrameCorrupted | sckrStrayEdge | pcieUncorrectableError | aliveEdge =>
    exact State.onTick_kept _ _ _ fun u => by simp
  -- happenings that bring a voltage or current
  case pinClamp | surge | lplusSample | supplyThreshold =>
    simp only [exec, execPinClamp, execSurge, execLplusSample, execSupplyThreshold]
    split <;> simp
  -- supplies, resets, start-up and Fallow
  case powerOn => exact State.powerOn_kept _ _ _
  case brownOut => exact (State.brownOut_kept _).trans (State.advance_kept _ _)
  case porstFall => exact (State.porst_kept _).trans (State.advance_kept _ _)
  case startup => exact (State.finish_kept _).trans (State.startup_kept _ _ _ _ _)
  case vkaLoss => exact (State.loseVka_kept _).trans (State.advance_kept _ _)
  case fallowEntry => exact State.enterFallow_kept _
  case wakeCrossing => exact State.wake_kept _
  case fsafeFall | fsafeRise =>
    exact (State.onTick_kept _ _ _ fun u => by simp).trans (State.fsafePin_kept _ _)

/-- Every command keeps the identity words. -/
theorem exec_identity (i : Instr) (s : State) : answer (exec i s) fun v => v.per.identity = s.per.identity := by
  cases hi : i.writesStore with
  | false => exact answer_mono (fun v => State.identity_of_kept) (exec_kept i s hi)
  | true =>
    unfold Instr.writesStore at hi
    split at hi
    · exact State.onRing_identity _ _ _ _ (State.imageWrite_identity _ _ _ _ _ _)
    · exact State.onRing_identity _ _ _ _ (State.imageVerify_identity _ _ _)
    · cases hi

/-- Every step keeps the identity words. -/
theorem step_identity (s : State) : answer (step s) fun v => v.per.identity = s.per.identity := by
  unfold step
  split
  · exact State.identity_of_kept (State.tickOn_kept s)
  · next c cs _ => exact exec_identity c { s with pending := cs }

/-- Settles O60: no command but IMAGE_WRITE and IMAGE_VERIFY touches the store or the identity words, and those two write bytes
of the store only. -/
theorem nothingWritesTheIdentityArea : Obligations.NothingWritesTheIdentityArea := by
  intro s
  refine answer_mono (fun v hv => ?_) (step_identity s)
  simpa only [Persist.identity, Prod.mk.injEq] using hv

/-! ## The engines after a device reset -/

theorem State.reset_tile {n : Nat} (h : n < 16) : State.reset.tile n = { engine := n } := by
  change ((List.range 16).map fun t => ({ engine := t } : Tile)).getD n {} = _
  rw [List.getD_eq_getElem?_getD, List.getElem?_map, List.getElem?_range h]
  rfl

theorem State.reset_engine {n : Nat} (h : n < 18) :
    State.reset.engine n = if n < 16 then { st := .bound, tile := n } else { st := .idle, tile := 31 } := by
  change ((List.range 18).map fun n =>
    if n < 16 then ({ st := .bound, tile := n } : Engine) else { st := .idle, tile := 31 }).getD n {} = _
  rw [List.getD_eq_getElem?_getD, List.getElem?_map, List.getElem?_range h]
  rfl

@[simp] theorem State.restart_tile (pw : Power) (cause n : Nat) (s : State) :
    (s.restart pw cause).tile n = State.reset.tile n := rfl

@[simp] theorem State.restart_engine (pw : Power) (cause n : Nat) (s : State) :
    (s.restart pw cause).engine n = State.reset.engine n := rfl

/-- Settles O59: a restart has the tiles and engines of the reset state, where tile and engine n name each other. -/
theorem enginesAreBoundToTheirTilesAfterReset : Obligations.EnginesAreBoundToTheirTilesAfterReset := by
  intro u hu
  have ht (n : Nat) : u.tile n = State.reset.tile n := by
    obtain rfl | ⟨s, pw, cause, rfl⟩ := hu
    · rfl
    · exact State.restart_tile pw cause n s
  have he (n : Nat) : u.engine n = State.reset.engine n := by
    obtain rfl | ⟨s, pw, cause, rfl⟩ := hu
    · rfl
    · exact State.restart_engine pw cause n s
  refine ⟨fun n hn => ?_, ?_⟩
  · rw [ht, he, State.reset_tile hn, State.reset_engine (by omega), if_pos hn]
    exact ⟨rfl, rfl, rfl, rfl⟩
  · rw [he, he, State.reset_engine (by decide), State.reset_engine (by decide)]
    exact ⟨rfl, rfl, rfl, rfl⟩

/-! ## Deadlines of waiting commands, messages and errors at a port -/

theorem State.waitPast_of_past {p : PortId} {r n : Nat} {f : Fetched} {s : State}
    (hf : (s.fetched.find? fun f => f.port = p && f.ring = r && f.cnt = n && f.waiting) = some f)
    (hp : s.past (f.hdr s.now) = true) :
    s.waitPast p r n = (((s.begun (f.hdr s.now)).raiseCmd (f.hdr s.now) (s.engOf f.desc.opcode f.desc.arg)).reply
      (f.hdr s.now) f.desc.opcode { st := 5 }) := by
  unfold State.waitPast
  rw [hf]
  exact if_pos hp

/-- A ring of a live port with something unsignalled, whose message gap is over, sends its vector. -/
theorem State.message_ring {p : PortId} {r : Nat} {s : State} (hr : r < 64) (hl : (s.port p).live = true)
    (hu : ((s.port p).ring r).unsig = true) (hy : ((s.port p).ring r).ty ≠ 0)
    (hg : ((s.port p).ring r).lastMsg = none ∨ ∃ x, ((s.port p).ring r).lastMsg = some x ∧
      x + ((s.port p).ring r).gap * us ≤ s.now) :
    s.message p r = ((s.modPort p fun P => P.modRing r fun q =>
      { q with unsig := false, lastMsg := some s.now }).msix p ((s.port p).ring r).vec) := by
  unfold State.message
  obtain hm | ⟨x, hm, hx⟩ := hg
  · simp [hr, hl, hu, hy, hm]
  · simp [hr, hl, hu, hy, hm, hx]

/-- A fault block whose tile has its link, and that owes a first message at the port, sends it. -/
theorem State.message_blk {p : PortId} {k : Nat} {s : State} (hk : s.unseen k = false)
    (ho : (match p with | .ha => (s.blk k).owedHa | .hb => (s.blk k).owedHb) = true)
    (hs : (match p with | .ha => (s.blk k).sentHa | .hb => (s.blk k).sentHb) = none) :
    s.message p (64 + k) = s.faultMsi k p := by
  unfold State.message
  rw [if_neg (by omega), Nat.add_sub_cancel_left]
  cases p with
  | ha => simp [hk, show (s.blk k).owedHa = true from ho, show (s.blk k).sentHa = none from hs]
  | hb => simp [hk, show (s.blk k).owedHb = true from ho, show (s.blk k).sentHb = none from hs]

/-- Settles O38: each happening acts at its tick on the running device, by the lemma on its operation. -/
theorem waitsMessagesAndRingErrors : Obligations.WaitsMessagesAndRingErrors := by
  intro τ p s hs b
  have acts {f : State → State} {u : State} (h : f b = u) :
      (.next (s.onTick τ f) : Host.Outcome State Fault Refusal) = .next u.finish := by
    rw [State.onTick_running hs, h]
  refine ⟨fun r n f hf hp => ?_, fun r hr hl hu hy hg => ?_, fun k hk ho hm => ?_, fun r kind hp ha => ?_, fun status => ?_⟩
  · exact acts (State.waitPast_of_past hf hp)
  · exact acts (State.message_ring hr hl hu hy hg)
  · exact acts (State.message_blk hk ho hm)
  · have hc : (b.portRuns p && ((b.port p).ring r).active) = true := by rw [hp, ha]; rfl
    exact acts (if_pos hc)
  · exact acts rfl

end Sys2Proof.Machine
end

section
/-!
PROOFS. The hub count and the SYNC pin (02 R50 to R57): what an idle step counts, and what an edge, a pulse and a missing edge
on SYNC do.
-/
namespace Sys2Proof.Machine

/-! ## The idle step -/

/-- The state at a count, with the slewing counters as given. -/
def State.counted (now cnt left : Nat) (s : State) : State :=
  { s with now := now, tb := { s.tb with slewCnt := cnt, slewLeft := left } }

theorem step_of_no_command {s : State} (h : s.pending = []) : step s = .next s.tickOn := by
  unfold step
  rw [h]
  rfl

theorem State.tickOn_stopped {s : State} (h : s.power ≠ .running) : s.tickOn = s := if_pos h

/-- With no offset to correct a tick counts one. -/
theorem State.tickOn_free {s : State} (hp : s.power = .running) (h : s.tb.mode ≠ 1 ∨ s.tb.slewLeft = 0) :
    s.tickOn = s.counted (s.now + 1) (min 4999 (s.tb.slewCnt + 1)) s.tb.slewLeft := by
  have hc : ¬(s.tb.mode = 1 && s.tb.slewLeft ≠ 0) = true := by
    simp only [Bool.and_eq_true, decide_eq_true_eq]
    exact fun hb => h.elim (· hb.1) hb.2
  unfold State.tickOn
  rw [if_neg (not_not_intro hp), if_neg hc]
  rfl

/-- A follower that corrects an offset counts its idle ticks, and corrects one tick at the 5,000th (02 R55, R57). -/
theorem State.tickOn_slewing {s : State} (hp : s.power = .running) (hm : s.tb.mode = 1) (hl : s.tb.slewLeft ≠ 0) :
    s.tickOn = if s.tb.slewCnt < 4999 then s.counted (s.now + 1) (s.tb.slewCnt + 1) s.tb.slewLeft
      else s.counted (if 0 < s.tb.rate then s.now + 2 else s.now) 0
        (if s.tb.noEdge then s.tb.slewLeft else s.tb.slewLeft - 1) := by
  have hc : (s.tb.mode = 1 && s.tb.slewLeft ≠ 0) = true := by simp [hm, hl]
  unfold State.tickOn
  rw [if_neg (not_not_intro hp), if_pos hc]
  rfl

/-- Settles O2: an empty queue leaves the idle tick, by the cases of the slew. -/
theorem idleStepCountsOneTick : Obligations.IdleStepCountsOneTick := by
  intro s hq
  simp only [step_of_no_command hq]
  refine ⟨fun hp => ?_, fun hp => ⟨fun h => ?_, fun hm hl hc => ?_, fun hm hl hc => ?_⟩⟩
  · rw [State.tickOn_stopped hp]
  · rw [State.tickOn_free hp h]
    rfl
  · rw [State.tickOn_slewing hp hm hl, if_pos hc]
    rfl
  · rw [State.tickOn_slewing hp hm hl, if_neg (Nat.not_lt.2 hc)]
    rfl

/-! ## The SYNC pin -/

/-- A happening at a tick on the running device, from what its operation makes of the state at that tick. -/
theorem next_onTick {τ : Tick} {f : State → State} {s u : State} (hs : s.power = .running) (h : f (s.advance τ) = u) :
    (.next (s.onTick τ f) : Host.Outcome State Fault Refusal) = .next u.finish := by
  rw [State.onTick_running hs, h]

/-- The count that TB_LOAD holds (02 R54). -/
def State.loadCount (s : State) : Tick := s.tb.loadHi * 2 ^ 32 + s.tb.loadLo

/-- An edge now steps the count: it is the first with STEP_EN, and the load value lies ahead on a multiple of PERIOD (02
R54). -/
def State.edgeSteps (s : State) : Bool :=
  !s.tb.edgeSeen && s.tb.stepEn && s.loadCount % max s.tb.period 1 = 0 && s.now < s.loadCount

/-- What every edge in follow mode records, its offset measured against `period` (02 R53 to R55). -/
def State.edgeRecorded (period : Nat) (stepped refused : Bool) (s : State) : State :=
  let d := syncDist s.now period
  ({ s with tb := { s.tb with
    edgeSeen := true, lastEdge := s.now, stepped := stepped, refused := refused, offset := clampInt (-32767) 32767 d,
    aligned := d.natAbs ≤ 2, rate := d.sign, slewLeft := d.natAbs, noEdge := false } } : State).endPresent 54 2

theorem State.syncEdge_of_not_follow {s : State} (h : s.tb.mode ≠ 1) : s.syncEdge = s := if_pos h

theorem State.syncEdge_of_follow {s : State} (h : s.tb.mode = 1) :
    s.syncEdge = (if s.edgeSteps then s.stepTo s.loadCount else s).edgeRecorded s.tb.period (s.tb.stepped || s.edgeSteps)
      (s.tb.refused || (!s.tb.edgeSeen && s.tb.stepEn && !s.edgeSteps)) := if_neg (not_not_intro h)

theorem State.edgeSteps_iff (s : State) : s.edgeSteps = true ↔
    s.tb.edgeSeen = false ∧ s.tb.stepEn = true ∧ s.loadCount % max s.tb.period 1 = 0 ∧ s.now < s.loadCount := by
  simp only [State.edgeSteps, Bool.and_eq_true, Bool.not_eq_true', decide_eq_true_eq, and_assoc]

theorem State.syncEdge_step {s : State} (hm : s.tb.mode = 1) (h : s.edgeSteps = true) :
    s.syncEdge = (s.stepTo s.loadCount).edgeRecorded s.tb.period true s.tb.refused := by
  rw [State.syncEdge_of_follow hm, h]
  simp only [if_true, Bool.or_true, Bool.not_true, Bool.and_false, Bool.or_false]

theorem State.syncEdge_measure {s : State} (hm : s.tb.mode = 1) (h : s.edgeSteps = false) :
    s.syncEdge = s.edgeRecorded s.tb.period s.tb.stepped (s.tb.refused || (!s.tb.edgeSeen && s.tb.stepEn)) := by
  rw [State.syncEdge_of_follow hm, h]
  simp only [Bool.false_eq_true, if_false, Bool.or_false, Bool.not_false, Bool.and_true]

/-- SYNC risen now, and its pulse counted (02 R53). -/
def State.pulsed (s : State) : State := { s with tb := { s.tb with syncHigh := some s.now, pulses := s.tb.pulses + 1 } }

theorem State.syncLead_pulse {s : State} (hm : s.tb.mode = 2) (h : s.now % max s.tb.period 1 = 0) : s.syncLead = s.pulsed :=
  if_pos ⟨hm, h⟩

theorem State.syncLead_of_not_lead {s : State} (h : s.tb.mode ≠ 2) : s.syncLead = s := if_neg fun hc => h hc.1

/-- At any later count, SYNC is high for 1 µs from its rise (02 R53). -/
theorem State.syncPin_pulsed {s : State} (hm : s.tb.mode = 2) (n : Tick) :
    ({ s.pulsed with now := n } : State).syncPin = decide (n < s.now + us) := by
  change (decide (s.tb.mode = 2) && decide (n < s.now + us)) = _
  rw [decide_eq_true hm, Bool.true_and]

theorem State.syncLost_of_late {s : State} (hm : s.tb.mode = 1) (hl : 2 * s.tb.lastEdge + 3 * s.tb.period ≤ 2 * s.now)
    (hn : s.tb.noEdge = false) :
    s.syncLost = ({ s with tb := { s.tb with lost := true, aligned := false, noEdge := true } } : State).raise 54 2 0 0 0 :=
  if_pos ⟨hm, hl, by rw [hn]; rfl⟩

theorem State.syncLost_of_not_late {s : State}
    (h : s.tb.mode ≠ 1 ∨ s.tb.noEdge = true ∨ 2 * s.now < 2 * s.tb.lastEdge + 3 * s.tb.period) : s.syncLost = s := by
  refine if_neg fun ⟨hm, hl, hn⟩ => ?_
  obtain h | h | h := h
  · exact h hm
  · rw [h] at hn
    exact absurd hn (by decide)
  · exact absurd hl (Nat.not_le.2 h)

/-- Settles O45: each happening of the pin acts at its tick, by the lemma on its operation. -/
theorem syncPinSetsCountsAndLosesTheTimebase : Obligations.SyncPinSetsCountsAndLosesTheTimebase := by
  intro τ s hs b load
  refine ⟨fun hm => next_onTick hs (State.syncEdge_of_not_follow hm), fun hm he hst hl hn => ?_, fun hm h => ?_,
    fun hm h => ⟨next_onTick hs (State.syncLead_pulse hm h), ?_, fun n hn => ?_⟩,
    fun hm => next_onTick hs (State.syncLead_of_not_lead hm), fun hm hl hn => next_onTick hs (State.syncLost_of_late hm hl hn),
    fun h => next_onTick hs (State.syncLost_of_not_late h)⟩
  · have hstep := State.syncEdge_step hm (b.edgeSteps_iff.2 ⟨he, hst, hl, hn⟩)
    rw [show b.loadCount = load from rfl] at hstep
    exact next_onTick hs hstep
  · have hno : b.edgeSteps = false := by
      rw [← Bool.not_eq_true, State.edgeSteps_iff]
      intro ⟨he, hst, hl, hn⟩
      obtain h | h | h | h := h
      · exact absurd (he.symm.trans h) (by decide)
      · exact absurd (hst.symm.trans h) (by decide)
      · exact h hl
      · exact absurd hn (Nat.not_lt.2 h)
    exact next_onTick hs (State.syncEdge_measure hm hno)
  · exact (State.syncPin_pulsed hm b.now).trans (decide_eq_true (Nat.lt_add_of_pos_right (by decide)))
  · exact (State.syncPin_pulsed hm n).trans (decide_eq_false (Nat.not_lt.2 hn))

end Sys2Proof.Machine
end

section
/-!
PROOFS. The commands that start output actions and transactions, and those that withdraw them (02 R67, R68, R71, R76; 03 R100;
04 R168).
-/
namespace Sys2Proof.Machine

/-! ## A ring command that acts -/

section
variable {h : Hdr} {op : Nat} {c : State → Cmd} {act : State → State × Option Reply} {s : State}
  (hl : s.lets h op (c (s.advance h.at_)).own (c (s.advance h.at_)).locked = true) (hb : (c (s.advance h.at_)).bad = none)
  (ht : ∀ t, (c (s.advance h.at_)).tile = some t → s.serves h.at_ t = true) (hn : (c (s.advance h.at_)).needs = [.online])
include hl hb ht hn

/-- A ring command that may act and gives no completion yet. -/
theorem next_onRing_waits {u : State} (ha : act (s.begins h op) = (u, none)) :
    (.next (s.onRing h op c act) : Host.Outcome State Fault Refusal) = .next u.finish := by
  rw [State.onRing_acts hl hb ht hn, ha]

/-- A ring command that may act and completes at once. -/
theorem next_onRing_completes {u : State} {r : Reply} (ha : act (s.begins h op) = (u, some r)) :
    (.next (s.onRing h op c act) : Host.Outcome State Fault Refusal) = .next (u.reply h op r).finish := by
  rw [State.onRing_acts hl hb ht hn, ha]

end

/-! ## Transactions -/

/-- A transaction that R71 and R270 let pass is staged. -/
theorem State.submitTxn_stages {h : Hdr} {c : Tick} {ms : List Member} {s : State} (h1 : 1 ≤ h.arg) (h512 : h.arg ≤ 512)
    (hlen : ms.length = h.arg) (htag : s.txn h.port h.tag = none) (hms : s.badMember ms = none) (hlo : s.now + 10000 ≤ c)
    (hhi : c ≤ s.now + 10 * sec) (hroom : s.txns.length < 32) :
    s.submitTxn h c ms = ({ (s.margin 54 2 (c - (s.now + 10000))) with
      order := s.order + 1, txns := s.txns ++ [{ h := h, c := c, members := ms, order := s.order }] }, none) := by
  have hc : c ≠ 0 := (Nat.lt_of_lt_of_le (Nat.add_pos_right _ (by decide)) hlo).ne'
  unfold State.submitTxn
  rw [if_neg (by omega), if_neg hc, if_neg (by rw [htag]; exact Bool.false_ne_true), hms]
  dsimp only
  rw [if_neg (Nat.not_lt.2 hlo), if_neg (Nat.not_lt.2 hhi), if_neg (Nat.not_le.2 hroom)]

/-- A transaction of the port that is undecided before D is marked (02 R76). -/
theorem State.cancelTxn_marks {p : PortId} {tag : Nat} {x : Txn} {s : State} (hx : s.txn p tag = some x)
    (hu : x.decided = none) (hd : s.now < x.d) :
    s.cancelTxn p tag = (s.modTxn p tag fun x => { x with cancelled := true }, Reply.ok 0) := by
  have hc : ¬(x.decided.isSome || decide (x.d ≤ s.now)) = true := by
    rw [hu, decide_eq_false (Nat.not_le.2 hd)]
    exact Bool.false_ne_true
  unfold State.cancelTxn
  rw [hx]
  exact if_neg hc

/-- Settles O21: both commands need no tile, and act by the lemmas on their operations. -/
theorem transactionsAreQueuedAndCancelled : Obligations.TransactionsAreQueuedAndCancelled := by
  intro h s
  constructor
  · intro commit members hl b h1 h512 hlen htag hms hlo hhi hroom
    have hr : b.txns.length < 32 := by rwa [State.begins_txns]
    have ha := State.submitTxn_stages h1 h512 hlen htag hms hlo hhi hr
    rw [State.begins_order, State.begins_txns] at ha
    exact next_onRing_waits (c := fun _ => { own := memberOwn members }) (by simpa only using hl) rfl (fun _ ht => nomatch ht)
      rfl ha
  · intro tag x hl b hx hu hd
    refine next_onRing_completes (c := fun _ => {}) hl rfl (fun _ ht => nomatch ht) rfl ?_
    rw [State.cancelTxn_marks hx hu hd]

/-! ## Single output actions -/

/-- OUT_SET within the channel's limit sends its action. -/
theorem State.outSet_sends {h : Hdr} {commit value : Nat} {s : State} (hm : (s.chan (h.arg / 32) (h.arg % 32)).mode ≠ .dop)
    (hv : value ≤ (s.chan (h.arg / 32) (h.arg % 32)).outMax) :
    s.outSet h commit value = (s.sendAction h 0 value commit 0x11, none) :=
  (if_neg hm).trans (if_neg (Nat.not_lt.2 hv))

theorem State.mirForce_sends {h : Hdr} {commit value : Nat} {s : State}
    (hm : (s.chan (h.arg / 32) (h.arg % 32)).mode ≠ .dop) :
    s.mirForce h commit value = (s.sendAction h 1 value commit 0x12, none) := if_neg hm

/-- The action joins those that were on their way before the command began. -/
theorem State.sendAction_begins (h : Hdr) (op kind value commit op' : Nat) (s : State) :
    (s.begins h op).sendAction h kind value commit op' = { s.begins h op with
      order := s.order + 1, transit := s.transit ++ [⟨h, kind, h.arg, value, commit, s.order, op'⟩] } := by
  unfold State.sendAction
  rw [State.begins_order, State.begins_transit]

theorem argBad_none {arg size : Nat} (h : arg < size) : argBad arg size = none := if_neg (Nat.not_le.2 h)

/-- Settles O22: every command acts on a channel of a tile that serves; OUT_SET and MIR_FORCE send, and OUT_CANCEL
withdraws. -/
theorem outputActionsGoToTheirTile : Obligations.OutputActionsGoToTheirTile := by
  intro h s harg hserves ch sent
  have hb := argBad_none harg
  have ht (t : Nat) (e : some (h.arg / 32) = some t) : s.serves h.at_ t = true := Option.some.inj e ▸ hserves
  constructor
  · intro hm commit
    have hmode (op : Nat) : ((s.begins h op).chan (h.arg / 32) (h.arg % 32)).mode ≠ .dop := by rwa [State.begins_chan]
    have forces (value : Nat) :
        (s.begins h 0x12).mirForce h commit value = (sent 1 value commit 0x12, none) := by
      rw [State.mirForce_sends (hmode _), State.sendAction_begins]
    refine ⟨fun value hl hv => next_onRing_waits hl hb ht rfl ?_, fun hl => ⟨?_, ?_, ?_⟩⟩
    · rw [State.outSet_sends (hmode _) (by rwa [State.begins_chan]), State.sendAction_begins]
    · exact next_onRing_waits hl hb ht rfl (forces 0)
    · exact next_onRing_waits hl hb ht rfl (forces 1)
    · exact next_onRing_waits hl hb ht rfl (forces 2)
  · intro hl mine gone
    refine next_onRing_completes hl hb ht rfl ?_
    simp only [State.cancelActions, State.begins_chan, State.begins_transit]
    rfl

end Sys2Proof.Machine
end

section
/-!
PROOFS. The course of a transaction from its members' arrival to its completion (02 R71 to R76, Table 2-8; 12 R414).
-/
namespace Sys2Proof.Machine

/-! ## Happenings at the pins of a tile -/

/-- A happening at the pins of a powered tile, from what its operation makes of the state there. -/
theorem next_onPower {τ : Tick} {t : Nat} {f : State → State} {s u : State} (hs : s.power = .running)
    (hp : ((s.atTile τ t).tile t).powered = true) (h : f (s.atTile τ t) = u) :
    (.next (s.onPower τ t f) : Host.Outcome State Fault Refusal) = .next u.finish := by
  rw [State.onPower_acts hs hp, h]

/-- At a tile without power none acts. -/
theorem next_onPower_dark {τ : Tick} {t : Nat} {f : State → State} {s : State} (hs : s.power = .running)
    (hp : ((s.advance τ).tile t).powered = false) :
    (.next (s.onPower τ t f) : Host.Outcome State Fault Refusal) = .next (s.advance τ).finish :=
  next_onTick hs (if_neg (by rw [hp]; exact Bool.false_ne_true))

/-! ## Where no such transaction is staged -/

section
variable {p : PortId} {tag : Nat} {s : State} (hx : s.txn p tag = none)
include hx

theorem State.txnArrive_of_none (t : Nat) : s.txnArrive p tag t = s := by
  unfold State.txnArrive
  rw [hx]

theorem State.txnGot_of_none (t : Nat) : s.txnGot p tag t = s := by
  unfold State.txnGot
  rw [hx]

theorem State.txnDecide_of_none : s.txnDecide p tag = s := by
  unfold State.txnDecide
  rw [hx]

theorem State.txnTold_of_none (t : Nat) : s.txnTold p tag t = s := by
  unfold State.txnTold
  rw [hx]

theorem State.txnCommit_of_none (t : Nat) : s.txnCommit p tag t = s := by
  unfold State.txnCommit
  rw [hx]

theorem State.txnReport_of_none (t : Nat) : s.txnReport p tag t = s := by
  unfold State.txnReport
  simp only [hx]

end

/-! ## A staged transaction -/

section
variable {p : PortId} {tag t : Nat} {s : State} {x : Txn} (hx : s.txn p tag = some x)
include hx

/-- The members arrive at a member tile that has its link, which answers once (02 R72). -/
theorem State.txnArrive_answers (ht : x.tiles.contains t = true) (ha : x.arrived.contains t = false)
    (hl : (s.tile t).lost = false) :
    s.txnArrive p tag t = s.modTxn p tag fun x => { x with
      arrived := x.arrived ++ [t],
      answers := if x.got.any (fun a => a.1 = t) then x.answers else x.answers ++ [(s.tile t).txnAnswer t (x.on t)] } := by
  have hc : ¬(!x.tiles.contains t || x.arrived.contains t || (s.tile t).lost) = true := by
    rw [ht, ha, hl]
    exact Bool.false_ne_true
  unfold State.txnArrive
  rw [hx]
  exact if_neg hc

/-- An answer reaches the undecided transaction `y` that it leaves, with the margin to D at the last READY (02 R72, R80). -/
theorem State.txnGot_takes {a : Nat × Nat × Nat} (hf : x.answers.find? (fun a => decide (a.1 = t)) = some a)
    (hu : x.decided = none) (hl : (s.tile t).lost = false) {u : State} {y : Txn}
    (hm : u = s.modTxn p tag fun x => { x with answers := x.answers.filter (fun b => b.1 ≠ t), got := x.got ++ [a] })
    (hy : u.txn p tag = some y) :
    s.txnGot p tag t = if y.allReady && decide (u.now < y.d) then u.margin 54 2 (y.d - u.now) else u := by
  have hc : ¬(x.decided.isSome || (s.tile t).lost) = true := by
    rw [hu, hl]
    exact Bool.false_ne_true
  unfold State.txnGot
  rw [hx]
  dsimp only
  rw [hf]
  dsimp only
  rw [if_neg hc, ← hm, hy]

/-- At D or after it an undecided transaction is decided; a tile that neither is READY nor refuses is a deadline fault (02 R72,
R73). -/
theorem State.txnDecide_decides {ok : Bool} {a : State} (hu : x.decided = none) (hd : x.d ≤ s.now)
    (hok : ok = (x.allReady && !x.cancelled))
    (ha : a = (s.modTxn p tag fun x => { x with decided := some ok }).holdPulses x.c x.members) :
    s.txnDecide p tag = if !ok && !x.cancelled && x.refusal.isNone then
      a.raise 54 4 0 (tag % 65536) (sat 0xFFFFFFFF (a.now - x.d)) else a := by
  subst hok ha
  have hc : ¬(x.decided.isSome || decide (s.now < x.d)) = true := by
    rw [hu, decide_eq_false (Nat.not_lt.2 hd)]
    exact Bool.false_ne_true
  unfold State.txnDecide
  rw [hx]
  exact if_neg hc

/-- The decision reaches a member tile that has its link (02 R72). -/
theorem State.txnTold_holds (hd : x.decided.isSome = true) (ha : x.arrived.contains t = true)
    (hh : x.held.contains t = false) (he : x.ended.contains t = false) (hl : (s.tile t).lost = false) :
    s.txnTold p tag t = s.modTxn p tag fun x => { x with held := x.held ++ [t] } := by
  unfold State.txnTold
  rw [hx]
  dsimp only
  rw [hd, ha, hh, he, hl]
  rfl

/-- A member tile that has ended reports, and the transaction `y` that the report leaves completes when no report is missing
(02 R73). -/
theorem State.txnReport_reports (he : x.ended.contains t = true) (hr : x.reported.contains t = false)
    (hl : (s.tile t).lost = false) {a : State} {y : Txn}
    (hm : a = s.modTxn p tag fun x => { x with reported := x.reported ++ [t] }) (hy : a.txn p tag = some y) :
    s.txnReport p tag t = if y.ovr a then
      { a with txns := a.txns.filter fun z => !(z.h.port = p ∧ z.h.tag = tag) }.reply y.h 0xA8 y.reply else a := by
  have hc : (x.ended.contains t && !x.reported.contains t && !(s.tile t).lost) = true := by rw [he, hr, hl]; rfl
  unfold State.txnReport
  rw [hx]
  dsimp only
  rw [if_pos hc, ← hm, hy]

section
variable (ha : x.arrived.contains t = true) (he : x.ended.contains t = false) (hl : x.lost.contains t = false)
  (hc : x.c ≤ s.tnow t)
include ha he hl hc

/-- C at a member tile whose members have arrived, by what the tile holds (02 R72, R74). -/
theorem State.txnCommit_ends :
    s.txnCommit p tag t =
      (let s := if x.held.contains t && x.decided = some true then forAll (State.txnMember x) (x.on t) s else s
       let s := s.modTxn p tag fun y => { y with
         ended := y.ended ++ [t], orphans := if x.held.contains t then y.orphans else y.orphans ++ [t] }
       if !x.held.contains t then s.txnOrphan x t
       else if x.decided = some true then s
       else forAll (fun (m : Member) s => s.discard t (m.g % 32) 3 5) (x.on t) s) := by
  have hn : ¬(!x.arrived.contains t || x.ended.contains t || x.lost.contains t || decide (s.tnow t < x.c)) = true := by
    rw [ha, he, hl, decide_eq_false (Nat.not_lt.2 hc)]
    exact Bool.false_ne_true
  unfold State.txnCommit
  rw [hx]
  exact if_neg hn

theorem State.txnCommit_commits (hh : x.held.contains t = true) (hd : x.decided = some true) :
    s.txnCommit p tag t =
      (forAll (State.txnMember x) (x.on t) s).modTxn p tag fun y => { y with ended := y.ended ++ [t] } := by
  rw [State.txnCommit_ends hx ha he hl hc, hh, hd]
  rfl

theorem State.txnCommit_discards (hh : x.held.contains t = true) (hd : x.decided ≠ some true) :
    s.txnCommit p tag t = forAll (fun (m : Member) u => u.discard t (m.g % 32) 3 5) (x.on t)
      (s.modTxn p tag fun y => { y with ended := y.ended ++ [t] }) := by
  rw [State.txnCommit_ends hx ha he hl hc, hh, decide_eq_false hd]
  exact if_neg hd

theorem State.txnCommit_orphans (hh : x.held.contains t = false) :
    s.txnCommit p tag t = (s.modTxn p tag fun y => { y with
      ended := y.ended ++ [t], orphans := y.orphans ++ [t] }).txnOrphan x t := by
  rw [State.txnCommit_ends hx ha he hl hc, hh]
  rfl

end
end

/-- Settles O46: each row of a transaction's course acts at its tick, by the lemma on its operation. -/
theorem transactionIsAskedDecidedCommittedAndReported : Obligations.TransactionIsAskedDecidedCommittedAndReported := by
  intro τ tag t p s hs b k
  have hk : k.txn p tag = b.txn p tag := rfl
  have atPins : (b.tile t).powered = true → (k.tile t).powered = true := id
  refine ⟨fun hp => next_onPower_dark hs hp, fun hx => ⟨?_, ?_, ?_, ?_, fun hp => ?_, ?_⟩,
    fun x hx => ⟨?_, ?_, ?_, ?_, ?_, ?_⟩⟩
  · exact next_onTick hs (State.txnArrive_of_none hx t)
  · exact next_onTick hs (State.txnGot_of_none hx t)
  · exact next_onTick hs (State.txnDecide_of_none hx)
  · exact next_onTick hs (State.txnTold_of_none hx t)
  · exact next_onPower hs (atPins hp) (State.txnCommit_of_none (hk.trans hx) t)
  · exact next_onTick hs (State.txnReport_of_none hx t)
  · intro ht ha hl
    exact next_onTick hs (State.txnArrive_answers hx ht ha hl)
  · intro a hf hu hl u y hy
    exact next_onTick hs (State.txnGot_takes hx hf hu hl rfl hy)
  · intro hu hd ok a
    have hdec := State.txnDecide_decides hx hu hd (ok := ok) (a := a) rfl rfl
    refine ⟨fun h => next_onTick hs (hdec.trans (if_neg ?_)), fun ho hn hr => next_onTick hs (hdec.trans (if_pos ?_))⟩
    · simp only [Bool.and_eq_true, Bool.not_eq_true', Option.isNone_iff_eq_none]
      rintro ⟨⟨ho, hn⟩, hr⟩
      simp [ho, hn, hr] at h
    · rw [ho, hn, hr]
      rfl
  · intro hd ha hh he hl
    exact next_onTick hs (State.txnTold_holds hx hd ha hh he hl)
  · intro hp ha he hl hc
    have hx' := hk.trans hx
    exact ⟨fun hh hd => next_onPower hs (atPins hp) (State.txnCommit_commits hx' ha he hl hc hh hd),
      fun hh hd => next_onPower hs (atPins hp) (State.txnCommit_discards hx' ha he hl hc hh hd),
      fun hh => next_onPower hs (atPins hp) (State.txnCommit_orphans hx' ha he hl hc hh)⟩
  · intro he hr hl a y hy
    have hrep := State.txnReport_reports hx he hr hl rfl hy
    exact ⟨fun ho => next_onTick hs (hrep.trans (if_neg (by rw [ho]; exact Bool.false_ne_true))),
      fun ho => next_onTick hs (hrep.trans (if_pos ho))⟩

end Sys2Proof.Machine
end

section
/-!
PROOFS. Single output actions at their tile, and the protections of the switches (02 R67, R68, R80; 03 R101 to R104, Table
3-10).
-/
namespace Sys2Proof.Machine

/-! ## An action on its way -/

/-- An action on its way whose tile has its link arrives there. -/
theorem State.actionCame_arrives {p : PortId} {ring cnt : Nat} {a : Action} {s : State}
    (hf : (s.transit.find? fun a => a.h.port = p && a.h.ring = ring && a.h.cnt = cnt) = some a)
    (hl : (s.tile (a.g / 32)).lost = false) :
    s.actionCame p ring cnt = ({ s with transit := s.transit.erase a } : State).arriveAction a := by
  unfold State.actionCame
  rw [hf]
  exact if_neg (by rw [hl]; exact Bool.false_ne_true)

section
variable {a : Action} {s : State}

/-- After its commit tick an action is discarded with the deadline fault (02 R67). -/
theorem State.arriveAction_late (hc : a.commit ≠ 0) (hp : a.commit < s.tnow (a.g / 32)) :
    s.arriveAction a = ((s.discard (a.g / 32) (a.g % 32) 1 6).raiseCh (35 + a.g / 32) 10 (a.g % 32) a.g 0
      (sat 0xFFFFFFFF (s.tnow (a.g / 32) - a.commit))).reply a.h a.opcode { st := 5 } := if_pos ⟨hc, hp⟩

/-- An action in time is pre-checked, and accessioned or staged (02 R67; 03 R101). -/
theorem State.arriveAction_in_time (ht : a.commit = 0 ∨ s.tnow (a.g / 32) ≤ a.commit) :
    s.arriveAction a =
      (if (s.tile (a.g / 32)).preCheck (a.g % 32) a.kind a.value = 0 then
        if a.commit = 0 then s.commitAction (a.g / 32) (a.g % 32) a
        else (s.margin (35 + a.g / 32) 3 (a.commit - s.tnow (a.g / 32))).modChan (a.g / 32) (a.g % 32) fun ch =>
          { ch with staged := stageAction a ch.staged }
      else s.refuseAction (a.g / 32) (a.g % 32) ((s.tile (a.g / 32)).preCheck (a.g % 32) a.kind a.value) a) := by
  have hn : ¬(a.commit ≠ 0 ∧ a.commit < s.tnow (a.g / 32)) := fun ⟨hc, hp⟩ =>
    ht.elim hc (Nat.not_le.2 hp)
  unfold State.arriveAction
  dsimp only
  rw [if_neg hn]
  split
  · next h =>
    rw [if_pos h]
    by_cases hc : a.commit = 0
    · simp only [if_pos hc]
    · simp only [if_neg hc]
  · next h =>
    rw [if_neg h]

/-- An action without commit tick is accessioned with its completion. -/
theorem State.commitAction_at_once (t c : Nat) (hc : a.commit = 0) :
    s.commitAction t c a = (((s.modChan t c fun ch => { ch with
      staged := ch.staged.filter fun x => decide (x ≠ a) }).accessionOut t c a.kind a.value 0 a.h.port.code 0 a.h.tag).reply a.h
        a.opcode (Reply.ok 0)).refresh t := by
  unfold State.commitAction State.commitDueOne State.accDue
  dsimp only
  rw [if_pos hc]

end

/-- The commanded actions due are accessioned in the order of R68. -/
theorem State.commitDue_all (t c : Nat) (s : State) :
    (s.commitDue t c fun _ => true) = forAll (State.commitDueOne t c) (s.dues t c) s := by
  unfold State.commitDue
  rw [List.filter_true]

/-! ## Switches that run -/

section
variable {t c : Nat} {s : State}

/-- The switch of a DO or MIR channel that runs: only such a one can be overloaded. -/
def Tile.switches (T : Tile) (l : Nat) (now : Tick) : Bool :=
  ((T.chan l).mode = .dout || (T.chan l).mode = .mir) && T.runs l now

theorem Tile.not_switches (T : Tile) (l : Nat) (now : Tick) :
    (!((T.chan l).mode = .dout || (T.chan l).mode = .mir) || !T.runs l now) = !T.switches l now := (Bool.not_and _ _).symm

theorem Tile.switches_of_runs {T : Tile} {l : Nat} {now : Tick} (hm : (T.chan l).mode = .dout ∨ (T.chan l).mode = .mir)
    (hr : T.runs l now = true) : T.switches l now = true := by
  obtain hm | hm := hm <;> rw [Tile.switches, hm, hr] <;> rfl

theorem Tile.switches_eq_false {T : Tile} {l : Nat} {now : Tick} (hd : (T.chan l).mode ≠ .dout)
    (h : (T.chan l).mode ≠ .mir ∨ T.runs l now = false) : T.switches l now = false := by
  unfold Tile.switches
  obtain h | h := h
  · rw [decide_eq_false hd, decide_eq_false h]
    rfl
  · rw [h, Bool.and_false]

/-- A short circuit shows SHORT_GND, and the switch is held off for a retry in 100 ms or latched (03 R102). -/
theorem State.shortGnd_limits (h : (s.tile t).switches ((s.tile t).lead c) (s.tnow t) = true) :
    s.shortGnd t c = ((s.setDiag t c 0 true).protect t ((s.tile t).lead c) fun o =>
      if ((s.tile t).chan ((s.tile t).lead c)).retryEn && decide (o.retries < 3) then
        { o with retryAt := some (s.tnow t + 100 * ms) }
      else { o with latch := true }).refresh t :=
  if_neg (by rw [Tile.not_switches, h]; exact Bool.false_ne_true)

theorem State.shortGnd_idle (h : (s.tile t).switches ((s.tile t).lead c) (s.tnow t) = false) : s.shortGnd t c = s :=
  if_pos (by rw [Tile.not_switches, h]; rfl)

/-- More load than declared shows OVER_DECL and latches the switch off (03 R104). -/
theorem State.overDecl_latches (h : (s.tile t).switches ((s.tile t).lead c) (s.tnow t) = true) :
    s.overDecl t c = ((s.setDiag t c 7 true).protect t ((s.tile t).lead c) fun o => { o with latch := true }).refresh t :=
  if_neg (by rw [Tile.not_switches, h]; exact Bool.false_ne_true)

theorem State.overDecl_idle (h : (s.tile t).switches ((s.tile t).lead c) (s.tnow t) = false) : s.overDecl t c = s :=
  if_pos (by rw [Tile.not_switches, h]; rfl)

/-- The retry releases a switch that is held off and not latched, when it is due (03 R102). -/
theorem State.overloadRetry_due {x : Tick} (hx : (s.chan t ((s.tile t).lead c)).o.retryAt = some x) (hd : x ≤ s.tnow t)
    (hp : (s.chan t ((s.tile t).lead c)).o.prot = true) (hl : (s.chan t ((s.tile t).lead c)).o.latch = false) :
    s.overloadRetry t c = ((s.modOut t ((s.tile t).lead c) fun o => { o with retryAt := none }).endProt t
      ((s.tile t).lead c) true).refresh t := by
  unfold State.overloadRetry
  dsimp only
  rw [hx, hp, hl]
  exact if_pos (by rw [decide_eq_true hd]; rfl)

/-! ## Overheating -/

theorem State.thermal_of_no_bit (h : ((s.tile t).chan c).mode.thermalBit = none) : s.thermal t c = s := by
  unfold State.thermal
  dsimp only
  rw [h]

theorem State.thermalEnd_of_no_bit (h : ((s.tile t).chan c).mode.thermalBit = none) : s.thermalEnd t c = s := by
  unfold State.thermalEnd
  dsimp only
  rw [h]

section
variable {k : Nat} (hk : ((s.tile t).chan c).mode.thermalBit = some k)
include hk

/-- Overheating of an output or excitation shows THERMAL; an output channel is hot, and is held off by its protection (03
R103). -/
theorem State.thermal_of_bit :
    s.thermal t c =
      (let T := s.tile t
       let l := T.lead c
       let ch := T.chan l
       let s := s.setDiag t c k true
       if ch.mode.isOut then
         let s := s.modOut t l fun o => { o with hot := true }
         (if ch.mode.isAo then (if T.safe l then s else s.modOut t l fun o => { o with prot := true })
          else s.protect t l fun o => if ch.retryEn && o.retries < 3 then o else { o with latch := true }).refresh t
       else s.refresh t) := by
  unfold State.thermal
  dsimp only
  rw [hk]

theorem State.thermal_switch
    (hm : ((s.tile t).chan ((s.tile t).lead c)).mode = .dout ∨ ((s.tile t).chan ((s.tile t).lead c)).mode = .mir) :
    s.thermal t c = (((s.setDiag t c k true).modOut t ((s.tile t).lead c) fun o => { o with hot := true }).protect t
      ((s.tile t).lead c) fun o =>
        if ((s.tile t).chan ((s.tile t).lead c)).retryEn && decide (o.retries < 3) then o
        else { o with latch := true }).refresh t := by
  rw [State.thermal_of_bit hk]
  obtain hm | hm := hm <;> dsimp only <;> rw [hm] <;> rfl

theorem State.thermal_analogue (hm : ((s.tile t).chan ((s.tile t).lead c)).mode.isAo = true)
    (hs : (s.tile t).safe ((s.tile t).lead c) = false) :
    s.thermal t c = (((s.setDiag t c k true).modOut t ((s.tile t).lead c) fun o => { o with hot := true }).modOut t
      ((s.tile t).lead c) fun o => { o with prot := true }).refresh t := by
  have ho : ((s.tile t).chan ((s.tile t).lead c)).mode.isOut = true := by
    revert hm
    cases ((s.tile t).chan ((s.tile t).lead c)).mode <;> decide
  rw [State.thermal_of_bit hk]
  dsimp only
  rw [ho, hm, hs]
  rfl

theorem State.thermal_excitation (ho : ((s.tile t).chan ((s.tile t).lead c)).mode.isOut = false) :
    s.thermal t c = (s.setDiag t c k true).refresh t := by
  rw [State.thermal_of_bit hk]
  dsimp only
  rw [ho]
  rfl

/-- The end of overheating on a channel that is not hot ends THERMAL alone. -/
theorem State.thermalEnd_of_not_hot
    (hh : (((s.setDiag t c k false).tile t).chan ((s.tile t).lead c)).o.hot = false) :
    s.thermalEnd t c = (s.setDiag t c k false).refresh t := by
  unfold State.thermalEnd
  dsimp only
  rw [hk]
  dsimp only
  rw [hh]
  rfl

end
end

/-- Settles O47: an action in transit arrives by the cases of its commit tick and pre-check; at a powered tile the commit and the
protections act by the lemmas on their operations. -/
theorem actionsArriveCommitAndSwitchesProtectThemselves : Obligations.ActionsArriveCommitAndSwitchesProtectThemselves := by
  intro τ t c s hs b
  constructor
  · intro p ring cnt a hf hl e u k why
    have arrives {v : State} (h : e.arriveAction a = v) :
        (.next (s.onTick τ (State.actionCame p ring cnt)) : Host.Outcome State Fault Refusal) = .next v.finish :=
      next_onTick hs ((State.actionCame_arrives hf hl).trans h)
    refine ⟨fun hc hp => arrives (State.arriveAction_late hc hp), fun ht => ?_⟩
    have hcase := State.arriveAction_in_time (s := e) ht
    refine ⟨fun hw => arrives (hcase.trans (if_neg hw)), fun hw hc => ?_, fun hw hc => ?_⟩
    · exact arrives ((hcase.trans ((if_pos hw).trans (if_pos hc))).trans (State.commitAction_at_once u k hc))
    · exact arrives (hcase.trans ((if_pos hw).trans (if_neg hc)))
  · intro b T l now hp
    have acts {f : State → State} {v : State} (h : f b = v) := next_onPower hs hp h
    refine ⟨acts (State.commitDue_all t c b), fun hm hr => ?_, fun hd h => ?_, fun x hx hd hpr hla => ?_, fun k hk => ?_,
      fun hk => ⟨acts (State.thermal_of_no_bit hk), acts (State.thermalEnd_of_no_bit hk)⟩⟩
    · have hsw := Tile.switches_of_runs hm hr
      exact ⟨acts (State.shortGnd_limits hsw), acts (State.overDecl_latches hsw)⟩
    · have hsw := Tile.switches_eq_false hd h
      exact ⟨acts (State.shortGnd_idle hsw), acts (State.overDecl_idle hsw)⟩
    · exact acts (State.overloadRetry_due hx hd hpr hla)
    · exact ⟨fun hm => acts (State.thermal_switch hk hm), fun hm hsafe => acts (State.thermal_analogue hk hm hsafe),
        fun ho => ⟨acts (State.thermal_excitation hk ho), fun hh => acts (State.thermalEnd_of_not_hot hk hh)⟩⟩

end Sys2Proof.Machine
end

section
/-!
PROOFS. The mode command: which settings a write to CH_MODE leaves as they are, and which it changes (03 R82, R83; 04 R122; 07
Table 7-7).
-/
namespace Sys2Proof.Machine

/-! ## A channel replaced, as its settings see it -/

/-- Replacing an element, seen through `p`. -/
theorem map_updAt_of_comm {α β : Type} {p : α → β} {f : α → α} {g : β → β} (h : ∀ x, p (f x) = g (p x)) (i : Nat) (xs : List α) :
    (updAt f i xs).map p = updAt g i (xs.map p) := by
  induction xs generalizing i with
  | nil => simp [updAt]
  | cons x xs ih =>
    cases i with
    | zero => simp [updAt, h]
    | succ i => simp [updAt, ih]

/-- Replacing an element depends on its image alone. -/
theorem updAt_congr {α : Type} {f g : α → α} {i : Nat} {xs : List α} {d : α} (h : f (xs.getD i d) = g (xs.getD i d)) :
    updAt f i xs = updAt g i xs := by
  induction xs generalizing i with
  | nil => simp [updAt]
  | cons x xs ih =>
    cases i with
    | zero => exact congrArg (· :: xs) h
    | succ i => exact congrArg (x :: ·) (ih h)

section
variable {t c : Nat} {f g : Chan → Chan} {u s : State}

theorem State.modChan_congr (h : f (s.chan t c) = g (s.chan t c)) : s.modChan t c f = s.modChan t c g := by
  have ht : (s.tile t).modChan c f = (s.tile t).modChan c g := by
    unfold Tile.modChan
    rw [updAt_congr h]
  unfold State.modChan State.modTile
  rw [updAt_congr ht]

/-- Of all settings, replacing a channel replaces its own alone. -/
theorem State.modChan_settings {k : Mode × Nat × Word × Word} (h : ∀ x, (f x).setting = k) :
    (s.modChan t c f).settings = (updAt (fun T => (updAt (fun _ => k) c T.1, T.2)) t s.settings.1, s.settings.2) := by
  have ht (T : Tile) : (T.modChan c f).settings = (updAt (fun _ => k) c T.settings.1, T.settings.2) := by
    unfold Tile.modChan Tile.settings
    rw [map_updAt_of_comm (g := fun _ => k) h]
  unfold State.modChan State.modTile State.settings
  rw [map_updAt_of_comm (g := fun T => (updAt (fun _ => k) c T.1, T.2)) ht]

/-- The same replacement from equal settings gives equal settings. -/
theorem State.modChan_settings_eq {k : Mode × Nat × Word × Word} (hf : ∀ x, (f x).setting = k) (hg : ∀ x, (g x).setting = k)
    (h : u.settings = s.settings) : (u.modChan t c f).settings = (s.modChan t c g).settings := by
  rw [State.modChan_settings hf, State.modChan_settings hg, h]

/-- Equal settings give equal modes. -/
theorem State.chan_mode_of_settings (h : u.settings = s.settings) (t c : Nat) : (u.chan t c).mode = (s.chan t c).mode := by
  have ht : (u.tile t).settings = (s.tile t).settings := by
    have hm := congrArg (fun x => x.1.getD t (Tile.settings {})) h
    simpa only [State.settings, State.tile, List.getD_map] using hm
  have hc := congrArg (fun x => x.1.getD c (Chan.setting {})) ht
  have hx : (u.chan t c).setting = (s.chan t c).setting := by
    simpa only [Tile.settings, State.chan, Tile.chan, List.getD_map] using hc
  exact congrArg Prod.fst hx

end

/-! ## A write to CH_MODE -/

/-- The channel with the mode, PAR, CH_CFG and CH_DIAG of `n`. -/
def Chan.withSetting (n ch : Chan) : Chan := { ch with mode := n.mode, par := n.par, cfg := n.cfg, diag := n.diag }

theorem Chan.withSetting_setting (n ch : Chan) : (n.withSetting ch).setting = n.setting := rfl

section
variable {t c : Nat} {n : Chan} {u s : State}

/-- Entering a mode sets what `n` says, and no other setting. -/
theorem State.enterMode_settings (h : u.settings = s.settings) :
    (u.enterMode t c n).settings = (s.modChan t c n.withSetting).settings := by
  unfold State.enterMode
  dsimp only
  have hk : (if ((u.tile t).chan c).mode.isLvl && ((u.tile t).chan c).di.pend && ((u.tile t).chan c).di.crossed
      then u.discard t c 0 6 else u).settings = s.settings := by
    split
    · rw [State.discard_set, h]
    · exact h
  -- `w`: a level that the Sieve still judged is discarded
  generalize @ite State _ (instDecidableEqBool _ true) (State.discard _ _ _ _ _) _ = w at hk ⊢
  split
  · split
    · exact State.modChan_settings_eq (fun _ => rfl) n.withSetting_setting hk
    · rw [State.trimChange_set]
      exact State.modChan_settings_eq (fun _ => rfl) n.withSetting_setting hk
  · exact State.modChan_settings_eq (fun _ => rfl) n.withSetting_setting hk

/-- A write that leaves the mode sets what `n` says, and no other setting. -/
theorem State.keepMode_settings (h : u.settings = s.settings) (hm : (s.chan t c).mode = n.mode) :
    (u.modChan t c fun ch => { ch with par := n.par, cfg := n.cfg, diag := n.diag }).settings =
      (s.modChan t c n.withSetting).settings := by
  have hu : (u.chan t c).mode = n.mode := (State.chan_mode_of_settings h t c).trans hm
  rw [State.modChan_congr (g := n.withSetting) (by unfold Chan.withSetting; rw [← hu])]
  exact State.modChan_settings_eq (fun _ => rfl) n.withSetting_setting h

/-- What a write that reaches CH_MODE comes to: a refusal, which leaves all settings, or the settings of `n` at its channel
alone (03 R82, R83). -/
theorem State.chWrite_cases (t c : Nat) (n : Chan) (s : State) :
    ((s.chWrite t c n true true).2 ≠ 0 ∧ (s.chWrite t c n true true).1.settings = s.settings) ∨
    ((s.chWrite t c n true true).2 = 0 ∧
      (s.chWrite t c n true true).1.settings = (s.modChan t c n.withSetting).settings) := by
  unfold State.chWrite
  dsimp only
  generalize Tile.admCode _ _ _ _ _ _ = adm
  by_cases ha : adm ≠ 0
  · rw [if_pos ha]
    exact .inl ⟨ha, State.modTile_set _ _ _ fun T => Tile.modChan_set _ _ _ fun _ => rfl⟩
  · rw [if_neg ha]
    refine .inr ⟨rfl, ?_⟩
    dsimp only
    -- what the write discards, aborts and switches off first keeps all settings, and so does the refresh after it
    rw [State.refresh_set]
    by_cases hm : ((s.tile t).chan c).mode ≠ n.mode
    · rw [if_pos hm, State.railIdle_set, State.stopWhere_set]
      exact State.enterMode_settings (by simp)
    · rw [if_neg hm]
      have hk := fun u h => State.keepMode_settings (t := t) (c := c) (n := n) (s := s) (u := u) h (not_not.1 hm)
      split
      · rw [State.inputCfg_set]
        exact hk _ (by simp)
      · exact hk _ (by simp)

end

/-- CH_MODE with a mode and a PAR that exist is the write of its channel as commanded, completed by its ADM code. -/
theorem State.modeCmd_of_mode {g mode par : Nat} {carry : Bool} {cfg diag : Word} {m : Mode} {s : State}
    (hm : Mode.ofCode mode = some m) (hp : par < 3) :
    s.modeCmd g mode par carry cfg diag =
      (let x := s.chWrite (g / 32) (g % 32) ((s.chan (g / 32) (g % 32)).commanded m par carry cfg diag) true true
       let pl := payload [(16, 4, (x.1.readWord .ha (tileAddr (g / 32) (16 * (g % 32)))).toNat)]
       (x.1, some (if x.2 = 0 then Reply.ok pl else { st := if x.2 ≤ 2 then 9 else 1, rs := 5, ix := g, pl := pl }))) := by
  simp only [State.modeCmd, hm, if_neg (Nat.not_le.2 hp)]

/-- Settles O24: the command is a write of its channel as commanded, which `chWrite_cases` judges. -/
theorem modeCommandSetsExactlyItsChannel : Obligations.ModeCommandSetsExactlyItsChannel := by
  intro h mode par carry cfg diag m s hl harg hserves hm hpar b t c n x pl
  have hb : argBad h.arg 512 = none := argBad_none harg
  have ht (k : Nat) (e : some (h.arg / 32) = some k) : s.serves h.at_ k = true := Option.some.inj e ▸ hserves
  have completes {r : Reply} (hr : (if x.2 = 0 then Reply.ok pl
      else { st := if x.2 ≤ 2 then 9 else 1, rs := 5, ix := h.arg, pl := pl }) = r) :
      exec (.chMode h mode par carry cfg diag) s = .next (x.1.reply h 0x10 r).finish :=
    next_onRing_completes hl hb ht rfl ((State.modeCmd_of_mode hm hpar).trans (hr ▸ rfl))
  obtain ⟨hx, hset⟩ | ⟨hx, hset⟩ := State.chWrite_cases t c n b
  · exact ⟨fun h0 => absurd h0 hx, fun _ => ⟨completes (if_neg hx), hset⟩⟩
  · exact ⟨fun _ => ⟨completes (if_pos hx), hset⟩, fun h0 => absurd hx h0⟩

end Sys2Proof.Machine
end

section
/-!
PROOFS. Digital inputs: the comparator's crossings, the Sieve, the gates of counters, chatter windows and STUCK (03 R87 to R96;
12 R418).
-/
namespace Sys2Proof.Machine

/-! ## Happenings inside a tile -/

/-- A happening inside a tile in service, from what its operation makes of the state there. -/
theorem next_onTile {τ : Tick} {t : Nat} {f : State → State} {s u : State} (hs : s.power = .running)
    (ho : ((s.atTile τ t).tile t).online = true) (h : f (s.atTile τ t) = u) :
    (.next (s.onTile τ t f) : Host.Outcome State Fault Refusal) = .next u.finish := by
  rw [State.onTile_acts hs ho, h]

section
variable {t c : Nat} {s : State}

/-! ## Crossings -/

/-- The edges that a counting channel notes: those of its kind, and of the other kinds each rise (03 Table 3-5). -/
def Chan.notes (ch : Chan) (up : Bool) : Bool := ch.cnt = 2 || (if ch.cnt = 1 then !up else up)

theorem Chan.notes_of_kind {ch : Chan} {up : Bool} (h : ch.cnt = 2 ∨ ch.cnt = 1 ∧ up = false ∨ ch.cnt = 0 ∧ up = true) :
    ch.notes up = true := by
  obtain h | ⟨h, hu⟩ | ⟨h, hu⟩ := h
  · simp [Chan.notes, h]
  · simp [Chan.notes, h, hu]
  · simp [Chan.notes, h, hu]

theorem Chan.notes_of_other_kind {ch : Chan} {up : Bool} (h : ch.cnt = 1 ∧ up = true ∨ ch.cnt = 0 ∧ up = false) :
    ch.notes up = false := by
  obtain ⟨h, hu⟩ | ⟨h, hu⟩ := h
  · simp [Chan.notes, h, hu]
  · simp [Chan.notes, h, hu]

/-- The Sieve of a channel starts on a new level at `now`, or ends where it still judged one (03 R87). -/
def State.sieveOn (t c : Nat) (l : Bool) (now : Tick) (s : State) : State :=
  s.modDi t c fun d => { d with comp := l, pend := !(d.pend && d.first), crossed := true, crossAt := now }

theorem State.crossing_of_held_level : s.crossing t c (s.chan t c).di.comp = s := by
  unfold State.crossing
  exact if_pos (by rw [decide_eq_true rfl, Bool.or_true])

section
variable {l : Bool} (hl : l ≠ (s.chan t c).di.comp)
include hl

/-- A crossing to another level, which reverts the one that the Sieve still judges. -/
theorem State.crossing_of_level (hm : (s.chan t c).mode.isLvl = true) (hd : (s.chan t c).mode ≠ .dic) :
    s.crossing t c l = State.sieveOn t c l (s.tnow t)
      (if (s.chan t c).di.pend = true ∧ (s.chan t c).di.crossed = true then s.discard t c 0 6 else s) := by
  have hc : ¬(!(s.chan t c).mode.isLvl || decide (l = (s.chan t c).di.comp)) = true := by simp [hm, hl]
  unfold State.crossing
  dsimp only
  rw [if_neg hc, decide_eq_false hd]
  simp [State.sieveOn]

/-- A crossing of a counting channel with nothing to revert, the first that it notes. -/
theorem State.crossing_of_counter (hm : (s.chan t c).mode = .dic)
    (hp : (s.chan t c).di.pend = false ∨ (s.chan t c).di.crossed = false) (he : (s.chan t c).dic.lastEdge = none) :
    s.crossing t c l = if (s.chan t c).notes (l != (s.chan t c).invert) then
        (s.sieveOn t c l (s.tnow t)).modDic t c fun d => { d with lastEdge := some (s.tnow t) }
      else s.sieveOn t c l (s.tnow t) := by
  have hc : ¬(!(s.chan t c).mode.isLvl || decide (l = (s.chan t c).di.comp)) = true := by simp [hm, Mode.isLvl, hl]
  have hr : ¬((s.chan t c).di.pend && (s.chan t c).di.crossed) = true := by
    obtain hp | hp := hp <;> simp [hp]
  unfold State.crossing
  dsimp only
  rw [if_neg hc, if_neg hr, he, hm]
  simp only [Bool.and_false, Bool.false_eq_true, if_false]
  rfl

end

/-! ## The Sieve's accession -/

/-- The Sieve has confirmed the comparator's level, which is accessioned (03 R88). -/
def State.sieved (t c : Nat) (s : State) : State :=
  (s.modDi t c fun d => { d with pend := false, crossed := false, sieve := d.comp }).accessioned t c 0
    (b2n ((s.chan t c).di.comp != (s.chan t c).invert)) (s.tnow t) 0 0

section
variable (hm : (s.chan t c).mode.isLvl = true) (hp : (s.chan t c).di.pend = true)
  (hd : (s.chan t c).di.crossAt + max (s.chan t c).sieveT 1 ≤ s.tnow t)
include hm hp hd

/-- A level held for the Sieve time is accessioned, and then judged as the channel's first or as a transition. -/
theorem State.sieveAcc_due :
    s.sieveAcc t c =
      (let ch := s.chan t c
       let lvl := ch.di.comp != ch.invert
       let a := s.sieved t c
       if !ch.di.first then a.firstLevel t c
       else if ch.mode ≠ .trim && (ch.ratio && (a.tile t).lp.st.weak) then a
       else if ch.mode = .di && ch.chatEn then a.chatLevel t c lvl
       else if ch.mode ≠ .trim && !ch.valid then a
       else a.accLevel t c lvl true true) :=
  if_pos (by rw [hm, hp, decide_eq_true hd]; rfl)

theorem State.sieveAcc_first (hf : (s.chan t c).di.first = false) : s.sieveAcc t c = (s.sieved t c).firstLevel t c := by
  rw [State.sieveAcc_due hm hp hd]
  exact if_pos (by rw [hf]; rfl)

theorem State.sieveAcc_level (hf : (s.chan t c).di.first = true)
    (hv : (s.chan t c).mode = .trim ∨ (s.chan t c).valid = true ∧ (s.chan t c).ratio = false ∧
      ((s.chan t c).mode = .di → (s.chan t c).chatEn = false)) :
    s.sieveAcc t c = (s.sieved t c).accLevel t c ((s.chan t c).di.comp != (s.chan t c).invert) true true := by
  rw [State.sieveAcc_due hm hp hd]
  obtain ht | ⟨hv, hr, hc⟩ := hv
  · simp [hf, ht]
  · have hn : ¬((s.chan t c).mode = .di && (s.chan t c).chatEn) = true := by
      simp only [Bool.and_eq_true, decide_eq_true_eq]
      exact fun h => Bool.false_ne_true ((hc h.1).symm.trans h.2)
    dsimp only
    rw [if_neg hn]
    simp [hf, hv, hr]

theorem State.sieveAcc_chatter (hf : (s.chan t c).di.first = true) (hi : (s.chan t c).mode = .di)
    (hc : (s.chan t c).chatEn = true) (hr : (s.chan t c).ratio = false) :
    s.sieveAcc t c = (s.sieved t c).chatLevel t c ((s.chan t c).di.comp != (s.chan t c).invert) := by
  rw [State.sieveAcc_due hm hp hd]
  simp [hf, hi, hc, hr]

end

/-! ## Gates, chatter windows and STUCK -/

/-- The gate of a counter has ended: the next starts now, and the result is accessioned (03 R95). -/
def State.gated (t c : Nat) (s : State) : State :=
  ((s.modDic t c fun d => { d with gateStart := s.tnow t, rises := 0, highs := 0, highSum := 0 }).modMeas t c fun m =>
    { m with has := true, x := ((s.chan t c).dic.result (s.chan t c).cnt).1, y := ((s.chan t c).dic.result (s.chan t c).cnt).1,
             ts := s.tnow t }).accessioned t c 0 ((s.chan t c).dic.result (s.chan t c).cnt).1 (s.tnow t) 0 0

/-- The end of a gate without overrun: a valid result that no stream takes is its event and feeds the mirrors (03 R95, R96). -/
theorem State.gateEnd_event (hm : (s.chan t c).mode = .dic)
    (hd : (s.chan t c).dic.gateStart + (s.chan t c).stuckT * ms ≤ s.tnow t) (ho : (s.chan t c).diagP.testBit 3 = false)
    (hv : (((s.chan t c).dic.result (s.chan t c).cnt).2 && (s.chan t c).valid) = true)
    (hs : (s.gated t c).streamed t c = false) :
    s.gateEnd t c = (((s.gated t c).emit t c 3 (payload [(16, 4, ((s.chan t c).dic.result (s.chan t c).cnt).1),
      (20, 1, 1)])).modTile t (Tile.feedMirrors c ((s.chan t c).dic.result (s.chan t c).cnt).1)).refresh t := by
  have hg : ((s.chan t c).mode = .dic && (s.chan t c).dic.gateStart + (s.chan t c).stuckT * ms ≤ s.tnow t) = true := by
    rw [decide_eq_true hm, decide_eq_true hd]
    rfl
  unfold State.gated at hs
  unfold State.gateEnd State.gated
  dsimp only
  rw [if_pos hg, hv, ho]
  simp only [Bool.false_and, Bool.false_eq_true, if_false]
  rw [ho, hs]
  rfl

/-- The end of a chatter window outside chatter reports the rate and starts the next (03 R91). -/
theorem State.chatWindow_reports (hm : (s.chan t c).mode = .di) (hr : (s.chan t c).di.chatRun = true)
    (hc : (s.chan t c).di.chatter = false) (hd : (s.chan t c).di.chatStart + (s.tile t).chatW * ms ≤ s.tnow t) :
    s.chatWindow t c = (s.modDi t c fun d => { d with
      chatRate := sat 0xFFFF d.chatCount, chatStart := d.chatStart + (s.tile t).chatW * ms,
      chatQuiet := if (s.chan t c).di.chatCount ≤ (s.tile t).chatN / 2 then (s.chan t c).di.chatQuiet + 1 else 0 }).modDi t c
        fun d => { d with chatCount := 0 } := by
  unfold State.chan at hm hr hc hd ⊢
  unfold State.chatWindow
  dsimp only
  rw [if_pos (by rw [decide_eq_true hm, hr, decide_eq_true hd]; rfl), hc]
  simp

/-- An input at its active level for the stuck time shows STUCK with its notice (03 R93). -/
theorem State.stuckCheck_stuck (hm : (s.chan t c).mode = .di) (hf : (s.chan t c).di.first = true)
    (hl : (s.chan t c).di.level = true) (ht : (s.chan t c).stuckT ≠ 0) (hn : (s.chan t c).diagP.testBit 1 = false)
    (hd : (s.chan t c).di.riseAt + (s.chan t c).stuckT * sec ≤ s.tnow t) :
    s.stuckCheck t c = (s.setDiag t c 1 true).notice t c (32 * t + c) 2 :=
  if_pos (by rw [decide_eq_true hm, hf, hl, decide_eq_true ht, hn, decide_eq_true hd]; rfl)

end

/-- Settles O43: a crossing acts at the pins of a powered tile, the rest inside a tile in service, by the lemmas on their
operations. -/
theorem inputsCrossSieveCountAndWatch : Obligations.InputsCrossSieveCountAndWatch := by
  intro τ t c s hs hp b ch now
  have hp' : ((s.atTile τ t).tile t).powered = true := by rwa [State.atTile_tile]
  refine ⟨fun l ho hm => next_onPower hs hp' ?_, fun ho => ?_⟩
  · rw [if_neg (by rw [ho]; exact Bool.false_ne_true), if_pos hm]
  have crosses {l : Bool} {v : State} (h : b.crossing t c l = v) : exec (.inputCrossing τ t c l) s = .next v.finish :=
    next_onPower hs hp' ((if_pos ho).trans h)
  have acts {f : State → State} {v : State} (h : f b = v) := next_onTile hs ho h
  refine ⟨crosses State.crossing_of_held_level, fun l hm hd hl => crosses (State.crossing_of_level hl hm hd),
    fun l hm hl hr he => ?_, fun hm hpend hd => ⟨fun hf => ?_, fun hf hv => ?_, fun hf hi hc hr => ?_⟩,
    fun hm hd ho hst => fun hv hs' _ => ?_, fun hm hr hc hd => ?_, fun hm hf hl ht hn hd => ?_⟩
  · have hcount := State.crossing_of_counter hl hm hr he
    exact ⟨fun hk => crosses (hcount.trans (if_pos (Chan.notes_of_kind hk))),
      fun hk => crosses (hcount.trans (if_neg (by rw [Chan.notes_of_other_kind hk]; exact Bool.false_ne_true)))⟩
  · exact acts (State.sieveAcc_first hm hpend hd hf)
  · exact acts (State.sieveAcc_level hm hpend hd hf hv)
  · exact acts (State.sieveAcc_chatter hm hpend hd hf hi hc hr)
  · exact acts (State.gateEnd_event hm hd ho hv hs')
  · exact acts (State.chatWindow_reports hm hr hc hd)
  · exact acts (State.stuckCheck_stuck hm hf hl ht hn hd)

end Sys2Proof.Machine
end

section
/-!
PROOFS. What is found at the pins and loads of a tile: open load, off-state levels, dark pulses, the pin clamp and surges (03
R106 to R111; 04 R161; 15 R453).
-/
namespace Sys2Proof.Machine

section
variable {t c : Nat} {s : State}

/-! ## Open load and off-state levels -/

/-- With L+ NORMAL the on-state check of a DO switch judges OPEN_ON (03 R106, Table 3-10). -/
theorem State.openOn_judged {low : Bool}
    (h : ((s.tile t).chan ((s.tile t).lead c)).mode = .dout ∧ (s.tile t).lp.st = .normal) :
    s.openOn t c low = s.setDiag t c 2
      (low && bit ((s.tile t).chan ((s.tile t).lead c)).diag 29 && (s.tile t).runs c (s.tnow t)) :=
  if_neg fun hn => hn.elim (· h.1) (· h.2)

theorem State.openOn_idle {low : Bool}
    (h : ((s.tile t).chan ((s.tile t).lead c)).mode ≠ .dout ∨ (s.tile t).lp.st ≠ .normal) : s.openOn t c low = s := if_pos h

/-- A pin found below the level of a foreign supply is no longer suspect for its off state, and ends SHORT_LP and EXT_DRIVEN (03
R108). -/
def State.pinQuiet (t c : Nat) (s : State) : State :=
  ((s.modOut t c fun o => { o with suspect := if o.suspect = some 0 then none else o.suspect }).setDiag t c 4 false).setDiag
    t c 6 false

section
variable {mv : Int} (hm : ((s.tile t).chan c).mode = .dout) (hl : ((s.tile t).chan ((s.tile t).lead c)).mode = .dout)
include hm hl

/-- The off-state check of a DO switch that is on, or whose check is not enabled, ends OPEN_OFF (03 R106). -/
theorem State.offCheck_ends
    (h : bit ((s.tile t).chan ((s.tile t).lead c)).diag 30 = false ∨
      (s.tile t).stage c (s.tnow t) ≠ 0 ∧ ((s.tile t).chan ((s.tile t).lead c)).o.elecOff = false) :
    s.offCheck t c mv = (s.modOut t c fun o => { o with offHits := 0 }).setDiag t c 3 false := by
  unfold State.offCheck
  dsimp only
  rw [hm, hl]
  obtain h | ⟨hs, he⟩ := h
  · rw [h]
    rfl
  · rw [decide_eq_true hs, he]
    exact (ite_cond_eq_false _ _ (by simp)).trans (ite_self _)

section
variable (he : bit ((s.tile t).chan ((s.tile t).lead c)).diag 30 = true) (hs : (s.tile t).stage c (s.tnow t) = 0)
  (hx : ((s.tile t).chan c).diagP.testBit 5 = false)
include he hs hx

/-- The off-state check of an off switch, enabled and not cross-fed, judges the pin's level (03 R106, R108). -/
theorem State.offCheck_judged :
    s.offCheck t c mv = (if mv < 2000 then
        ((s.modOut t c fun o => { o with offHits := 0 }).setDiag t c 3 false).pinQuiet t c
      else if mv ≤ 6000 then
        let u := (s.modOut t c fun o => { o with offHits := o.offHits + 1 }).pinQuiet t c
        if 1 ≤ ((s.tile t).chan c).o.offHits then u.setDiag t c 3 true else u
      else ((s.modOut t c fun o => { o with offHits := 0 }).setDiag t c 3 false).suspectPin t c 0 mv).refresh t := by
  unfold State.offCheck
  dsimp only
  rw [hm, hl, he, hs, hx]
  rfl

theorem State.offCheck_low (hv : mv < 2000) :
    s.offCheck t c mv = (((s.modOut t c fun o => { o with offHits := 0 }).setDiag t c 3 false).pinQuiet t c).refresh t := by
  rw [State.offCheck_judged hm hl he hs hx, if_pos hv]

theorem State.offCheck_between (hlo : 2000 ≤ mv) (hhi : mv ≤ 6000) :
    s.offCheck t c mv =
      (if 1 ≤ ((s.tile t).chan c).o.offHits then
        ((s.modOut t c fun o => { o with offHits := o.offHits + 1 }).pinQuiet t c).setDiag t c 3 true
      else (s.modOut t c fun o => { o with offHits := o.offHits + 1 }).pinQuiet t c).refresh t := by
  rw [State.offCheck_judged hm hl he hs hx, if_neg (Int.not_lt.2 hlo), if_pos hhi]

end
end

/-! ## Dark pulses -/

section
variable {ua : Nat} {pins : List (Nat × Int)}

theorem State.darkPulse_suspended
    (h : ((s.tile t).chan c).mode ≠ .dout ∨ ((s.tile t).chan c).tpEn = false ∨ (s.tile t).safe c = true) :
    s.darkPulse t c ua pins = s := by
  refine if_pos ?_
  obtain h | h | h := h <;> simp [h]

/-- A pulse in its period whose switch still carries 4 mA at its end is the switch fault (03 R107). -/
theorem State.darkPulse_faults (hm : ((s.tile t).chan c).mode = .dout) (he : ((s.tile t).chan c).tpEn = true)
    (hr : (s.tile t).runs c (s.tnow t) = true) (hl : (s.tile t).lp.st = .normal) (hs : (s.tile t).safe c = false)
    (hn : ((s.tile t).chan c).o.noDarkTill ≤ s.tnow t) (hd : ((s.tile t).chan c).o.darkNext ≤ s.tnow t)
    (hj : (((s.tile t).group c).all fun k => decide (((s.tile t).chan k).o.suspect ≠ some 1)) = true) (hu : 4000 ≤ ua) :
    s.darkPulse t c ua pins = (s.modOut t c fun o => { o with
      darkTill := s.tnow t + (s.tile t).tpWidth * us,
      darkNext := s.tnow t + (s.tile t).tpPeriod * (100 * ms) }).raiseCh (35 + t) 3 c (32 * t + c) 0 0 := by
  have hjoint : (((s.tile t).group c).any fun k => decide (((s.tile t).chan k).o.suspect = some 1)) = false := by
    simpa using hj
  unfold State.darkPulse
  dsimp only
  rw [hjoint, hm, he, hr, hl, hs, decide_eq_false (Nat.not_lt.2 hn), decide_eq_false (Nat.not_lt.2 hd)]
  exact if_pos hu

end

/-! ## The pin clamp and surges -/

/-- The clamp sets CLAMP and its latch, with a notice where neither was set (03 R111). -/
theorem State.pinClamp_acts :
    s.pinClamp t c true = if !(s.chan t c).clampP && !(s.chan t c).clampL then
        (s.modChan t c fun ch => { ch with clampP := true, clampL := true }).notice t c (32 * t + c) 4
      else s.modChan t c fun ch => { ch with clampP := true, clampL := true } := by
  simp [State.pinClamp, State.chan]

theorem State.pinClamp_first (hP : (s.chan t c).clampP = false) (hL : (s.chan t c).clampL = false) :
    s.pinClamp t c true =
      (s.modChan t c fun ch => { ch with clampP := true, clampL := true }).notice t c (32 * t + c) 4 :=
  State.pinClamp_acts.trans (if_pos (by rw [hP, hL]; rfl))

theorem State.pinClamp_again (h : (s.chan t c).clampP = true ∨ (s.chan t c).clampL = true) :
    s.pinClamp t c true = s.modChan t c fun ch => { ch with clampP := true, clampL := true } :=
  State.pinClamp_acts.trans (if_neg (by obtain h | h := h <;> simp [h]))

theorem State.pinClamp_ends :
    s.pinClamp t c false = (s.modChan t c fun ch => { ch with clampP := false }).modCv t fun u =>
      { u with jobP := (s.tile t).clampJob c (s.tnow t) u.jobP, jobF := (s.tile t).clampJob c (s.tnow t) u.jobF } := by
  simp [State.pinClamp]

section
variable {mv : Int} {ma : Nat}

/-- The first instant of a surge shows SURGE with its notice (04 R161). -/
theorem State.surge_starts (h : 40000 < mv ∨ mv < -38000 ∨ 500 < ma) (hn : (s.chan t c).m.surgeAt = none)
    (hm : (s.chan t c).mode.hasSurge = true) :
    s.surge t c mv ma = ((s.setDiag t c 5 true).notice t c (32 * t + c) 5).modMeas t c fun m =>
      { m with surgeAt := some (((s.setDiag t c 5 true).notice t c (32 * t + c) 5).tnow t) } := by
  unfold State.surge
  dsimp only
  rw [if_pos h, hn, hm]
  rfl

theorem State.surge_within (hhi : mv ≤ 40000) (hlo : -38000 ≤ mv) (ha : ma ≤ 500) : s.surge t c mv ma = s :=
  if_neg (by omega)

end

/-- 10 ms after the last instant SURGE ends (04 R161). -/
theorem State.surgeOver_due {x : Tick} (hx : (s.chan t c).m.surgeAt = some x) (hd : x + 10 * ms ≤ s.tnow t) :
    s.surgeOver t c = (let a := s.modMeas t c fun m => { m with surgeAt := none }
      if (a.chan t c).mode.hasSurge then a.setDiag t c 5 false else a) := by
  unfold State.surgeOver
  rw [hx]
  exact if_pos hd

end

/-- Settles O48: each finding acts at the pins of a powered tile, the off-state check inside a tile in service, by the lemmas on
their operations. -/
theorem pinsAndLoadsAreDiagnosed : Obligations.PinsAndLoadsAreDiagnosed := by
  intro τ t c s hs hp b T ch l now
  have hp' : ((s.atTile τ t).tile t).powered = true := by rwa [State.atTile_tile]
  have acts {f : State → State} {v : State} (h : f b = v) := next_onPower hs hp' h
  have within {mv : Int} {ma : Nat} (h : pinBeyond mv ma = false) : ¬pinBeyond mv ma = true := Bool.not_eq_true _ ▸ h
  refine ⟨fun low => ⟨fun h => acts (State.openOn_judged h), fun h => acts (State.openOn_idle h)⟩,
    fun mv hm hl ho h => next_onTile hs ho (State.offCheck_ends hm hl h),
    fun mv hm hl ho he hst hx => ⟨fun hv => ?_, fun hlo hhi => ?_⟩,
    fun ua pins hm he hr hl hsafe hn hd hj hu => acts (State.darkPulse_faults hm he hr hl hsafe hn hd hj hu),
    fun ua pins h => acts (State.darkPulse_suspended h), fun mv acting h => if_pos h, fun mv ma h => if_pos h,
    fun mv h => ⟨fun hP hL => ?_, fun hPL => ?_, ?_⟩, fun mv ma h => ⟨fun hs' hn hm => ?_, fun hhi hlo ha => ?_⟩,
    fun x hx hd => ⟨fun hm => ?_, fun hm => ?_⟩⟩
  · exact next_onTile hs ho (State.offCheck_low hm hl he hst hx hv)
  · exact next_onTile hs ho (State.offCheck_between hm hl he hst hx hlo hhi)
  · exact (if_neg (within h)).trans (acts (State.pinClamp_first hP hL))
  · exact (if_neg (within h)).trans (acts (State.pinClamp_again hPL))
  · exact (if_neg (within h)).trans (acts State.pinClamp_ends)
  · exact (if_neg (within h)).trans (acts (State.surge_starts hs' hn hm))
  · exact (if_neg (within h)).trans (acts (State.surge_within hhi hlo ha))
  · exact acts ((State.surgeOver_due hx hd).trans (if_pos hm))
  · exact acts ((State.surgeOver_due hx hd).trans (if_neg (by rw [hm]; exact Bool.false_ne_true)))

end Sys2Proof.Machine
end

section
/-!
PROOFS. What the samples of a tile bring about: L+ and the re-energising order, the compliance rail and readbacks of analogue
outputs, current loops, excitation, mirrors and temperatures (03 R113, R116; 04 R130, R136, R145, R154 to R157, R166, R167).
-/
namespace Sys2Proof.Machine

/-! ## Field supply L+ -/

@[simp] theorem LState.off_normal : LState.normal.off = false := rfl
@[simp] theorem LState.off_low : LState.low.off = true := rfl
@[simp] theorem LState.off_missing : LState.missing.off = false := rfl
@[simp] theorem LState.off_reversed : LState.reversed.off = false := rfl
@[simp] theorem LState.gone_normal : LState.normal.gone = false := rfl
@[simp] theorem LState.gone_low : LState.low.gone = false := rfl
@[simp] theorem LState.gone_missing : LState.missing.gone = true := rfl
@[simp] theorem LState.gone_reversed : LState.reversed.gone = true := rfl

theorem LState.gone_of_off {x : LState} (h : x.off = true) : x.gone = false := by
  revert h
  cases x <;> decide

theorem LState.off_of_gone {x : LState} (h : x.gone = true) : x.off = false := by
  revert h
  cases x <;> decide

section
variable {t : Nat} {cv : Int} {s : State}

/-- L+ has left one state and entered the next: what ends and begins with it (03 R114 to R116; 09 Table 9-5). -/
def State.lpFaults (t : Nat) (old n : LState) (s : State) : State :=
  let s := if old.off && !n.off then s.endPresent (35 + t) 1 else s
  let s := if old.gone && !n.gone then s.endPresent (35 + t) 2 else s
  let s := if n.off then s.raise (35 + t) 1 0 n.code 0 else if n.gone then s.raise (35 + t) 2 0 n.code 0 else s
  if n.gone then s.loseField t else if old.gone && !n.gone then s.regainField t else s

/-- A counted sample that enters no other state (03 R113). -/
theorem State.lplus_stays (h : ((s.tile t).lp.count cv).next = (s.tile t).lp.st) :
    s.lplus t cv = (s.modTile t fun T => { T with lp := (s.tile t).lp.count cv }).shortOver t := if_pos h

/-- A counted sample that enters another state, with its event (03 R113). -/
theorem State.lplus_enters (h : ((s.tile t).lp.count cv).next ≠ (s.tile t).lp.st) :
    s.lplus t cv =
      (let n := ((s.tile t).lp.count cv).next
       let a := (((s.modTile t fun T => { T with lp := (s.tile t).lp.count cv }).shortOver t).modTile t fun T =>
         { T with lp := T.lp.enter n }).emit t 32 9 (payload [(16, 1, n.code), (18, 2, toField 16 cv)])
       (forAll (fun c x => x.judgeValid t c) chanNos (a.lpFaults t (s.tile t).lp.st n)).refresh t) := if_neg h

section
variable {old n : LState}

/-- From NORMAL to LOW or HIGH. -/
theorem State.lpFaults_off (ho : old = .normal) (hn : n.off = true) :
    s.lpFaults t old n = s.raise (35 + t) 1 0 n.code 0 := by
  simp [State.lpFaults, ho, hn, LState.gone_of_off hn]

/-- From LOW or HIGH to MISSING or REVERSED. -/
theorem State.lpFaults_lost (ho : old.off = true) (hn : n.gone = true) :
    s.lpFaults t old n = ((s.endPresent (35 + t) 1).raise (35 + t) 2 0 n.code 0).loseField t := by
  simp [State.lpFaults, ho, LState.gone_of_off ho, hn, LState.off_of_gone hn]

theorem State.lpFaults_reversed (ho : old = .missing) (hn : n = .reversed) :
    s.lpFaults t old n = (s.raise (35 + t) 2 0 n.code 0).loseField t := by
  simp [State.lpFaults, ho, hn]

/-- From NORMAL to MISSING or REVERSED. -/
theorem State.lpFaults_lost_at_once (ho : old = .normal) (hn : n.gone = true) :
    s.lpFaults t old n = (s.raise (35 + t) 2 0 n.code 0).loseField t := by
  simp [State.lpFaults, ho, hn, LState.off_of_gone hn]

theorem State.lpFaults_restored (ho : old.off = true) (hn : n = .normal) :
    s.lpFaults t old n = s.endPresent (35 + t) 1 := by
  simp [State.lpFaults, ho, LState.gone_of_off ho, hn]

theorem State.lpFaults_regained (ho : old = .missing) (hn : n = .low) :
    s.lpFaults t old n = ((s.endPresent (35 + t) 2).raise (35 + t) 1 0 n.code 0).regainField t := by
  simp [State.lpFaults, ho, hn]

end

/-! ## The re-energising order -/

theorem State.reenSlot_idle (h : (s.tile t).reen = false) : s.reenSlot t = s := if_pos (by rw [h]; rfl)

section
variable (h : (s.tile t).reen = true)
include h

theorem State.reenSlot_ends (hw : (chanNos.filter (s.tile t).waits).isEmpty = true) :
    s.reenSlot t = forAll (fun c u => if ((u.tile t).chan c).o.elecOff then u.energise t c else u) chanNos
      (s.modTile t fun T => { T with reen := false }) :=
  (if_neg (by rw [h]; exact Bool.false_ne_true)).trans (if_pos hw)

theorem State.reenSlot_fills (hw : (chanNos.filter (s.tile t).waits).isEmpty = false) :
    s.reenSlot t = (forAll (fun c u => u.energise t c) ((s.tile t).fillSlot 4 (chanNos.filter (s.tile t).waits)) s).refresh t :=
  (if_neg (by rw [h]; exact Bool.false_ne_true)).trans (if_neg (by rw [hw]; exact Bool.false_ne_true))

end

/-! ## The compliance rail -/

theorem State.crail_unset {dv : Nat} (h : (s.tile t).crSet = 0) :
    s.crail t dv = (s.modTile t fun T => { T with crNow := 0, railLow := 0, railHigh := 0 }).railIdle t := if_pos h

/-- Successive low samples of the rail, of which this is one with L+ NORMAL or LOW below 90 % of the target (04 R154). -/
def State.railLows (t dv : Nat) (s : State) : Nat :=
  if ((s.tile t).lp.st = .normal ∨ (s.tile t).lp.st = .low) ∧ 10 * dv < 9 * s.railTarget t (s.tnow t)
  then (s.tile t).railLow + 1 else 0

/-- Successive samples of the rail from 95 % of the target on (04 R154). -/
def State.railHighs (t dv : Nat) (s : State) : Nat :=
  if 95 * s.railTarget t (s.tnow t) ≤ 100 * dv then (s.tile t).railHigh + 1 else 0

/-- The sample stored with its runs. -/
def State.railSampled (t dv : Nat) (s : State) : State :=
  s.modTile t fun T => { T with crNow := sat 0xFFF dv, railLow := s.railLows t dv, railHigh := s.railHighs t dv }

section
variable {dv : Nat} (h : (s.tile t).crSet ≠ 0)
include h

/-- A sample with a set-point is stored, and its runs judged. -/
theorem State.crail_sampled :
    s.crail t dv =
      (if !(s.tile t).railFault && 5 ≤ s.railLows t dv then
        (((s.railSampled t dv).modTile t fun T => { T with railFault := true, railSeen := true }).raise (35 + t) 5 0 0 0).refresh t
      else if (s.tile t).railFault && 5 ≤ s.railHighs t dv then
        (((s.railSampled t dv).modTile t fun T => { T with railFault := false }).endPresent (35 + t) 5).refresh t
      else s.railSampled t dv) := by
  have hlow : s.railLows t dv = if ((s.tile t).lp.st = .normal || (s.tile t).lp.st = .low) &&
      10 * dv < 9 * s.railTarget t (s.tnow t) then (s.tile t).railLow + 1 else 0 := by
    simp [State.railLows]
  unfold State.railSampled
  rw [hlow]
  exact if_neg h

theorem State.crail_fails (hf : (s.tile t).railFault = false) (hl : 5 ≤ s.railLows t dv) :
    s.crail t dv = (((s.railSampled t dv).modTile t fun T => { T with railFault := true, railSeen := true }).raise
      (35 + t) 5 0 0 0).refresh t := by
  rw [State.crail_sampled h]
  exact if_pos (by rw [hf, decide_eq_true hl]; rfl)

theorem State.crail_recovers (hf : (s.tile t).railFault = true) (hh : 5 ≤ s.railHighs t dv) :
    s.crail t dv = (((s.railSampled t dv).modTile t fun T => { T with railFault := false }).endPresent (35 + t) 5).refresh t := by
  rw [State.crail_sampled h, hf]
  exact (if_neg Bool.false_ne_true).trans (if_pos (by rw [decide_eq_true hh]; rfl))

theorem State.crail_stores (hl : s.railLows t dv < 5) (hh : s.railHighs t dv < 5) : s.crail t dv = s.railSampled t dv := by
  rw [State.crail_sampled h, decide_eq_false (Nat.not_le.2 hl), decide_eq_false (Nat.not_le.2 hh)]
  simp

end

/-! ## Readbacks of analogue outputs -/

section
variable {c : Nat} {r : Readback}

theorem State.aoReadback_of_not_ao (h : ((s.tile t).chan c).mode.isAo = false) : s.aoReadback t c r = s :=
  if_pos (by rw [h]; rfl)

/-- The readback of an AOI channel stored and accessioned, and its three output conditions judged (04 R156, R157). -/
def State.aoiRead (t c : Nat) (r : Readback) (s : State) : State :=
  let T := s.tile t
  let now := s.tnow t
  let x := T.aoCond c now r
  let tc := 2 * fld (T.chan c).diag 28 24
  (((((s.modChan t c fun ch => { ch with
    readback := sat 0xFFFFFF (Readback.code true r),
    m := { ch.m with
      has := true, x := Readback.code true r, y := Readback.code true r, ts := now, na := r.na, uv := r.uv } }).accessioned
        t c 0 (Readback.code true r) now 0 0).aoDiag t c 0 tc (x.1.getD 0 false)).aoDiag t c 1 tc (x.1.getD 1 false)).aoDiag
          t c 2 tc (x.1.getD 2 false))

/-- READBACK judged after them: a difference counts while none of them, nor THERMAL, explains it (04 Table 4-16). -/
def State.aoiCompared (t c : Nat) (r : Readback) (s : State) : State :=
  let T := s.tile t
  let x := T.aoCond c (s.tnow t) r
  (s.aoiRead t c r).aoDiag t c 3 10
    (x.2 && !(x.1.getD 0 false || x.1.getD 1 false || x.1.getD 2 false || (T.chan c).diagP.testBit 4))

/-- The load's resistance judged last. -/
def State.aoiLoaded (t c : Nat) (r : Readback) (s : State) : State :=
  (s.aoiCompared t c r).aoDiag t c 6 100 (((s.tile t).aoCond c (s.tnow t) r).1.getD 3 false)

/-- A readback of an AOI channel that latches nothing. -/
theorem State.aoReadback_aoi (hm : ((s.tile t).chan c).mode = .aoi)
    (h3 : ((s.aoiCompared t c r).chan t c).diagP.testBit 3 = false)
    (h6 : ((s.aoiLoaded t c r).chan t c).diagP.testBit 6 = false) :
    s.aoReadback t c r = (s.aoiLoaded t c r).refreshAt t none (s.tnow t) := by
  unfold State.aoiLoaded at h6 ⊢
  unfold State.aoiCompared State.aoiRead at h3 h6 ⊢
  dsimp only at h3 h6 ⊢
  unfold State.aoReadback
  dsimp only
  rw [hm]
  simp only [Mode.isAo, Bool.not_true, Bool.false_eq_true, if_false, decide_true, reduceCtorEq]
  rw [h3]
  simp only [Bool.false_and, Bool.false_eq_true, if_false]
  rw [h6]
  rfl

end

/-! ## Current loops, excitation and mirrors -/

section
variable {c : Nat}

theorem State.foldback_folds (hm : (s.chan t c).mode = .aii) (hf : (s.chan t c).m.fold = false) :
    s.foldback t c = ((s.modMeas t c fun m => { m with fold := true }).setDiag t c 7 true).refresh t :=
  if_pos (by rw [decide_eq_true hm, hf]; rfl)

section
variable {ua : Nat}

theorem State.foldRetry_releases (hm : (s.chan t c).mode = .aii) (hf : (s.chan t c).m.fold = true) (hu : ua < 24000) :
    s.foldRetry t c ua = (((s.modCv t fun u => { u with
      jobP := u.jobP.map (Job.folded c (s.tnow t)), jobF := u.jobF.map (Job.folded c (s.tnow t)) }).modMeas t c fun m =>
        { m with fold := false }).setDiag t c 7 false).refresh t :=
  if_pos (by rw [decide_eq_true hm, hf, decide_eq_true hu]; rfl)

theorem State.foldRetry_in_limit (hu : 24000 ≤ ua) : s.foldRetry t c ua = s :=
  if_neg (by rw [decide_eq_false (Nat.not_lt.2 hu), Bool.and_false]; exact Bool.false_ne_true)

end

section
variable {lim : Limiting} {na : Nat}

/-- The current of an excitation cycle stored, with LIMIT, low current and the hold (04 R145). -/
def State.excChecked (t c : Nat) (lim : Limiting) (na : Nat) (s : State) : State :=
  let hold := decide (lim = .whole) || (decide (lim = .part) && ((s.tile t).chan c).o.prot)
  ((s.modChan t c fun ch => { ch with
    readback := sat 0xFFFFFF (roundHalfEven na 5).toNat, o := { ch.o with prot := hold } }).setDiag t c 2 hold).setDiag t c 0
      (decide (lim ≠ .whole) && decide (na < 20000))

section
variable (hm : ((s.tile t).chan c).mode = .exp ∨ ((s.tile t).chan c).mode = .exs)
include hm

/-- A limited cycle, or one with too little current, is a failed one for the demodulation that integrates it. -/
theorem State.excCycle_fails (h : lim = .whole ∨ na < 20000) :
    s.excCycle t c lim na = (s.excChecked t c lim na).modCv t fun u =>
      { u with jobF := (s.tile t).spoil c ((s.excChecked t c lim na).tnow t) u.jobF } := by
  have hx : (((s.tile t).chan c).mode = .exp || ((s.tile t).chan c).mode = .exs) = true := by simpa using hm
  have hl : (decide (lim = .whole) || (decide (lim ≠ .whole) && decide (na < 20000))) = true := by
    by_cases hw : lim = .whole
    · simp [hw]
    · simp [hw, h.resolve_left hw]
  exact (if_pos hx).trans (if_pos hl)

theorem State.excCycle_passes (hw : lim ≠ .whole) (hn : 20000 ≤ na) : s.excCycle t c lim na = s.excChecked t c lim na := by
  have hx : (((s.tile t).chan c).mode = .exp || ((s.tile t).chan c).mode = .exs) = true := by simpa using hm
  have hl : ¬(decide (lim = .whole) || (decide (lim ≠ .whole) && decide (na < 20000))) = true := by
    simp [hw, hn]
  exact (if_pos hx).trans (if_neg hl)

end

theorem State.excCycle_of_other_mode (hp : ((s.tile t).chan c).mode ≠ .exp) (hs : ((s.tile t).chan c).mode ≠ .exs) :
    s.excCycle t c lim na = s := if_neg (by simp [hp, hs])

end

section
variable (hm : ((s.tile t).chan c).mode = .mir)
include hm

/-- A mirror that generates nothing yet, or whose period without value is over, takes the next value (04 R164, R167). -/
theorem State.mirStart_takes {v : Nat} (hg : ((s.tile t).chan c).m.mirGen = false)
    (hv : ((s.tile t).chan c).m.mirNext = some v)
    (h : ((s.tile t).chan c).onInvalid ≠ 2 ∧ ((s.tile t).chan c).onInvalid ≠ 3 ∨
      ((s.tile t).chan c).m.mirPer + ((s.tile t).chan c).m.mirPd ≤ s.tnow t) :
    s.mirStart t c =
      (let P := mirPeriod ((s.tile t).chan c) ((s.tile t).mirs.getD ((s.tile t).chan c).mirProf {}) v
       s.modMeas t c fun m => { m with
        mirPer := s.tnow t, mirPd := P.1, mirHi := P.2, mirWait := false, mirNow := v, mirNext := none, mirGen := true,
        mirHad := true }) := by
  unfold State.mirStart
  dsimp only
  rw [hm, hg, hv]
  refine if_neg ?_
  obtain ⟨h2, h3⟩ | hd := h
  · simp [h2, h3]
  · simp [Nat.not_lt.2 hd]

/-- A mirror's period is not cut short (04 R166). -/
theorem State.mirStart_waits (hg : ((s.tile t).chan c).m.mirGen = true)
    (hd : s.tnow t < ((s.tile t).chan c).m.mirPer + ((s.tile t).chan c).m.mirPd) : s.mirStart t c = s :=
  if_pos (by simp [hm, hg, hd])

end
end

/-! ## Temperatures -/

theorem State.tileTemp_stores {x y d : Int} (h : (s.tile t).cv.calAuto = false) :
    s.tileTemp t x y d = s.modTile t fun T => { T with cjc := roundHalfEven (x + y) 2, tdie := d } :=
  if_neg (by rw [h]; exact Bool.false_ne_true)

end

/-- Settles O49: L+ and rail samples and readbacks act inside a tile in service, the rest at the pins of a powered tile, by the
lemmas on their operations. -/
theorem fieldSupplyRailLoopsAndMirrorsFollowTheirSamples : Obligations.FieldSupplyRailLoopsAndMirrorsFollowTheirSamples := by
  intro τ t c s hs hp ho b T ch now
  have hp' : ((s.atTile τ t).tile t).powered = true := by rwa [State.atTile_tile]
  have ho' : ((s.atTile τ t).tile t).online = true := by rwa [State.atTile_tile]
  have atPins {f : State → State} {v : State} (h : f b = v) := next_onPower hs hp' h
  have inside {f : State → State} {v : State} (h : f b = v) := next_onTile hs ho' h
  have samples {cv : Int} {v : State} (hc : lplusBeyond cv = false) (h : b.lplus t cv = v) :
      exec (.lplusSample τ t cv) s = .next v.finish :=
    (if_neg (by rw [hc]; exact Bool.false_ne_true)).trans (inside h)
  refine ⟨fun cv h => if_pos h, fun cv hc h => samples hc (State.lplus_stays h), fun cv hc h => ?_,
    fun h => atPins (State.reenSlot_idle h), fun h hw => atPins (State.reenSlot_ends h hw),
    fun h hw => atPins (State.reenSlot_fills h hw), fun dv => ⟨fun h => inside (State.crail_unset h), fun h => ?_⟩,
    fun r => ⟨fun h => inside (State.aoReadback_of_not_ao h), fun hm => fun h3 h6 => inside (State.aoReadback_aoi hm h3 h6)⟩,
    fun hm hf => atPins (State.foldback_folds hm hf), fun ua hm hf => ⟨fun hu => ?_, fun hu => ?_⟩,
    fun lim na hm => ⟨fun h => atPins (State.excCycle_fails hm h), fun hw hn => atPins (State.excCycle_passes hm hw hn)⟩,
    fun lim na hp hs => atPins (State.excCycle_of_other_mode hp hs), fun v hm hg hv h => atPins (State.mirStart_takes hm hg hv h),
    fun hm hg hd => atPins (State.mirStart_waits hm hg hd), fun x y d h => atPins (State.tileTemp_stores h)⟩
  · intro n a done
    have enters {u : State} (hu : a.lpFaults t T.lp.st n = u) : exec (.lplusSample τ t cv) s = .next (done u) :=
      samples hc ((State.lplus_enters h).trans (hu ▸ rfl))
    exact ⟨fun hold hn => enters (State.lpFaults_off hold hn), fun hold hn => enters (State.lpFaults_lost hold hn),
      fun hold hn => enters (State.lpFaults_reversed hold hn), fun hold hn => enters (State.lpFaults_lost_at_once hold hn),
      fun hold hn => enters (State.lpFaults_restored hold hn), fun hold hn => enters (State.lpFaults_regained hold hn)⟩
  · exact ⟨fun hf hl => inside (State.crail_fails h hf hl), fun hf hh => inside (State.crail_recovers h hf hh),
      fun hl hh => inside (State.crail_stores h hl hh)⟩
  · exact atPins (State.foldRetry_releases hm hf hu)
  · exact atPins (State.foldRetry_in_limit hu)

end Sys2Proof.Machine
end

section
/-!
PROOFS. Trim: what the commands, the buttons of a pair, the ends of captures and the save timer do (04 R171 to R173; 10 R375).
-/
namespace Sys2Proof.Machine

/-! ## The trims in force -/

/-- Offset and gain in force on a channel (04 R169, R170). -/
def Chan.trim (ch : Chan) : Int × Nat := (ch.trimOfs, ch.trimGain)
/-- The trims of a tile's channels. -/
def Tile.trims (T : Tile) : List (Int × Nat) := T.chans.map Chan.trim
/-- The trims of all channels. -/
def State.trims (s : State) : List (List (Int × Nat)) := s.tiles.map Tile.trims

theorem State.trims_of_tiles {u s : State} (h : u.tiles = s.tiles) : u.trims = s.trims := congrArg (List.map Tile.trims) h

theorem State.chan_trim_of_trims {u s : State} (h : u.trims = s.trims) (t c : Nat) : (u.chan t c).trim = (s.chan t c).trim := by
  have ht : (u.tile t).trims = (s.tile t).trims := by
    have hm := congrArg (List.getD · t (Tile.trims {})) h
    simpa only [State.trims, State.tile, List.getD_map] using hm
  have hc := congrArg (List.getD · c (Chan.trim {})) ht
  simpa only [Tile.trims, State.chan, Tile.chan, List.getD_map] using hc

theorem State.modTile_trims {t : Nat} {f : Tile → Tile} (h : ∀ T, (f T).trims = T.trims) (s : State) :
    (s.modTile t f).trims = s.trims := map_updAt Tile.trims f h t s.tiles

/-- A safe state holds output values, and no trim. -/
theorem Tile.capture_trims (T : Tile) (now : Tick) : (T.capture now).trims = T.trims :=
  map_mapFrom Chan.trim _ (fun _ _ => by split <;> rfl) 0 T.chans

theorem State.enterScope_trims (t : Nat) (f : Safety → Safety) (s : State) : (s.enterScope t f).trims = s.trims := by
  have hold : (s.modTile t fun T => T.capture (s.tnow t)).trims = s.trims := State.modTile_trims (fun T => T.capture_trims _) s
  exact (State.modTile_trims (fun _ => by rfl) _).trans hold

theorem State.netEvent_trims (action : Nat) (s : State) : (s.netEvent action).trims = s.trims := rfl

theorem State.assertNet_trims (k i : Nat) (s : State) : (s.assertNet k i).trims = s.trims := by
  unfold State.assertNet
  split
  · rfl
  · rw [State.netEvent_trims]
    refine forAll_keeps (fun u => u.trims = s.trims) _ tileNos (fun t _ u hu => ?_) _ rfl
    split
    · exact hu
    · exact (State.enterScope_trims t _ u).trans hu

theorem State.msix_tiles (p : PortId) (v : Nat) (s : State) : (s.msix p v).tiles = s.tiles := State.modPort_tiles _ _ _

theorem State.faultMsi_trims (k : Nat) (p : PortId) (s : State) : (s.faultMsi k p).trims = s.trims := by
  refine State.trims_of_tiles ?_
  unfold State.faultMsi
  simp only [apply_ite State.tiles, State.msix_tiles, State.modBlk_tiles, ite_self]

/-- An occurrence is recorded in its block, and may assert the net. -/
theorem State.record_trims (k i ch idx code aux : Nat) (τ : Tick) (s : State) :
    (s.record k i ch idx code aux τ).1.trims = s.trims := by
  -- what the record writes beside the tiles: its source, the reactions that wait, the grave hold
  have source (f : Src → Src) : (s.modSrc k i f).trims = s.trims := rfl
  have waits (u : State) (x : List (Nat × Nat × Nat)) :
      ({ u with dev := { u.dev with todo := x } } : State).trims = u.trims := rfl
  have grave (u : State) (pl : Nat) :
      (({ u with dev := { u.dev with grave := true } } : State).graveRecord.emitHub 0x10 pl).trims = u.trims := rfl
  unfold State.record
  simp only [apply_ite State.trims, source, waits, grave, State.assertNet_trims, State.faultMsi_trims, ite_self]

theorem State.linkPush_trims (t : Nat) (x : LinkItem) (s : State) : (s.linkPush t x).trims = s.trims := by
  have link (f : Link → Link) (u : State) : (u.modLink t f).trims = u.trims := State.modTile_trims (fun _ => by rfl) u
  unfold State.linkPush
  dsimp only
  split
  · rfl
  · split
    · split
      · exact link _ _
      · exact (link _ _).trans ((State.record_trims ..).trans (link _ _))
    · exact link _ _

/-- An event changes no trim. -/
theorem State.emit_trims (t c kind pl : Nat) (s : State) : (s.emit t c kind pl).trims = s.trims :=
  (State.linkPush_trims ..).trans (State.modTile_trims (fun _ => by rfl) s)

theorem State.emit_now (t c kind pl : Nat) (s : State) : (s.emit t c kind pl).now = s.now := by
  have h := State.emit_ctl t c kind pl s
  simp only [State.control, Prod.mk.injEq] at h
  obtain ⟨_, _, _, _, hnow, _⟩ := h
  exact hnow

/-! ## A trim change -/

theorem State.chan_modChan (t c k i : Nat) (f : Chan → Chan) (s : State) :
    (s.modChan t c f).chan k i =
      if (k, i) = (t, c) ∧ t < s.tiles.length ∧ c < (s.tile t).chans.length then f (s.chan t c) else s.chan k i := by
  unfold State.chan State.modChan
  rw [State.tile_modTile]
  by_cases hk : k = t ∧ t < s.tiles.length
  · obtain ⟨rfl, ht⟩ := hk
    rw [if_pos ⟨rfl, ht⟩, Tile.chan_modChan]
    simp [ht]
  · rw [if_neg hk, if_neg]
    rintro ⟨he, ht, _⟩
    exact hk ⟨congrArg Prod.fst he, ht⟩

section
variable (t c : Nat) (ofs : Int) (gain : Nat) (s : State)

/-- A trim change gives its channel, where the device has it, the trim asked for, and every other channel keeps its own. -/
theorem State.trimChange_trim (k i : Nat) :
    ((s.trimChange t c ofs gain).chan k i).trim =
      if (k, i) = (t, c) ∧ t < s.tiles.length ∧ c < (s.tile t).chans.length then (ofs, gain) else (s.chan k i).trim := by
  refine (State.chan_trim_of_trims (State.emit_trims ..) k i).trans ?_
  rw [State.chan_modChan]
  split <;> rfl

theorem State.trimChange_savePend : (s.trimChange t c ofs gain).upd.savePend = true := rfl

theorem State.trimChange_saveAt : (s.trimChange t c ofs gain).upd.saveAt = some (s.now + 10 * sec) :=
  congrArg (fun n => some (n + 10 * sec)) (State.emit_now ..)

end

/-! ## The trim commands -/

/-- CH_TRIM SET and RESET change the trim now, in a mode with trim and within its limits (04 R172). -/
theorem State.trimSet_changes {g gain : Nat} {ofs : Int} {s : State} (hm : (s.chan (g / 32) (g % 32)).mode.trimmable = true)
    (ho : (s.chan (g / 32) (g % 32)).ofsOk ofs = true) (hg : gainOk gain = true) :
    s.trimSet g ofs gain = (s.trimChange (g / 32) (g % 32) ofs gain,
      some ((s.trimChange (g / 32) (g % 32) ofs gain).trimReply (g / 32) (g % 32))) := by
  unfold State.trimSet
  simp [hm, ho, hg]

/-- CH_TRIM ZERO and SPAN wait on a measuring channel, for 1 s at most (04 R172). -/
theorem State.trimWait_captures {h : Hdr} {span : Bool} {ref : Int} {s : State}
    (hm : (s.chan (h.arg / 32) (h.arg % 32)).mode.isMeas = true) :
    s.trimWait h span ref = (s.modChan (h.arg / 32) (h.arg % 32) fun x =>
      { x with caps := x.caps ++ [{ h := some h, span := span, ref := ref, till := s.tnow (h.arg / 32) + sec }] }, none) :=
  if_neg (by rw [hm]; exact Bool.false_ne_true)

/-- Settles O23: the commands act by `trimSet_changes` and `trimWait_captures`, and `trimChange_trim` says whose trim changes. -/
theorem trimCommandsSetOrWait : Obligations.TrimCommandsSetOrWait := by
  intro h s hl harg hserves b t c ch
  have hb := argBad_none harg
  have ht (k : Nat) (e : some (h.arg / 32) = some k) : s.serves h.at_ k = true := Option.some.inj e ▸ hserves
  refine ⟨fun ofs gain hm ho hg => ?_, fun hm ho => ?_, fun hm => ?_, fun ref hm => ?_, fun ofs gain => ?_⟩
  · exact next_onRing_completes hl hb ht rfl (State.trimSet_changes hm ho hg)
  · exact next_onRing_completes hl hb ht rfl (State.trimSet_changes hm ho (by decide))
  · exact next_onRing_waits hl hb ht rfl (State.trimWait_captures hm)
  · exact next_onRing_waits hl hb ht rfl (State.trimWait_captures hm)
  · have htrim := State.trimChange_trim t c ofs gain b
    refine ⟨State.trimChange_savePend .., State.trimChange_saveAt .., fun hlt hlc => ?_, fun k i hne => ?_⟩
    · exact Prod.ext_iff.1 ((htrim t c).trans (if_pos ⟨rfl, hlt, hlc⟩))
    · exact Prod.ext_iff.1 ((htrim k i).trans (if_neg fun he => hne he.1))

/-! ## The buttons of a pair -/

/-- The pair whose lower channel is `lo`, with the hold that acted noted. -/
def State.heldOnce (t lo : Nat) (s : State) : State :=
  s.modChan t lo fun ch => { ch with btn := { ch.btn with done := true } }

section
variable {t lo : Nat} {s : State} (hp : (s.tile t).trimLower lo = some lo)
include hp

section
variable (hd : (s.chan t lo).btn.done = false)
include hd

/-- The ZERO button held alone throughout for 3 s (04 R173). -/
theorem State.buttonHold_zero {x : Tick} (hs : (s.chan t lo).btn.zeroStuck = false)
    (hz : (s.chan t lo).btn.zeroAt = some x) (ha : (s.chan t lo).btn.spanAt = none) (hb : (s.chan t lo).btn.both = false)
    (hx : x + 3 * sec ≤ s.tnow t) : s.buttonHold t lo = (s.heldOnce t lo).buttonAct t lo 3 := by
  unfold State.buttonHold
  simp [hs, hz, ha, hb, hd, hp, hx, State.heldOnce]

/-- The SPAN button held alone throughout for 3 s (04 R173). -/
theorem State.buttonHold_span {x : Tick} (hs : (s.chan t lo).btn.spanStuck = false)
    (hz : (s.chan t lo).btn.spanAt = some x) (ha : (s.chan t lo).btn.zeroAt = none) (hb : (s.chan t lo).btn.both = false)
    (hx : x + 3 * sec ≤ s.tnow t) : s.buttonHold t lo = (s.heldOnce t lo).buttonAct t lo 4 := by
  unfold State.buttonHold
  simp [hs, hz, ha, hb, hd, hp, hx, State.heldOnce]

/-- Both buttons held together for 3 s (04 R173). -/
theorem State.buttonHold_reset {x y : Tick} (hsz : (s.chan t lo).btn.zeroStuck = false)
    (hss : (s.chan t lo).btn.spanStuck = false) (hz : (s.chan t lo).btn.zeroAt = some x)
    (ha : (s.chan t lo).btn.spanAt = some y) (hx : max x y + 3 * sec ≤ s.tnow t) :
    s.buttonHold t lo = (s.heldOnce t lo).buttonAct t lo 5 := by
  unfold State.buttonHold
  simp [hsz, hss, hz, ha, hd, hp, hx, State.heldOnce]

end

/-- The ZERO button held for more than 60 s is stuck, once (04 R173). -/
theorem State.buttonStuck_zero {x : Tick} (hz : (s.chan t lo).btn.zeroAt = some x)
    (hs : (s.chan t lo).btn.zeroStuck = false) (hx : x + 60 * sec < s.tnow t) :
    s.buttonStuck t lo =
      ((((s.modChan t lo fun ch => { ch with btn := { ch.btn with zeroStuck := true } }).setDiag t lo 0 true).emit t lo 0x0B
        (payload [(16, 1, 7)])).notice t lo (32 * t + lo) 6) := by
  unfold State.buttonStuck
  simp [hp, hz, hs, hx]

end

/-! ## The save timer -/

/-- A pending trim save that is due and not barred is made (10 R375). -/
theorem State.trimSave_saves {x : Tick} {s : State} (ha : s.upd.saveAt = some x) (hx : x ≤ s.now) (hp : s.upd.savePend = true)
    (hb : s.saveBarred = false) (hs : s.start.setSrc ≠ 3) : s.trimSave = s.saveSettings s.upd.runBank := by
  unfold State.trimSave
  simp [ha, hx, hp, hb, hs]

theorem State.trimSave_of_none_or_barred {s : State} (h : s.upd.savePend = false ∨ s.saveBarred = true) : s.trimSave = s := by
  unfold State.trimSave
  split
  · obtain h | h := h <;> simp [h]
  · rfl

/-- Settles O44: the buttons act inside a tile in service, the captures and the save timer at their tick, by the lemmas on their
operations. -/
theorem trimButtonsCapturesAndTheSaveTimer : Obligations.TrimButtonsCapturesAndTheSaveTimer := by
  intro τ t c s hs b now B d
  refine ⟨fun ho hp => ⟨fun hd k hk => next_onTile hs ho ?_, fun x hz hn hx => ?_⟩, next_onTick hs rfl,
    fun x ha hx hg hpend hb hsrc => ?_, fun h => next_onTick hs ?_⟩
  · obtain ⟨rfl, x, hn, hz, ha, hb, hx⟩ | ⟨rfl, x, hn, ha, hz, hb, hx⟩ | ⟨rfl, x, y, hnz, hns, hz, ha, hx⟩ := hk
    · exact State.buttonHold_zero hp hd hn hz ha hb hx
    · exact State.buttonHold_span hp hd hn ha hz hb hx
    · exact State.buttonHold_reset hp hd hnz hns hz ha hx
  · exact next_onTile hs ho (State.buttonStuck_zero hp hz hn hx)
  · refine next_onTick hs ((if_neg ?_).trans (State.trimSave_saves ha hx hpend hb hsrc))
    rw [hg]
    exact Bool.false_ne_true
  · split
    · rfl
    · exact State.trimSave_of_none_or_barred h

end Sys2Proof.Machine
end

section
/-!
PROOFS. Writes to the registers of a tile and to ORDER_HORIZON, through BAR0 (02 R63; 03 R121; 04 R169, R171; 05 R185, R212; 08
R299, R306; 14 R442).
-/
namespace Sys2Proof.Machine

/-! ## Where the words of a tile stand -/

/-- A row of the map that repeats its block holds the addresses of each of its `n` copies. -/
theorem inRow_copy_isSome {b len stride n k o : Nat} (hn : n ≠ 1) (hk : k < n) (hl : o < len) (hs : o < stride) :
    (inRow (b + stride * k + o) (b, len, stride, n)).isSome = true := by
  have hd : (b + stride * k + o - b) / stride = k := by
    rw [Nat.add_assoc, Nat.add_sub_cancel_left, Nat.mul_add_div (Nat.zero_lt_of_lt hs), Nat.div_eq_of_lt hs, Nat.add_zero]
  unfold inRow
  dsimp only
  rw [if_neg hn, hd, Nat.mul_comm k stride, if_pos ⟨by omega, hk, by omega⟩]
  rfl

/-- A word of a block that every tile has stands in the catalogue at each of the 16 tiles (14 Table 14-2). -/
theorem blockOf_tileAddr {t first len o : Nat} (hr : (0x20000 + first, len, 0x4000, 16) ∈ blockRows) (ht : t < 16)
    (hf : first ≤ o) (ho : o < first + len) (hl : len ≤ 0x4000) : (blockOf (tileAddr t o)).isNone = false := by
  have ha : tileAddr t o = 0x20000 + first + 0x4000 * t + (o - first) := by unfold tileAddr; omega
  rw [Option.isNone_eq_false_iff, blockOf, List.findSome?_isSome_iff]
  exact ⟨_, hr, ha ▸ inRow_copy_isSome (by decide) ht (by omega) (by omega)⟩

/-- A write of one whole word reaches the register of its tile when RWL fields accept a write (14 R442). -/
theorem State.barWrite_tile {p : PortId} {t o : Nat} {w : Word} {s : State} (ht : t < 16) (ho : o < 0x4000)
    (hb : (blockOf (tileAddr t o)).isNone = false) (hw : s.rwl = true) :
    s.barWrite p (tileAddr t o) 1 15 w = (s.pokeTile p t o w).1 := by
  have ha : tileAddr t o = 0x20000 + 0x4000 * t + o := rfl
  have hp : otherPort p (tileAddr t o) = false := by
    cases p <;> simp only [otherPort, Bool.and_eq_false_iff, decide_eq_false_iff_not] <;> omega
  have hpoke : s.poke p (tileAddr t o) w = s.pokeTile p t o w := by
    have hn : (tileAddr t o - 0x20000) / 0x4000 = t := by omega
    have hm : tileAddr t o % 0x4000 = o := by omega
    unfold State.poke
    rw [if_neg (by simp [hb, hp]), if_neg (by omega), if_neg (by omega), if_neg (by omega), if_neg (by omega),
      if_pos (by omega), hn, hm]
  unfold State.barWrite
  rw [if_neg (by simp [hb, hp, hw]), hpoke]

/-- What such a write does on the running device, from what the tile's register makes of it. -/
theorem next_onWrite_tile {τ : Tick} {p : PortId} {t first len o : Nat} {w : Word} {s u : State} {r : Refused}
    (hs : s.power = .running) (hw : (s.advance τ).rwl = true) (ht : t < 16)
    (hr : (0x20000 + first, len, 0x4000, 16) ∈ blockRows) (hf : first ≤ o ∧ o < first + len ∧ first + len ≤ 0x4000)
    (h : (s.advance τ).pokeTile p t o w = (u, r)) :
    (.next (s.onWrite τ p (tileAddr t o) 1 15 w) : Host.Outcome State Fault Refusal) = .next u.finish := by
  obtain ⟨hlo, hhi, hend⟩ := hf
  have hb := blockOf_tileAddr hr ht hlo hhi (by omega)
  exact next_onTick hs (by rw [State.barWrite_tile ht (by omega) hb hw, h])

/-! ## Which register a word of a tile is -/

section
variable (p : PortId) (t : Nat) (w : Word) (s : State)

theorem State.pokeTile_doTest : s.pokeTile p t 0x408 w = s.doTestWrite t w := rfl
theorem State.pokeTile_convCtrl : s.pokeTile p t 0x800 w = s.convCtrl t w := rfl
theorem State.pokeTile_injCfg : s.pokeTile p t 0x80C w = s.injCfg t w := rfl
theorem State.pokeTile_rfxLat : s.pokeTile p t 0x2508 w =
    (if bit w 31 then s.modTile t fun T => { T with rfxLat := 0 } else s, none) := rfl

theorem State.pokeTile_trim {c reg : Nat} (hc : c < 32) (hreg : reg < 2) :
    s.pokeTile p t (0x600 + 8 * c + 4 * reg) w = s.trimWrite t c reg w := by
  have hi : (0x600 + 8 * c + 4 * reg - 0x600) / 8 = c := by omega
  have hj : (0x600 + 8 * c + 4 * reg) / 4 % 2 = reg := by omega
  simp (disch := omega) only [State.pokeTile, if_neg, if_pos, hi, hj]

theorem State.pokeTile_rule {r reg : Nat} (hr : r < 64) (hreg : reg < 4) :
    s.pokeTile p t (0x2000 + 16 * r + 4 * reg) w = s.ruleReg t r reg w := by
  have hi : (0x2000 + 16 * r + 4 * reg - 0x2000) / 16 = r := by omega
  have hj : (0x2000 + 16 * r + 4 * reg) / 4 % 4 = reg := by omega
  simp (disch := omega) only [State.pokeTile, if_neg, if_pos, hi, hj]

end

/-! ## What each register does with an accepted word -/

/-- The converter fields of CONV_CTRL as written, with REF_EN at `en` (05 Table 5-7). -/
def ConvUnit.ctrl (en : Bool) (w : Word) (u : ConvUnit) : ConvUnit :=
  { u with
    refEn := en, align := bit w 30, calAuto := bit w 29, calDt := max 10 (fld w 23 16), calPeriod := fld w 15 0,
    refReady := u.refReady && en, refFault := u.refFault && en,
    badCnt := if en = u.refEn then u.badCnt else 0, goodCnt := if en = u.refEn then u.goodCnt else 0 }

section
variable {t : Nat} {w : Word} {s : State}

/-- A write to CONV_CTRL: refused, or the fields as written, with the reference fault ended by a cleared REF_EN. -/
theorem State.convCtrl_eq (t : Nat) (w : Word) (s : State) :
    s.convCtrl t w =
      if (s.tile t).cv.refEn && !bit w 31 && (s.tile t).refHeld then
        (s.modCv t fun u => { u with refRefused := true }, some (4, 0))
      else ((if (s.tile t).cv.refEn && !bit w 31 then (s.modCv t (ConvUnit.ctrl (bit w 31) w)).endPresent (35 + t) 6
        else s.modCv t (ConvUnit.ctrl (bit w 31) w)).refresh t, none) := rfl

theorem State.convCtrl_enables (hb : bit w 31 = true) :
    s.convCtrl t w = ((s.modCv t (ConvUnit.ctrl true w)).refresh t, none) := by
  rw [State.convCtrl_eq, hb, if_neg (by simp), if_neg (by simp)]

/-- REF_EN is not cleared while something on the tile needs the reference (05 R185). -/
theorem State.convCtrl_refuses (hb : bit w 31 = false) (he : (s.tile t).cv.refEn = true) (hh : (s.tile t).refHeld = true) :
    s.convCtrl t w = (s.modCv t fun u => { u with refRefused := true }, some (4, 0)) := by
  rw [State.convCtrl_eq, if_pos (by rw [hb, he, hh]; rfl)]

theorem State.convCtrl_disables (hb : bit w 31 = false) (he : (s.tile t).cv.refEn = true)
    (hh : (s.tile t).refHeld = false) :
    s.convCtrl t w = (((s.modCv t (ConvUnit.ctrl false w)).endPresent (35 + t) 6).refresh t, none) := by
  rw [State.convCtrl_eq, hb, he, hh, if_neg (by decide), if_pos (by decide)]

/-- INJ_CFG is taken when every armed sequence still meets its worst case (05 R212). -/
theorem State.injCfg_sets (h : (s.tile t).worstAll (s.tile t).armedSeqs (max 100 (fld w 31 16)) (fld w 15 0) = true) :
    s.injCfg t w = ((s.modCv t fun u => { u with injGap := max 100 (fld w 31 16), injW := fld w 15 0 }).modTile t Tile.setWorst,
      none) := if_pos h

/-- DO_TEST is taken when its heat stays within the account (03 R121). -/
theorem State.doTestWrite_sets
    (h : ({ s.tile t with tpWidth := clampNat 100 1000 (fld w 25 16), tpPeriod := max 1 (fld w 9 0) } : Tile).heat ≤ 6000) :
    s.doTestWrite t w = (s.modTile t fun T =>
      { T with tpWidth := clampNat 100 1000 (fld w 25 16), tpPeriod := max 1 (fld w 9 0) }, none) :=
  if_neg (Nat.not_lt.2 h)

/-- A register of a rule that stays sound and drives no line of another rule is replaced (08 R299, R306). -/
theorem State.ruleReg_puts {i j : Nat} {r : Rule} (hr : ((s.tile t).rules.getD i {}).put j w = r) (hb : ruleBad r = none)
    (hl : s.lineClash t i r = false) : s.ruleReg t i j w = (s.putRule t i r, none) := by
  unfold State.ruleReg
  rw [hr]
  exact if_neg (by simp [hb, hl])

/-- An offset within the channel's limit is its trim (04 R169). -/
theorem State.trimWrite_offset {c : Nat} (h : (s.chan t c).ofsOk (sext 24 (fld w 23 0)) = true) :
    s.trimWrite t c 0 w = (s.trimChange t c (sext 24 (fld w 23 0)) (s.chan t c).trimGain, none) := if_pos h

/-- A gain within its limits is its channel's trim (04 R171). -/
theorem State.trimWrite_gain {c : Nat} (h : gainOk (fld w 23 0) = true) :
    s.trimWrite t c 1 w = (s.trimChange t c (s.chan t c).trimOfs (fld w 23 0), none) := if_pos h

end

/-- ORDER_HORIZON is no RWL register: its write reaches it at any time. -/
theorem State.barWrite_horizon (p : PortId) (w : Word) (s : State) : s.barWrite p 0x120 1 15 w = s.horizonWrite w := by
  have hb : (blockOf 0x120).isNone = false := by decide
  have hp : otherPort p 0x120 = false := by cases p <;> rfl
  have hr : isRwl 0x120 = false := by decide
  have hpoke : s.poke p 0x120 w = (s.horizonWrite w, none) := by
    unfold State.poke
    rw [if_neg (by simp [hb, hp]), if_pos (by decide)]
    rfl
  unfold State.barWrite
  rw [if_neg (by simp [hb, hp, hr]), hpoke]

/-- Settles O35: each write reaches its register, by the block of the catalogue that holds it, and acts there by the lemma on
that register. -/
theorem tileRegisterWritesSetTheirFields : Obligations.TileRegisterWritesSetTheirFields := by
  intro τ p w s hs hw b
  refine ⟨fun t ht => ?_, next_onTick hs (State.barWrite_horizon p w b)⟩
  intro u set
  have conv {v : State} {r : Refused} (h : b.convCtrl t w = (v, r)) :
      (.next (s.onWrite τ p (tileAddr t 0x800) 1 15 w) : Host.Outcome State Fault Refusal) = .next v.finish :=
    next_onWrite_tile hs hw ht (first := 0x800) (len := 0x200) (by decide) (by decide) ((b.pokeTile_convCtrl p t w).trans h)
  refine ⟨fun hb => conv (State.convCtrl_enables hb), fun hb he hh => conv (State.convCtrl_refuses hb he hh),
    fun hb he hh => conv (State.convCtrl_disables hb he hh), fun h => ?_, fun h => ?_, fun hb => ?_,
    fun r reg hr hreg hx hl => ?_, fun c hc => ⟨fun h => ?_, fun h => ?_⟩⟩
  · exact next_onWrite_tile hs hw ht (first := 0x800) (len := 0x200) (by decide) (by decide)
      ((b.pokeTile_injCfg p t w).trans (State.injCfg_sets h))
  · exact next_onWrite_tile hs hw ht (first := 0x400) (len := 0x100) (by decide) (by decide)
      ((b.pokeTile_doTest p t w).trans (State.doTestWrite_sets h))
  · exact next_onWrite_tile hs hw ht (first := 0x2400) (len := 0x200) (by decide) (by decide)
      ((b.pokeTile_rfxLat p t w).trans (by rw [hb]; rfl))
  · exact next_onWrite_tile hs hw ht (first := 0x2000) (len := 0x400) (by decide) (by omega)
      ((b.pokeTile_rule p t w hr hreg).trans (State.ruleReg_puts rfl hx hl))
  · exact next_onWrite_tile hs hw ht (first := 0x600) (len := 0x100) (by decide) (by omega)
      ((b.pokeTile_trim p t w hc (by decide)).trans (State.trimWrite_offset h))
  · exact next_onWrite_tile hs hw ht (first := 0x600) (len := 0x100) (by decide) (by omega)
      ((b.pokeTile_trim p t w hc (by decide)).trans (State.trimWrite_gain h))

end Sys2Proof.Machine
end

section
/-!
PROOFS. The ring commands on sequences and converters: arm, trigger and disarm, injected conversions and calibrations (05 R189,
R193, R205, R207, R208).
-/
namespace Sys2Proof.Machine

/-! ## Sequences -/

/-- The completion of an arm: OK with the worst-case length of the sequence (05 R189). -/
def State.armOk (t n : Nat) (s : State) : Reply := Reply.ok (payload [(16, 4, ((s.tile t).seq n).worst)])

/-- An admitted sequence, armed afresh: its counters, held triggers and history cleared (05 R189). -/
def Seq.armedAt (now : Tick) (q : Seq) : Seq :=
  { q with
    arm := true, active := true, adm := 0, overrun := 0, scans := 0, scan := none, held := none, lastTrig := none,
    future := [], hist := [], specWait := 0, since := false, noticeAt := none, armAt := now, disarmH := [] }

section
variable {arg : Nat} {h : Hdr} {tick : Tick} {s : State}

theorem State.armCmd_of_armed (ha : ((s.tile (arg / 8)).seq (arg % 8)).active = true)
    (hr : ((s.tile (arg / 8)).seq (arg % 8)).arm = true) :
    s.armCmd arg = (s, some (s.armOk (arg / 8) (arg % 8))) :=
  if_pos (by rw [ha, hr]; rfl)

theorem State.armSeq_admits {t n : Nat}
    (h : (s.tile t).seqAdmit n { (s.tile t).seq n with arm := true, active := true } = 0) :
    s.armSeq t n ((s.tile t).seq n).cfg =
      ((s.modSeq t n fun _ => ((s.tile t).seq n).armedAt (s.tnow t)).modTile t Tile.setWorst, 0) := if_pos h

/-- A sequence at rest that admission accepts is armed. -/
theorem State.armCmd_arms (ha : ((s.tile (arg / 8)).seq (arg % 8)).active = false)
    (hadm : (s.tile (arg / 8)).seqAdmit (arg % 8) { (s.tile (arg / 8)).seq (arg % 8) with arm := true, active := true } = 0) :
    s.armCmd arg =
      (let u := (s.modSeq (arg / 8) (arg % 8) fun _ =>
        ((s.tile (arg / 8)).seq (arg % 8)).armedAt (s.tnow (arg / 8))).modTile (arg / 8) Tile.setWorst
       (u, some (u.armOk (arg / 8) (arg % 8)))) := by
  unfold State.armCmd
  simp only [ha, Bool.false_and, Bool.false_eq_true, if_false, State.armSeq_admits hadm, if_true]
  rfl

section
variable (ha : ((s.tile (h.arg / 8)).seq (h.arg % 8)).active = true) (hr : ((s.tile (h.arg / 8)).seq (h.arg % 8)).arm = true)
include ha hr

/-- A trigger of an armed sequence: carried to a future tick, not ready up to the tick of the arm, or fired (05 R189, R193). -/
theorem State.triggerCmd_of_armed :
    s.triggerCmd h tick =
      if s.tnow (h.arg / 8) < tick then
        (s.modSeq (h.arg / 8) (h.arg % 8) fun q => { q with future := insertFuture (tick, h) q.future }, none)
      else if s.tnow (h.arg / 8) ≤ ((s.tile (h.arg / 8)).seq (h.arg % 8)).armAt then (s, some { st := 4 })
      else
        let x := s.fire (h.arg / 8) (h.arg % 8) (if tick = 0 then s.tnow (h.arg / 8) else tick)
        (x.1, some (Reply.ok (payload [(16, 1, x.2.getD 0)]))) :=
  if_neg (by rw [ha, hr]; decide)

theorem State.triggerCmd_future (ht : s.tnow (h.arg / 8) < tick) :
    s.triggerCmd h tick =
      (s.modSeq (h.arg / 8) (h.arg % 8) fun q => { q with future := insertFuture (tick, h) q.future }, none) :=
  (State.triggerCmd_of_armed ha hr).trans (if_pos ht)

section
variable (ht : tick ≤ s.tnow (h.arg / 8))
include ht

theorem State.triggerCmd_not_ready (hn : s.tnow (h.arg / 8) ≤ ((s.tile (h.arg / 8)).seq (h.arg % 8)).armAt) :
    s.triggerCmd h tick = (s, some { st := 4 }) :=
  (State.triggerCmd_of_armed ha hr).trans ((if_neg (Nat.not_lt.2 ht)).trans (if_pos hn))

theorem State.triggerCmd_fires (hn : ((s.tile (h.arg / 8)).seq (h.arg % 8)).armAt < s.tnow (h.arg / 8)) :
    s.triggerCmd h tick =
      (let x := s.fire (h.arg / 8) (h.arg % 8) (if tick = 0 then s.tnow (h.arg / 8) else tick)
       (x.1, some (Reply.ok (payload [(16, 1, x.2.getD 0)])))) :=
  (State.triggerCmd_of_armed ha hr).trans ((if_neg (Nat.not_lt.2 ht)).trans (if_neg (Nat.not_le.2 hn)))

end
end

/-- Disarming a sequence at rest completes the commands that ask for it. -/
theorem State.disarmSeq_of_rest {t n : Nat} (ha : ((s.tile t).seq n).active = false) :
    s.disarmSeq t n [h] = s.reply h 0x31 (Reply.ok 0) :=
  if_pos (by rw [ha]; rfl)

end

/-- Settles O26: the three commands act on a tile that serves, by the lemmas on their operations. -/
theorem sequenceCommandsArmTriggerAndDisarm : Obligations.SequenceCommandsArmTriggerAndDisarm := by
  intro h s harg hserves t n q worst lets
  have hb : (argBad h.arg 128) = none := argBad_none harg
  have ht (k : Nat) (e : some (h.arg / 8) = some k) : s.serves h.at_ k = true := Option.some.inj e ▸ hserves
  have hseq (op : Nat) : ((s.begins h op).tile t).seq n = q := by rw [State.begins_tile]
  refine ⟨fun hl ha hr => ?_, fun hl ha hadm => ?_, fun tick hl ha hr hlt => ?_, fun tick hl ha hr hle hn => ?_,
    fun tick hl ha hr hle hn => ?_, fun hl ha => ?_, fun hl _ => next_onRing_waits hl hb ht rfl rfl⟩
  · exact next_onRing_completes hl hb ht rfl (State.armCmd_of_armed (by rwa [hseq]) (by rwa [hseq]))
  · refine next_onRing_completes hl hb ht rfl ((State.armCmd_arms (by rwa [hseq]) ?_).trans ?_)
    · rwa [State.begins_tile]
    · rw [State.begins_tile]
      rfl
  · exact next_onRing_waits hl hb ht rfl (State.triggerCmd_future (by rwa [hseq]) (by rwa [hseq]) hlt)
  · exact next_onRing_completes hl hb ht rfl (State.triggerCmd_not_ready (by rwa [hseq]) (by rwa [hseq]) hle (by rwa [hseq]))
  · exact next_onRing_completes hl hb ht rfl (State.triggerCmd_fires (by rwa [hseq]) (by rwa [hseq]) hle (by rwa [hseq]))
  · exact next_onRing_waits hl hb ht rfl (congrArg (·, none) (State.disarmSeq_of_rest (by rwa [hseq])))

/-! ## Injected conversions and calibrations -/

/-- An injected conversion that fits is put at the end of its tile's queue (05 R205). -/
theorem State.injectCmd_queues {h : Hdr} {slot : Word} {t i : Nat} {s : State}
    (ht : t = if h.arg < 512 then h.arg / 32 else h.arg - 512) (hr : (s.tile t).cv.refReady = true)
    (hi : injTarget h.arg slot = some (t, i)) (hok : (s.tile t).slotOk i slot = true)
    (hw : (s.tile t).slotWorst i slot ≤ (s.tile t).cv.injW * us) (hq : (s.tile t).cv.injQ.length < 4) :
    s.injectCmd h slot =
      (s.modCv t fun u => { u with injQ := u.injQ ++ [{ h := h, input := i, slot := slot }] }, none) := by
  have hroom : ¬((s.tile t).cv.injW * us < (s.tile t).slotWorst i slot || 4 ≤ (s.tile t).cv.injQ.length) = true := by
    simp only [Bool.or_eq_true, decide_eq_true_eq]
    omega
  unfold State.injectCmd
  simp only [← ht, hr, hi, hok, Bool.not_true, Bool.false_eq_true, if_false, if_neg hroom]

/-- What INJECT needs of a sound slot word: the channel that it names, or nothing for an internal input. -/
theorem injNeeds_sound {arg : Nat} {slot : Word} (ha : arg < 528) (hb : opsBad 0x33 slot.toNat = none) :
    injNeeds arg slot = { own := if arg < 512 then [(0, arg)] else [],
                          tile := some (if arg < 512 then arg / 32 else arg - 512) } := by
  unfold injNeeds
  simp only [hb, if_pos ha, Option.map_none]
  split <;> rfl

/-- CALIBRATE without EXCL starts a background calibration, or joins the one under way (05 R207). -/
theorem State.calibrateCmd_starts {h : Hdr} {s : State} (hr : (s.tile h.arg).cv.refReady = true) :
    s.calibrateCmd h = (s.calBackground h.arg [h], none) :=
  if_neg (by rw [hr]; decide)

/-- CALIBRATE with EXCL, on converters that no armed sequence uses, abandons a background calibration (05 R208). -/
theorem State.calibrateExcl_starts {h : Hdr} {conv : Nat} {s v : State} (hc : conv % 4 ≠ 0)
    (hr : (s.tile h.arg).cv.refReady = true) (he : ((s.tile h.arg).cv.cal.busy && (s.tile h.arg).cv.cal.excl) = false)
    (hs : (s.tile h.arg).armedSeqs.any (fun x => (conv.testBit 0 && x.2.uses 0) || (conv.testBit 1 && x.2.uses 1)) = false)
    (hv : forAll (fun g u => u.reply g 0x34 { st := 6 }) (s.tile h.arg).cv.cal.hdrs s = v) :
    s.calibrateExcl h conv =
      (v.modCv h.arg fun u => { u with cal := { u.cal with
        busy := true, excl := true, convs := conv % 4, stepsP := 0, stepsF := 0, dueP := v.tnow h.arg, dueF := v.tnow h.arg,
        before := u.injQ.length + u.injRunning, hdrs := [h], bad := false } }, none) := by
  subst hv
  unfold State.calibrateExcl
  dsimp only
  rw [if_neg hc, if_neg (by rw [hr, he]; decide), if_neg (by rw [hs]; decide)]

/-- Settles O27: the commands act on a tile that serves, by the lemmas on their operations. -/
theorem converterCommandsAreQueued : Obligations.ConverterCommandsAreQueued := by
  intro h s
  refine ⟨fun slot i hl harg hserves hb hr hi hok hw hq => ?_, fun conv hl harg hserves hr => ?_,
    fun conv hl harg hserves hc hr he hs => ?_⟩
  · have hn := injNeeds_sound harg hb
    have ht (k : Nat) (e : (injNeeds h.arg slot).tile = some k) : s.serves h.at_ k = true := by
      rw [hn] at e
      exact Option.some.inj e ▸ hserves
    refine next_onRing_waits (c := fun _ => { injNeeds h.arg slot with cmd := some (.inject h slot) }) ?_ ?_ ht ?_ ?_
    · rw [hn]; exact hl
    · rw [hn]
    · rw [hn]
    · exact State.injectCmd_queues rfl (by rwa [State.begins_tile]) hi (by rwa [State.begins_tile])
        (by rwa [State.begins_tile]) (by rwa [State.begins_tile])
  · exact next_onRing_waits hl (argBad_none harg) (fun k e => Option.some.inj e ▸ hserves) rfl
      (State.calibrateCmd_starts (by rwa [State.begins_tile]))
  · exact next_onRing_waits hl (argBad_none harg) (fun k e => Option.some.inj e ▸ hserves) rfl
      (State.calibrateExcl_starts hc (by rwa [State.begins_tile]) (by rwa [State.begins_tile]) (by rwa [State.begins_tile])
        (by rw [State.begins_tile]))

end Sys2Proof.Machine
end

section
/-!
PROOFS. Triggers, scans and slots of a sequence: the timer, held triggers, speculation, deadlines and the start of a slot (05
R191 to R198).
-/
namespace Sys2Proof.Machine

section
variable {t n : Nat} {s : State}

/-! ## Triggers -/

/-- The next grid tick of an armed TIMER sequence has come (05 Table 5-10). -/
theorem State.timerTrigger_fires (ha : ((s.tile t).seq n).active = true) (hr : ((s.tile t).seq n).arm = true)
    (hs : ((s.tile t).seq n).src = 1) (hd : ((s.tile t).seq n).nextTick ≤ s.tnow t) :
    s.timerTrigger t n =
      ((s.modSeq t n fun q => { q with timer := ((s.tile t).seq n).nextTick }).fire t n ((s.tile t).seq n).nextTick).1 :=
  if_pos (by rw [ha, hr, hs, decide_eq_true hd]; rfl)

theorem State.timerTrigger_waits (h : ((s.tile t).seq n).active = false ∨ ((s.tile t).seq n).arm = false ∨
    ((s.tile t).seq n).src ≠ 1 ∨ s.tnow t < ((s.tile t).seq n).nextTick) : s.timerTrigger t n = s := by
  refine if_neg ?_
  simp only [Bool.and_eq_true, decide_eq_true_eq]
  rintro ⟨⟨⟨ha, hr⟩, hs⟩, hd⟩
  obtain h | h | h | h := h
  · exact Bool.false_ne_true (h.symm.trans ha)
  · exact Bool.false_ne_true (h.symm.trans hr)
  · exact h hs
  · exact Nat.not_le.2 h hd

/-- A trigger carried to a tick now reached fires, and completes its command (05 R193). -/
theorem State.heldTrigger_fires {x : Tick × Hdr}
    (hx : ((s.tile t).seq n).future.find? (fun x => decide (x.1 ≤ s.tnow t)) = some x) :
    s.heldTrigger t n =
      (let f := (s.modSeq t n fun q => { q with future := q.future.erase x }).fire t n x.1
       f.1.reply x.2 0x32 (Reply.ok (payload [(16, 1, f.2.getD 0)]))) := by
  unfold State.heldTrigger
  simp only [hx]

/-- A trigger held behind a scan that has ended starts the next, TRIG_MIN after the last (05 R194). -/
theorem State.heldTrigger_starts {trig : Tick}
    (hx : ((s.tile t).seq n).future.find? (fun x => decide (x.1 ≤ s.tnow t)) = none)
    (hh : ((s.tile t).seq n).held = some trig) (hs : ((s.tile t).seq n).scan = none) (hr : ((s.tile t).seq n).arm = true)
    (hl : ((s.tile t).seq n).src = 1 ∨
      ∀ x, ((s.tile t).seq n).lastTrig = some x → x + ((s.tile t).seq n).period ≤ s.tnow t) :
    s.heldTrigger t n = (s.startScan t n trig true).modSeq t n fun q => { q with lastTrig := some (s.tnow t) } := by
  unfold State.heldTrigger
  simp only [hx, hh, hs, hr, Bool.true_and]
  refine if_pos ?_
  split
  · next x hlt => simpa only [Bool.or_eq_true, decide_eq_true_eq] using hl.imp_right (· x hlt)
  · rfl

/-! ## Speculation and deadlines -/

/-- The tick that the last two triggers predict opens a speculative scan (05 R197). -/
theorem State.speculate_opens {t1 t0 : Tick} (hh : ((s.tile t).seq n).hist = [t1, t0]) (hn : 0 < ((s.tile t).seq n).specN)
    (hs : ((s.tile t).seq n).src ≠ 1) (ha : ((s.tile t).seq n).active = true) (hr : ((s.tile t).seq n).arm = true)
    (hc : ((s.tile t).seq n).scan = none) (hd : ((s.tile t).seq n).held = none) (hi : ((s.tile t).seq n).since = false)
    (hw : ((s.tile t).seq n).specWait = 0) (hp : s.tnow t + t0 = 2 * t1) :
    s.speculate t n = s.modSeq t n fun q => { q with scan := some { trig := s.tnow t, spec := some (s.tnow t) } } := by
  unfold State.speculate
  dsimp only
  rw [hh]
  exact if_pos ⟨hn, hs, ha, hr, hc, hd, by rw [hi]; rfl, hw, hp⟩

section
variable {sc : Scan} (hc : ((s.tile t).seq n).scan = some sc)
include hc

/-- An unconfirmed speculative scan ends at its window (05 R198). -/
theorem State.specOver_of_spec {p : Tick} (hp : sc.spec = some p) :
    s.specOver t n =
      if p + ((s.tile t).seq n).specTol + 1000 ≤ s.tnow t then (s.cancelSpec t n).settleScan t 9 n else s := by
  unfold State.specOver
  simp only [hc, hp]

/-- A scan past its deadline is marked late, once, with its fault (05 R196). -/
theorem State.missScan_of_scan :
    s.missScan t n =
      if s.scanPast t n && !sc.late then
        (s.modSeq t n fun q => { q with scan := q.scan.map fun x => { x with late := true } }).raise (35 + t) 9 (8 * t + n) 0
          (sat 0xFFFFFFFF (s.tnow t - (sc.trig + ((s.tile t).seq n).deadline)))
      else s := by
  unfold State.missScan
  simp only [hc]

end

/-! ## Slots -/

/-- A due slot whose converter nothing else claims starts (05 R191, R192). -/
theorem State.startSlot_starts {k : Nat} {w : Word} {sc : Scan} (hk : (s.tile t).slotReady n = some (k, w))
    (hc : ((s.tile t).seq n).scan = some sc) (hj : (s.tile t).cv.job (Slot.conv w) = none)
    (hi : (s.tile t).injReady (Slot.conv w) (s.tnow t) = none)
    (hd : (s.tile t).stepDue (Slot.conv w) (s.tnow t) = false)
    (hl : ∀ m, m < n → ∀ i x, (s.tile t).slotReady m = some (i, x) → Slot.conv x ≠ Slot.conv w) :
    s.startSlot t n = s.startJob t (Slot.conv w) (.seq n k) (Slot.input w) w sc.spec.isSome := by
  unfold State.startSlot
  simp only [hk, hc, hj, hi, hd, Option.isSome_none, Bool.false_or]
  refine if_neg ?_
  rw [Bool.not_eq_true, List.any_eq_false]
  intro m hm
  split
  · next i x hx => simpa only [decide_eq_true_eq] using hl m (List.mem_range.1 hm) i x hx
  · exact Bool.false_ne_true

theorem State.startSlot_of_none (hk : (s.tile t).slotReady n = none) : s.startSlot t n = s := by
  unfold State.startSlot
  simp only [hk]

end

/-- Settles O50: each happening acts inside a tile in service, by the lemma on its operation. -/
theorem triggersStartHoldAndSpeculateScans : Obligations.TriggersStartHoldAndSpeculateScans := by
  intro τ t n s hs ho b q now
  have ho' : ((s.atTile τ t).tile t).online = true := by rwa [State.atTile_tile]
  have inside {f : State → State} {v : State} (h : f b = v) := next_onTile hs ho' h
  refine ⟨fun ha hr hsrc hd => inside (State.timerTrigger_fires ha hr hsrc hd), fun h => inside (State.timerTrigger_waits h),
    fun x hx => inside (State.heldTrigger_fires hx), fun trig hx hh hc hr hl => inside (State.heldTrigger_starts hx hh hc hr hl),
    fun t1 t0 hh hn hsrc ha hr hc hd hi hw hp => inside (State.speculate_opens hh hn hsrc ha hr hc hd hi hw hp),
    fun sc p hc hp => ⟨fun h => ?_, fun h => ?_⟩, fun sc hc => ⟨fun hp hl => ?_, fun h => ?_⟩,
    fun k w sc hk hc hj hi hd hl => inside (State.startSlot_starts hk hc hj hi hd hl),
    fun hk => inside (State.startSlot_of_none hk)⟩
  · exact inside ((State.specOver_of_spec hc hp).trans (if_pos h))
  · exact inside ((State.specOver_of_spec hc hp).trans (if_neg (Nat.not_le.2 h)))
  · exact inside ((State.missScan_of_scan hc).trans (if_pos (by rw [hp, hl]; rfl)))
  · refine inside ((State.missScan_of_scan hc).trans (if_neg ?_))
    obtain h | h := h
    · rw [h, Bool.false_and]
      exact Bool.false_ne_true
    · rw [h, Bool.not_true, Bool.and_false]
      exact Bool.false_ne_true

end Sys2Proof.Machine
end

section
/-!
PROOFS. Conversions: what the end of an attempt, another attempt and a demodulation do, and the start and deadlines of injected
conversions (04 R144, R147; 05 R192, R200 to R206).
-/
namespace Sys2Proof.Machine

section
variable {t v : Nat} {s : State}

/-! ## Attempts -/

/-- No conversion runs on the converter. -/
theorem State.convEnd_idle {x : Sample} (hj : (s.tile t).cv.job v = none) : s.convEnd t v x = s := by
  unfold State.convEnd
  simp only [hj]

theorem State.reattempt_idle (hj : (s.tile t).cv.job v = none) : s.reattempt t v = s := by
  unfold State.reattempt
  simp only [hj]

/-- The judgement of an attempt, of a channel or of an internal input. -/
def Tile.judged (T : Tile) (v : Nat) (j : Job) (burn : Bool) (x : Sample) : ConvOut :=
  if j.input < 32 then T.judge v j burn x else T.judgeInternal v j x

/-- The job with the pin clamp of its pins at the end of its attempt. -/
def Job.clamped (T : Tile) (j : Job) : Job := { j with clamp := j.clamp || T.clampOn j.input }

/-- What an attempt measured, for the ranging history: one front-end value, or the two sides of a 3-wire channel. -/
def Tile.sides (T : Tile) (j : Job) (x : Sample) : List (Nat × Nat × Int) :=
  (j.input, j.gain, j.done1.getD x.x) ::
    if j.input < 32 && (T.chan j.input).mode.isRes && decide ((T.chan j.input).wire = 1) then
      [(64 + j.input, j.gain2, j.done2.getD x.x2)] else []

/-- The attempt includes the burnout test (04 R148). -/
def Tile.burns (T : Tile) (j : Job) : Bool := j.input < 32 && j.attempt = 0 && (T.chan j.input).burnTest

/-- The judgement finds the wire broken, of a channel that is still in its mode (04 R147). -/
def Job.breaks (j : Job) : ConvOut → Bool
  | .drop _ b _ => b && !j.left
  | _ => false

/-- What the judgement `out` of an attempt of job `j` does: a job already given up is discarded, and any other is accessioned,
discarded or converted again (05 R198, R201, R206). -/
def State.attempted (t v : Nat) (j : Job) (x : Sample) (out : ConvOut) (s : State) : State :=
  let T := s.tile t
  let a := s.burnout t j (T.burns j) x
  let trig := a.jobTrig t j
  let c := j.clamped T
  let free := a.freeJob t v
  match j.drop, out with
  | some f, out => free.dropJob t c (if j.breaks out then 7 else f) (j.breaks out) false trig
  | none, .again k => (a.discardIn t j.input 2).setJob t v (some k)
  | none, .drop f broken ovr =>
    (free.dropJob t c (if broken then 7 else (T.forced j).getD f) broken (ovr && (T.forced j).isNone) trig).slotDone t c 0 1
  | none, .acc raw => free.finishJob t v c raw j.sampleAt (T.sides j x)

section
variable {j : Job} (hj : (s.tile t).cv.job v = some j)
include hj

theorem State.convEnd_waiting {x : Sample} (hw : j.waiting = true) : s.convEnd t v x = s := by
  unfold State.convEnd
  simp only [hj, hw, Bool.true_or, if_true]

/-- The settle wait of another attempt ends: it samples now, unless V(c) stands (04 R134; 05 R201). -/
theorem State.reattempt_waiting (hw : j.waiting = true) :
    s.reattempt t v = s.setJob t v (some { j with
      waiting := false, sampleAt := if j.done1.isSome then j.sampleAt else s.tnow t }) := by
  unfold State.reattempt
  simp only [hj, hw, if_true]

/-- The end of an attempt that no demodulation makes: its judgement says what follows. -/
theorem State.convEnd_judged {x : Sample} (hw : j.waiting = false)
    (hd : 32 ≤ j.input ∨ ((s.tile t).chan j.input).mode ≠ .dmd ∨ j.left = true) :
    s.convEnd t v x = s.attempted t v j x ((s.tile t).judged v (j.clamped (s.tile t)) ((s.tile t).burns j) x) := by
  have hn : ¬(j.waiting || decide (j.input < 32) && decide (((s.tile t).chan j.input).mode = .dmd) && !j.left) = true := by
    simp only [hw, Bool.false_or, Bool.and_eq_true, decide_eq_true_eq, Bool.not_eq_true']
    rintro ⟨⟨hi, hm⟩, hl⟩
    obtain hd | hd | hd := hd
    · exact absurd hi (Nat.not_lt.2 hd)
    · exact hd hm
    · exact Bool.false_ne_true (hl.symm.trans hd)
  unfold State.convEnd
  simp only [hj, if_neg hn]
  rfl

end

section
variable {j : Job} {x : Sample} {out : ConvOut} {f : Nat} {ovr : Bool}

theorem Job.breaks_drop (hl : j.left = false) : j.breaks (.drop f true ovr) = true := by
  simp only [Job.breaks, hl, Bool.not_false, Bool.and_self]

theorem Job.breaks_false (h : j.left = true ∨ ∀ g ovr, out ≠ .drop g true ovr) : j.breaks out = false := by
  cases out with
  | acc raw => rfl
  | again k => rfl
  | drop g b o =>
    obtain hl | hn := h
    · simp only [Job.breaks, hl, Bool.not_true, Bool.and_false]
    · cases b with
      | false => rfl
      | true => exact absurd rfl (hn g o)

/-- A job already given up is discarded with the FATE that it was given, unless its wire is broken. -/
theorem State.attempted_of_dropped (hd : j.drop = some f) :
    s.attempted t v j x out =
      (((s.burnout t j ((s.tile t).burns j) x).freeJob t v).dropJob t (j.clamped (s.tile t)) (if j.breaks out then 7 else f)
        (j.breaks out) false ((s.burnout t j ((s.tile t).burns j) x).jobTrig t j)) := by
  simp only [State.attempted, hd]

section
variable (hd : j.drop = none)
include hd

theorem State.attempted_again {k : Job} :
    s.attempted t v j x (.again k) = ((s.burnout t j ((s.tile t).burns j) x).discardIn t j.input 2).setJob t v (some k) := by
  simp only [State.attempted, hd]

theorem State.attempted_drop {broken : Bool} :
    s.attempted t v j x (.drop f broken ovr) =
      (((s.burnout t j ((s.tile t).burns j) x).freeJob t v).dropJob t (j.clamped (s.tile t))
        (if broken then 7 else ((s.tile t).forced j).getD f) broken (ovr && ((s.tile t).forced j).isNone)
        ((s.burnout t j ((s.tile t).burns j) x).jobTrig t j)).slotDone t (j.clamped (s.tile t)) 0 1 := by
  simp only [State.attempted, hd]

theorem State.attempted_acc {raw : Int} :
    s.attempted t v j x (.acc raw) = ((s.burnout t j ((s.tile t).burns j) x).freeJob t v).finishJob t v
      (j.clamped (s.tile t)) raw j.sampleAt ((s.tile t).sides j x) := by
  simp only [State.attempted, hd]

end
end

/-! ## Demodulations -/

theorem State.dmdEnd_idle {d : Demod} (hj : (s.tile t).cv.jobF = none) : s.dmdEnd t d = s := by
  unfold State.dmdEnd
  simp only [hj]

/-- An injected conversion belongs to no scan, and is discarded for no scan's sake. -/
theorem Tile.forced_of_inj {T : Tile} {j : Job} {e : Inj} (hs : j.src = .inj e) (hd : j.drop = none) : T.forced j = none := by
  unfold Tile.forced Tile.jobScan
  rw [hs, hd]
  rfl

theorem State.missJob_of_inj {j : Job} {e : Inj} (hs : j.src = .inj e) : s.missJob t j = s := by
  unfold State.missJob
  rw [hs]

/-- An injected demodulation of one channel ends, and its command with it (04 R144; 05 R206). -/
theorem State.dmdEnd_injected {j : Job} {e : Inj} {d : Demod} {ch : Chan} {A : Int × Int × Nat} {past : Bool}
    {o : State × Bool × Nat × Nat} (hj : (s.tile t).cv.jobF = some j) (hs : j.src = .inj e) (hd : j.drop = none)
    (hl : j.left = false) (hi : j.input < 32) (hm : ((s.tile t).chan j.input).mode = .dmd)
    (hr : ((s.tile t).chan j.input).isRatio = false) (hch : (s.tile t).chan j.input = ch)
    (hA : (s.tile t).cv.amplitude ch ((s.tile t).chan ch.excCh) j.gain d.v = A)
    (hp : (d.v.any (fun x => !belowTop j.gain x) || j.clamp || (s.tile t).clampOn j.input) = past)
    (ho : (s.freeJob t 1).dmdOne t j j.input (roundHalfEven A.1 A.2.2) none (ch.dmdBroken A.1 A.2.1 A.2.2) past
      (s.jobTrig t j) = o) :
    s.dmdEnd t d = o.1.endInj t e (if o.2.1
      then Reply.ok (payload [(16, 4, o.2.2.1), (20, 2, o.2.2.2), (24, 4, j.sampleAt)])
      else { st := 8, rs := 10, pl := payload [(22, 1, o.2.2.1)] }) := by
  have hn : ¬(decide (32 ≤ j.input) || decide (((s.tile t).chan j.input).mode ≠ .dmd) || j.left) = true := by
    simp [hi, hm, hl]
  subst hch hA hp ho
  unfold State.dmdEnd
  simp only [hj, if_neg hn, hr, Bool.false_and, Bool.false_eq_true, if_false, Tile.forced_of_inj hs hd,
    State.missJob_of_inj hs, hs]

/-! ## Injected conversions -/

theorem State.startInj_of_none (h : (s.tile t).injReady v (s.tnow t) = none) : s.startInj t v = s := by
  unfold State.startInj
  simp only [h]

section
variable {e : Inj} (he : (s.tile t).injReady v (s.tnow t) = some e)
include he

/-- A ready injected conversion that can sample by its deadline, if it has one, starts (05 R192). -/
theorem State.startInj_starts (hd : e.h.deadline = 0 ∨
    s.now + (s.tile t).sampleTick e.input e.slot (s.tnow t) ≤ e.h.deadline + s.tnow t) :
    s.startInj t v = (s.modCv t fun u => { u with injQ := u.injQ.drop 1, injLast := some (s.tnow t) }).startJob t v (.inj e)
      e.input e.slot false := by
  unfold State.startInj
  simp only [he]
  refine if_neg ?_
  simp only [Bool.and_eq_true, decide_eq_true_eq]
  exact fun h => hd.elim h.1 (Nat.not_le.2 h.2)

/-- One that cannot leaves the queue (05 R206). -/
theorem State.startInj_misses (h0 : e.h.deadline ≠ 0)
    (hd : e.h.deadline + s.tnow t < s.now + (s.tile t).sampleTick e.input e.slot (s.tnow t)) :
    s.startInj t v = s.injMissed t e := by
  unfold State.startInj
  simp only [he]
  exact if_pos (by rw [decide_eq_true h0, decide_eq_true hd]; rfl)

end

/-- A queued conversion leaves the queue when its deadline has passed (05 R206). -/
theorem State.injPast_of_queued {p : PortId} {ring cnt : Nat} {e : Inj}
    (he : ((s.tile t).cv.injQ.find? fun e => e.h.port = p && e.h.ring = ring && e.h.cnt = cnt) = some e) :
    s.injPast t p ring cnt = if s.past e.h then s.injMissed t e else s := by
  unfold State.injPast
  rw [he]

end

/-- Settles O51: each happening acts inside a tile in service, by the lemma on its operation; the end of an attempt by what its
judgement says. -/
theorem conversionsAreJudgedAgainAcceptedOrDiscarded : Obligations.ConversionsAreJudgedAgainAcceptedOrDiscarded := by
  intro τ t v s hs ho b T now
  have ho' : ((s.atTile τ t).tile t).online = true := by rwa [State.atTile_tile]
  have inside {f : State → State} {u : State} (h : f b = u) := next_onTile hs ho' h
  refine ⟨fun x hj => ⟨inside (State.convEnd_idle hj), inside (State.reattempt_idle hj)⟩,
    fun j x hj hw => ⟨inside (State.convEnd_waiting hj hw), inside (State.reattempt_waiting hj hw)⟩,
    fun j x hj hw hd => ?_, fun d hj => inside (State.dmdEnd_idle hj),
    fun j e d hj hsrc hd hl hi hm hr => inside (State.dmdEnd_injected hj hsrc hd hl hi hm hr rfl rfl rfl rfl),
    fun h => inside (State.startInj_of_none h),
    fun e he => ⟨fun hd => inside (State.startInj_starts he hd), fun h0 hd => inside (State.startInj_misses he h0 hd)⟩,
    fun p ring cnt e he => ⟨fun hp => ?_, fun hp => ?_⟩⟩
  · intro ch burn a trig c free out
    have ends {o : ConvOut} {u : State} (hout : out = o) (h : b.attempted t v j x o = u) :
        exec (.conversionEnd τ t v x) s = .next u.finish :=
      inside ((State.convEnd_judged hj hw hd).trans ((congrArg (b.attempted t v j x) hout).trans h))
    refine ⟨fun f hdrop hk => ends rfl ?_, fun f g ovr hdrop hout hl => ends hout ?_, fun hdrop =>
      ⟨fun k hout => ends hout (State.attempted_again hdrop), fun f ovr hout => ends hout (State.attempted_drop hdrop),
        fun f ovr hout => ends hout (State.attempted_drop hdrop), fun raw hout => ends hout (State.attempted_acc hdrop)⟩⟩
    · rw [State.attempted_of_dropped hdrop, Job.breaks_false hk]
      rfl
    · rw [State.attempted_of_dropped hdrop, Job.breaks_drop hl]
      rfl
  · exact inside ((State.injPast_of_queued he).trans (if_pos hp))
  · exact inside ((State.injPast_of_queued he).trans (if_neg (by rw [hp]; exact Bool.false_ne_true)))

end Sys2Proof.Machine
end

section
/-!
PROOFS. Self-calibration and the main reference: when a calibration starts, what its steps do, and what the comparisons of the
reference with K's own bring (05 R184 to R186, R207 to R210).
-/
namespace Sys2Proof.Machine

section
variable {t : Nat} {s : State}

/-! ## Self-calibration -/

section
variable {x : Tick} (hx : (s.tile t).cv.cal.lastAt = some x)
include hx

theorem State.calDue_starts (ha : (s.tile t).cv.calAuto = true) (hr : (s.tile t).cv.refReady = true)
    (hp : (s.tile t).cv.calPeriod ≠ 0) (hd : x + (s.tile t).cv.calPeriod * (60 * sec) ≤ s.now) :
    s.calDue t = s.calBackground t [] := by
  unfold State.calDue
  simp only [hx]
  exact if_pos (by rw [ha, hr, decide_eq_true hp, decide_eq_true hd]; rfl)

theorem State.calDue_waits (h : (s.tile t).cv.calAuto = false ∨ (s.tile t).cv.refReady = false ∨
    (s.tile t).cv.calPeriod = 0 ∨ s.now < x + (s.tile t).cv.calPeriod * (60 * sec)) : s.calDue t = s := by
  unfold State.calDue
  simp only [hx]
  refine if_neg ?_
  simp only [Bool.and_eq_true, decide_eq_true_eq]
  rintro ⟨⟨⟨ha, hr⟩, hp⟩, hd⟩
  obtain h | h | h | h := h
  · exact Bool.false_ne_true (h.symm.trans ha)
  · exact Bool.false_ne_true (h.symm.trans hr)
  · exact hp h
  · exact Nat.not_le.2 h hd

end

theorem State.calDue_of_none (hx : (s.tile t).cv.cal.lastAt = none) : s.calDue t = s := by
  unfold State.calDue
  simp only [hx]

section
variable {v : Nat} {coef : List (Int × Int)} {bad : Bool}

/-- A step whose length has passed on a free converter is counted, and the last of 576 applies the coefficients (05 R207). -/
theorem State.calStepOn_counts {n due : Nat} {a : State} (hd : (s.tile t).stepDue v (s.tnow t) = true)
    (hj : (s.tile t).cv.job v = none) (hl : (s.tile t).stepAt v + calStepT v ≤ s.tnow t)
    (hn : (if v = 1 then (s.tile t).cv.cal.stepsF else (s.tile t).cv.cal.stepsP) + 1 = n)
    (hdue : (if (s.tile t).cv.cal.excl then s.tnow t else s.tnow t - calStepT v + 2 * ms) = due)
    (ha : (s.modCv t fun u =>
      if v = 1 then { u with freeF := s.tnow t, cal := { u.cal with stepsF := n, dueF := due } }
      else { u with freeP := s.tnow t, cal := { u.cal with stepsP := n, dueP := due } }) = a) :
    s.calStepOn t v coef bad = if n = 576 then (a.calApply t v coef bad).calFinish t else a := by
  subst hn hdue ha
  exact if_pos (by rw [hd, hj, decide_eq_true hl]; rfl)

theorem State.calStepOn_waits (h : (s.tile t).stepDue v (s.tnow t) = false ∨ ((s.tile t).cv.job v).isSome = true ∨
    s.tnow t < (s.tile t).stepAt v + calStepT v) : s.calStepOn t v coef bad = s := by
  refine if_neg ?_
  simp only [Bool.and_eq_true, decide_eq_true_eq, Option.isNone_iff_eq_none]
  rintro ⟨⟨hd, hj⟩, hl⟩
  obtain h | h | h := h
  · exact Bool.false_ne_true (h.symm.trans hd)
  · rw [hj] at h
    exact Bool.false_ne_true h
  · exact Nat.not_le.2 h hl

end

/-- No step is due while no calibration is under way. -/
theorem Tile.stepDue_of_idle {T : Tile} (v : Nat) (now : Tick) (h : T.cv.cal.busy = false) : T.stepDue v now = false := by
  simp only [Tile.stepDue, h, Bool.false_and]

/-! ## The reference -/

section
variable {dev : Int}

/-- The reference has settled within 500 ppm (05 R184). -/
theorem State.refSettled_rises (he : (s.tile t).cv.refEn = true) (hr : (s.tile t).cv.refReady = false)
    (hf : (s.tile t).cv.refFault = false) (hd : dev.natAbs ≤ 50) :
    s.refSettled t dev = ((s.modCv t fun u => { u with refDev := dev }).refRise t).refresh t :=
  if_pos (by rw [he, hr, hf, decide_eq_true hd]; rfl)

theorem State.refSettled_stays (h : (s.tile t).cv.refEn = false ∨ (s.tile t).cv.refReady = true ∨
    (s.tile t).cv.refFault = true ∨ 50 < dev.natAbs) : s.refSettled t dev = s := by
  refine if_neg ?_
  simp only [Bool.and_eq_true, Bool.not_eq_true', decide_eq_true_eq]
  rintro ⟨⟨⟨he, hr⟩, hf⟩, hd⟩
  obtain h | h | h | h := h
  · exact Bool.false_ne_true (h.symm.trans he)
  · exact Bool.false_ne_true (hr.symm.trans h)
  · exact Bool.false_ne_true (hf.symm.trans h)
  · exact Nat.not_le.2 h hd

theorem State.refCompareAt_disabled (he : (s.tile t).cv.refEn = false) : s.refCompareAt t dev = s :=
  if_pos (by rw [he]; rfl)

section
variable {n : Nat} {a : State} (he : (s.tile t).cv.refEn = true)
include he

/-- A sound reference: the comparisons beyond 1000 ppm in a row are counted, and the third is the fault (05 R186). -/
theorem State.refCompareAt_sound (hf : (s.tile t).cv.refFault = false)
    (hn : (if 100 < dev.natAbs then (s.tile t).cv.badCnt + 1 else 0) = n)
    (ha : (s.modCv t fun u => { u with refDev := dev, badCnt := n, goodCnt := 0 }) = a) :
    s.refCompareAt t dev = if 3 ≤ n then
      ((a.modCv t fun u => { u with refFault := true, refReady := false }).raise (35 + t) 6 0 (toField 16 dev) 0).refresh t
      else a := by
  subst hn ha
  unfold State.refCompareAt
  simp only [he, hf, Bool.not_true, Bool.not_false, Bool.false_eq_true, if_false, if_true]

/-- A faulty reference: the comparisons within 500 ppm in a row are counted, and the tenth makes it ready again (05 R186). -/
theorem State.refCompareAt_faulty (hf : (s.tile t).cv.refFault = true)
    (hn : (if dev.natAbs ≤ 50 then (s.tile t).cv.goodCnt + 1 else 0) = n)
    (ha : (s.modCv t fun u => { u with refDev := dev, goodCnt := n, badCnt := 0 }) = a) :
    s.refCompareAt t dev = if 10 ≤ n then
      (((a.modCv t fun u => { u with refFault := false }).endPresent (35 + t) 6).refRise t).refresh t else a := by
  subst hn ha
  unfold State.refCompareAt
  simp only [he, hf, Bool.not_true, Bool.false_eq_true, if_false]

end
end
end

/-- Settles O52: each happening acts inside a tile in service, by the lemma on its operation. -/
theorem calibrationAndReferenceFollowTheirComparisons : Obligations.CalibrationAndReferenceFollowTheirComparisons := by
  intro τ t s hs ho b u
  have ho' : ((s.atTile τ t).tile t).online = true := by rwa [State.atTile_tile]
  have inside {f : State → State} {v : State} (h : f b = v) := next_onTile hs ho' h
  refine ⟨fun x hx => ⟨fun ha hr hp hd => inside (State.calDue_starts hx ha hr hp hd), fun h => inside (State.calDue_waits hx h)⟩,
    fun hx => inside (State.calDue_of_none hx), fun v coef bad hd hj hl => ?_,
    fun v coef bad h => inside (State.calStepOn_waits h),
    fun v coef bad h => inside (State.calStepOn_waits (.inl (Tile.stepDue_of_idle v _ h))),
    fun dev => ⟨fun he hr hf hd => inside (State.refSettled_rises he hr hf hd), fun h => inside (State.refSettled_stays h)⟩,
    fun dev => ⟨fun he => inside (State.refCompareAt_disabled he), fun he hf => ?_, fun he hf => ?_⟩⟩
  · have hstep := State.calStepOn_counts (coef := coef) (bad := bad) hd hj hl rfl rfl rfl
    exact ⟨fun hn => inside (hstep.trans (if_neg hn.ne)), fun hn => inside (hstep.trans (if_pos hn))⟩
  · have hcmp := State.refCompareAt_sound (dev := dev) he hf rfl rfl
    exact ⟨fun hn => inside (hcmp.trans (if_neg (Nat.not_le.2 hn))), fun hn => inside (hcmp.trans (if_pos hn))⟩
  · have hcmp := State.refCompareAt_faulty (dev := dev) he hf rfl rfl
    exact ⟨fun hn => inside (hcmp.trans (if_neg (Nat.not_le.2 hn))), fun hn => inside (hcmp.trans (if_pos hn))⟩

end Sys2Proof.Machine
end

section
/-!
PROOFS. Filter pipelines: the commands on stream contexts and coefficient banks, and what a pipeline does with a result, a partial
block and a late delivery (06 R222 to R225, R240 to R249; 07 R294).
-/
namespace Sys2Proof.Machine

/-! ## Commands on a stream context -/

section
variable {h : Hdr} {op : Nat} {act : State → State × Option Reply} {s : State} (harg : h.arg < 512)
  (hl : s.lets h op [(2, h.arg)] false = true)
include harg hl

/-- A command on a context that its port owns, which gives no completion yet. -/
theorem next_onCtx_waits {u : State} (ha : act (s.begins h op) = (u, none)) :
    (.next (s.onRing h op (fun _ => ctxNeeds h.arg) act) : Host.Outcome State Fault Refusal) = .next u.finish :=
  next_onRing_waits (c := fun _ => ctxNeeds h.arg) hl (argBad_none harg) (fun _ ht => nomatch ht) rfl ha

/-- A command on a context that its port owns, which completes at once. -/
theorem next_onCtx_completes {u : State} {r : Reply} (ha : act (s.begins h op) = (u, some r)) :
    (.next (s.onRing h op (fun _ => ctxNeeds h.arg) act) : Host.Outcome State Fault Refusal) = .next (u.reply h op r).finish :=
  next_onRing_completes (c := fun _ => ctxNeeds h.arg) hl (argBad_none harg) (fun _ ht => nomatch ht) rfl ha

end

section
variable {h : Hdr} {s : State} {x : Ctx} (hx : s.ctx (h.arg / 32) (h.arg % 32) = x)
include hx

/-- A start that every check of R243 and the budgets of R247 to R249 let pass. -/
theorem State.streamStart_starts {ring : Nat} {q : Ring} {T : Tile} (hT : s.tile (h.arg / 32) = T)
    (hq : (s.port h.port).ring ring = q) (hring : ring < 64) (hact : q.active = true) (hty : q.ty = 3)
    (hblock : q.block = x.blockN) (hrun : x.run = false) (hadm : x.adm = 0)
    (hbad : T.ctxBad (s.pipe (h.arg / 32)) x = false) (harm : x.grid = true → (T.seq x.seqN).active = true)
    (hroom : s.streamFull (h.arg / 32) (h.arg % 32) h.port = none)
    {u : State} (hu : s.startCtx (h.arg / 32) (h.arg % 32) h.port ring = u) :
    s.streamStart h ring = (u, some (Reply.ok (payload [(16, 4, (u.ctx (h.arg / 32) (h.arg % 32)).delay),
      (20, 2, (u.ctx (h.arg / 32) (h.arg % 32)).delayHalf), (22, 2, (u.ctx (h.arg / 32) (h.arg % 32)).lset),
      (24, 4, u.budget h.port)]))) := by
  subst hx hT hq hu
  have hsound : ¬((s.ctx (h.arg / 32) (h.arg % 32)).run || (s.ctx (h.arg / 32) (h.arg % 32)).adm ≠ 0 ||
      (s.tile (h.arg / 32)).ctxBad (s.pipe (h.arg / 32)) (s.ctx (h.arg / 32) (h.arg % 32))) = true := by
    simp only [hrun, hadm, hbad, ne_eq, not_true_eq_false, decide_false, Bool.or_self, Bool.false_eq_true, not_false_eq_true]
  unfold State.streamStart
  dsimp only
  rw [if_neg (by simp [hact, hty, hblock, hring]), if_neg hsound, if_neg (by simpa using harm), hroom]

theorem State.streamStop_stops (hrun : x.run = true) :
    s.streamStop h = (s.stopCtx (h.arg / 32) (h.arg % 32) 0 (some h), none) :=
  if_pos (by rw [hx, hrun])

theorem State.streamStop_of_stopped (hrun : x.run = false) : s.streamStop h = (s, some (Reply.ok 0)) :=
  if_neg (by rw [hx, hrun]; exact Bool.false_ne_true)

/-- A source switch that R225 lets pass waits, in the place of one that waited before. -/
theorem State.streamSource_waits {n : Nat} {T : Tile} (hT : s.tile (h.arg / 32) = T) (hrun : x.run = true)
    (hend : x.ending = none) (hn : n < 32) (hmode : (T.chan n).mode.streams = true)
    (hw : (T.chan n).weight = (T.chan x.r.ch).weight) (hsg : (T.chan n).signed = (T.chan x.r.ch).signed)
    (hslot : x.grid = true → ((T.seq x.seqN).slotOf n).isSome = true) {b : State}
    (hb : (x.r.pendSrc.elim s fun y => s.reply y.2 0x52 { st := 6 }) = b) :
    s.streamSource h n = (b.modCtx (h.arg / 32) (h.arg % 32) fun x => { x with
      r := { x.r with pendSrc := some (n, h) } }, none) := by
  subst hx hT hb
  unfold State.streamSource
  dsimp only
  rw [if_neg (by simp [hrun, hend]), if_neg ?_]
  · cases (s.ctx (h.arg / 32) (h.arg % 32)).r.pendSrc <;> rfl
  · cases hg : (s.ctx (h.arg / 32) (h.arg % 32)).grid with
    | false => simp [hn, hmode, hw, hsg]
    | true => simp [hn, hmode, hw, hsg, Option.isSome_iff_ne_none.1 (hslot hg)]

/-! ## A cross-fade -/

section
variable {bank f : Nat} (hrun : x.run = true) (hend : x.ending = none) (hfade : x.r.fade = none) (hlo : 1 ≤ f)
  (hhi : f ≤ 1024) (hbank : bank < 4)
include hrun hend hfade hlo hhi hbank

/-- The bank in force is selected at once (06 R241). -/
theorem State.bankSelect_same (he : bank = x.bankNow) : s.bankSelect h bank f = (s, some (Reply.ok 0)) := by
  subst hx he
  unfold State.bankSelect
  dsimp only
  rw [if_neg (by simp [hrun, hend, hfade]), if_neg (by omega), if_neg (by simp [hbank]), if_pos rfl]

/-- Another bank that fits begins its fade (06 R241). -/
theorem State.bankSelect_fades {P : Pipe} (hP : s.pipe (h.arg / 32) = P) (hne : bank ≠ x.bankNow)
    (hvalid : (P.banks.getD bank {}).valid = true) (hfit : x.banksDiffer (P.inForce x) (P.banks.getD bank {}) = false)
    (hroom : P.committed + x.demand ≤ 4800) :
    s.bankSelect h bank f = (s.modCtx (h.arg / 32) (h.arg % 32) fun x => { x with
      r := { x.r with fade := some { dst := bank, f := f, i := 1, h := h } } }, none) := by
  subst hx hP
  unfold State.bankSelect
  dsimp only
  rw [if_neg (by simp [hrun, hend, hfade]), if_neg (by omega), if_neg (by simp only [hvalid, hfit]; simp [hbank]),
    if_neg hne, if_neg (Nat.not_lt.2 hroom)]

end
end

/-- Settles O28: every command needs a context and no tile, and acts by the lemma on its operation. -/
theorem streamCommandsStartStopAndSwitch : Obligations.StreamCommandsStartStopAndSwitch := by
  intro h s harg p c x T lets
  have ctxAt (op : Nat) : (s.begins h op).ctx p c = x := State.begins_ctx h op p c s
  have tileAt (op : Nat) : (s.begins h op).tile p = T := State.begins_tile h op p s
  refine ⟨?_, fun hl hrun => ?_, fun hl hrun => ?_, ?_⟩
  · intro ring hl b hring hact hty hblock hrun hadm hfit harm hroom u
    exact next_onCtx_completes harg hl
      (State.streamStart_starts (ctxAt 0x50) (tileAt 0x50) rfl hring hact hty hblock hrun hadm hfit harm hroom rfl)
  · exact next_onCtx_waits harg hl (State.streamStop_stops (ctxAt 0x51) hrun)
  · exact next_onCtx_completes harg hl (State.streamStop_of_stopped (ctxAt 0x51) hrun)
  · intro n hl hrun hend hn hmode hw hsg hslot b
    refine next_onCtx_waits harg hl
      (State.streamSource_waits (ctxAt 0x52) (tileAt 0x52) hrun hend hn hmode hw hsg hslot ?_)
    unfold b
    cases x.r.pendSrc <;> rfl

/-! ## Coefficient banks -/

/-- Bank `k` of pipeline `p` replaced. -/
def State.modBank (p k : Nat) (f : CBank → CBank) (s : State) : State :=
  { s with pipes := updAt (fun P => { P with banks := updAt f k P.banks }) p s.pipes }

section
variable {arg : Nat} {image : List Int} {s : State} (hfree : (s.pipe (arg / 4)).bankUsed (arg % 4) = false)
include hfree

/-- A sound image for a bank that no running context uses (06 R240). -/
theorem State.bankLoad_stores (hok : ({ words := image } : CBank).ok = true) :
    s.bankLoad arg image = (s.modBank (arg / 4) (arg % 4) fun _ => { words := image, valid := true }, some (Reply.ok 0)) :=
  (if_neg (by rw [hfree]; exact Bool.false_ne_true)).trans (if_pos hok)

/-- An unsound image leaves the bank invalid (06 R240). -/
theorem State.bankLoad_unsound (hok : ({ words := image } : CBank).ok ≠ true) :
    s.bankLoad arg image = (s.modBank (arg / 4) (arg % 4) fun b => { b with valid := false }, some { st := 1 }) :=
  (if_neg (by rw [hfree]; exact Bool.false_ne_true)).trans (if_neg hok)

end

/-- Settles O29: BANK_LOAD by whether its image is sound, BANK_SELECT by whether its bank is the one in force. -/
theorem bankCommandsLoadAndFade : Obligations.BankCommandsLoadAndFade := by
  intro h s
  constructor
  · intro image hl harg b hfree put
    have completes {u : State} {r : Reply} (ha : b.bankLoad h.arg image = (u, some r)) :
        exec (.bankLoad h image) s = .next (u.reply h 0x53 r).finish :=
      next_onRing_completes (c := fun _ => { bad := argBad h.arg 64, own := [(3, h.arg)], locked := true }) hl
        (argBad_none harg) (fun _ ht => nomatch ht) rfl ha
    by_cases hok : ({ words := image } : CBank).ok = true
    · rw [if_pos hok]
      exact completes (State.bankLoad_stores hfree hok)
    · rw [if_neg hok]
      exact completes (State.bankLoad_unsound hfree hok)
  · intro bank f hl harg b p c x P hrun hend hfade hlo hhi hbank
    exact ⟨fun he => next_onCtx_completes harg hl (State.bankSelect_same rfl hrun hend hfade hlo hhi hbank he),
      fun hne hvalid hfit hroom => next_onCtx_waits harg hl
        (State.bankSelect_fades rfl hrun hend hfade hlo hhi hbank rfl hne hvalid hfit hroom)⟩

/-! ## A result at its pipeline -/

section
variable {p : Nat} {s : State}

theorem State.pipeTakes_of_none (h : popRes (s.tile p).link.sendQ = none) : s.pipeTakes p = s := by
  unfold State.pipeTakes
  rw [h]

section
variable {i : PipeIn} {rest : List LinkItem} (hi : popRes (s.tile p).link.sendQ = some (i, rest))
include hi

theorem State.pipeTakes_of_unheard (h : (s.tile p).heard = false) : s.pipeTakes p = s := by
  unfold State.pipeTakes
  rw [hi]
  exact if_pos (by rw [h]; rfl)

/-- A result or gap notice of a tile that is heard goes to every context (06 R218, R222). -/
theorem State.pipeTakes_of_heard (h : (s.tile p).heard = true) : s.pipeTakes p =
    forAll (fun c u => u.ctxInput p c i) (List.range 32) ((s.rouse (19 + p)).modLink p (Link.took rest)) := by
  unfold State.pipeTakes
  rw [hi]
  exact if_neg (by rw [h]; exact Bool.false_ne_true)

end

/-! ## A context -/

section
variable {c : Nat} {x : Ctx} (hx : s.ctx p c = x)
include hx

/-- A context ignores what reaches it while it does not run or ends, and what was accessioned before it started (06 R244). -/
theorem State.ctxInput_ignored {i : PipeIn} (h : x.run = false ∨ x.ending.isSome = true ∨ i.acc ≤ x.r.startAt) :
    s.ctxInput p c i = s := by
  subst hx
  refine if_pos ?_
  simpa only [Bool.or_eq_true, Bool.not_eq_true', decide_eq_true_eq, or_assoc] using h

/-- The block time of a partial block has passed (06 R244). -/
theorem State.blockOver_closes (hrun : x.run = true) (hpart : x.r.part ≠ []) (ht : x.blockT ≠ 0)
    (hd : x.r.partAt + x.blockT ≤ s.now) : s.blockOver p c = s.closeBlock p c false := by
  subst hx
  refine if_pos ?_
  simp only [Bool.and_eq_true, Bool.not_eq_true', List.isEmpty_eq_false_iff, decide_eq_true_eq]
  exact ⟨⟨⟨hrun, hpart⟩, ht⟩, hd⟩

theorem State.blockOver_waits (h : x.run = false ∨ x.r.part = [] ∨ x.blockT = 0 ∨ s.now < x.r.partAt + x.blockT) :
    s.blockOver p c = s := by
  subst hx
  refine if_neg ?_
  simp only [Bool.and_eq_true, Bool.not_eq_true', List.isEmpty_eq_false_iff, decide_eq_true_eq]
  rintro ⟨⟨⟨hrun, hpart⟩, ht⟩, hd⟩
  obtain h | h | h | h := h
  · exact Bool.false_ne_true (h.symm.trans hrun)
  · exact hpart h
  · exact ht h
  · exact Nat.not_le.2 h hd

/-! ## A waiting block -/

theorem State.deliveryPast_of_none (hw : x.r.wait = none) : s.deliveryPast p c = s := by
  subst hx
  unfold State.deliveryPast
  rw [hw]

section
variable {w : Block} (hw : x.r.wait = some w)
include hw

/-- A block that is late for the first time is marked, with the fault of its pipeline (07 R294; log 29). -/
theorem State.deliveryPast_marks (h0 : w.deadline ≠ 0) (hd : w.deadline < s.now) (hm : w.dl = false) :
    s.deliveryPast p c =
      (s.modCtx p c fun x => { x with r := { x.r with wait := some { w with dl := true } } }).raise (19 + p) 0 c 0
        (sat 0xFFFFFFFF (s.now - w.deadline)) := by
  subst hx
  unfold State.deliveryPast
  rw [hw]
  exact if_pos (by rw [decide_eq_true h0, decide_eq_true hd, hm]; rfl)

theorem State.deliveryPast_waits (h : w.deadline = 0 ∨ s.now ≤ w.deadline ∨ w.dl = true) : s.deliveryPast p c = s := by
  subst hx
  unfold State.deliveryPast
  rw [hw]
  refine if_neg ?_
  simp only [Bool.and_eq_true, Bool.not_eq_true', decide_eq_true_eq]
  rintro ⟨⟨h0, hd⟩, hm⟩
  obtain h | h | h := h
  · exact h0 h
  · exact Nat.not_lt.2 h hd
  · exact Bool.false_ne_true (hm.symm.trans h)

end
end
end

/-- Settles O54: each happening acts at its tick, by the lemma on its operation. -/
theorem pipelinesTakeCloseAndDeliver : Obligations.PipelinesTakeCloseAndDeliver := by
  intro τ p c s hs b x
  refine ⟨fun h => next_onTick hs (State.pipeTakes_of_none h),
    fun i rest hi => ⟨fun h => next_onTick hs (State.pipeTakes_of_unheard hi h),
      fun h => next_onTick hs (State.pipeTakes_of_heard hi h)⟩,
    fun i h => State.ctxInput_ignored rfl h,
    fun hrun hpart ht hd => next_onTick hs (State.blockOver_closes rfl hrun hpart ht hd),
    fun h => next_onTick hs (State.blockOver_waits rfl h),
    fun hw => next_onTick hs (State.deliveryPast_of_none rfl hw),
    fun w hw => ⟨fun h0 hd hm => next_onTick hs (State.deliveryPast_marks rfl hw h0 hd hm),
      fun h => next_onTick hs (State.deliveryPast_waits rfl hw h)⟩⟩

end Sys2Proof.Machine
end

section
/-!
PROOFS. The queue under every command (15 R453), and what a host port does with its rings: a completion in its slot (07 R258,
R261, R265, R293), a ring command judged in the order of the checks (07 R264 to R268), and the intake of producer counts and
descriptors (07 R260 to R265, R289).
-/
namespace Sys2Proof.Machine

/-! ## The queue -/

/-- Settles O1: the front of the queue is what `step` takes. -/
theorem stepRunsFrontCommand : Obligations.StepRunsFrontCommand := fun _ _ _ => rfl

/-- Beyond the ratings there is no behaviour: only the four happenings that bring a voltage or current can be (15 R453). -/
theorem exec_of_beyondRatings {i : Instr} (s : State) (hi : i.withinRatings = false) : exec i s = .fault .beyondRatings := by
  unfold Instr.withinRatings at hi
  split at hi
  case h_5 => cases hi -- no other command brings a rated value
  all_goals exact if_pos (by simpa using hi)

/-- Every command within the ratings answers a state with the queue it was given. The cases are grouped by where a command
acts; each place keeps the queue where the command's own operation does. -/
theorem exec_of_withinRatings {i : Instr} (s : State) (hi : i.withinRatings = true) :
    ∃ v, exec i s = .next v ∧ v.pending = s.pending := by
  cases i
  -- ring commands
  case nop | timeRead | chMode | outSet | mirForceOff | mirForceOn | mirRelease | outCancel | chTrimSet | chTrimZero
      | chTrimSpan | chTrimReset | rfxWrite | rfxEnable | rfxStatus | seqArm | seqDisarm | seqTrigger | inject
      | calibrate | calibrateExcl | streamStart | streamStop | streamSource | bankLoad | bankSelect | spFrame
      | spAbort | faultAck | logRead | tileOffline | tileReadmit | rotate | imageWrite | imageVerify | imageActivateLive
      | imageActivateRestart | imageConfirm | imageRevert | imageRecover | settingsSave | imageErase | catRead | catWrite
      | lock | unlock | claim | release | handover | takeover | ownerQuery | txnSubmit | txnCancel =>
    exact ⟨_, rfl, State.onRing_pend _ _ _ _ _ fun u => by simp⟩
  -- register writes
  case ringEnable | ringDisable | portEnable | channelRegWrite | seqCfgArm | seqCfgDisarm | refEnable | refDisable
      | injCfgWrite | doTestWrite | rfxRegWrite | rfxLatClear | trimRegWrite | orderHorizonWrite | vitCapture
      | registerWrite =>
    exact ⟨_, rfl, State.onWrite_pend _ _ _ _ _ _ _⟩
  -- happenings that bring a voltage or current, within its ratings
  case pinClamp | surge =>
    exact ⟨_, if_neg (by simpa [Instr.withinRatings] using hi), State.onPower_pend _ _ _ _ fun u => by simp⟩
  case lplusSample =>
    exact ⟨_, if_neg (by simpa [Instr.withinRatings] using hi), State.onTile_pend _ _ _ _ fun u => by simp⟩
  case supplyThreshold =>
    exact ⟨_, if_neg (by simpa [Instr.withinRatings] using hi), State.onTick_pend _ _ _ fun u => by simp⟩
  -- happenings inside a tile
  case refReady | sieveAccession | chatterWindowEnd | stuckTimeout | dicGateEnd | trimButtonHold | trimButtonStuck
      | offStateCheck | aoReadback | crailSample | seqTimerTrigger | heldTriggerRelease | slotStart | conversionEnd
      | rangingReattempt | dmdResult | scanDeadline | speculativeScanStart | specConfirmTimeout | injectStart
      | injectDeadline | calPeriodStart | calStep | refCompare =>
    exact ⟨_, rfl, State.onTile_pend _ _ _ _ fun u => by simp⟩
  -- happenings at the pins of a tile
  case inputCrossing | txnCommit | outputCommit | shortGndDetect | overloadRetry | thermalShutdown | thermalReenable
      | overDecl | openOn | darkPulse | surgeEnd | reenergiseSlot | aiiFoldback | aiiRetry | excitationCycleCheck
      | mirrorPeriodStart | tileTempSample =>
    exact ⟨_, rfl, State.onPower_pend _ _ _ _ fun u => by simp⟩
  -- rotations and repairs
  case rotationLoadEnd | rotationPrecopyEnd | rotationGapStart | rotationHandover | rotationGapTimeout
      | repairHandover | readmissionComplete =>
    exact ⟨_, rfl, State.onEngine_pend _ _ _ fun u => by simp⟩
  -- happenings of the supervisor
  case depotImageLoadEnd | trimSaveTimer | sessionTimeout | activationSvSwitch | trialExpiry =>
    exact ⟨_, rfl, State.onSv_pend _ _ _ fun u => by simp⟩
  -- supplies, resets, start-up, Fallow and the pins that act while the device does not run
  case powerOn | fallowEntry | wakeCrossing | brownOut | porstFall | vkaLoss | startup => exact ⟨_, rfl, by simp⟩
  case fsafeFall | fsafeRise =>
    exact ⟨_, rfl, (State.onTick_pend _ _ _ fun u => by simp).trans (State.fsafePin_pend _ _)⟩
  -- every other happening acts at its tick
  all_goals exact ⟨_, rfl, State.onTick_pend _ _ _ fun u => by simp⟩

/-- Settles O3: by whether the command's value is within its ratings. -/
theorem commandsLeaveQueue : Obligations.CommandsLeaveQueue := fun _ s =>
  ⟨exec_of_withinRatings s, exec_of_beyondRatings s⟩

/-! ## A port's update -/

/-- What a port becomes depends on the port alone. -/
theorem State.modPort_congr {p : PortId} {f g : Port → Port} {s : State} (h : f (s.port p) = g (s.port p)) :
    s.modPort p f = s.modPort p g := by
  cases p with
  | ha => exact congrArg (fun P => ({ s with ha := P } : State)) h
  | hb => exact congrArg (fun P => ({ s with hb := P } : State)) h

theorem State.modPort_same {p : PortId} {f : Port → Port} {s : State} (h : f (s.port p) = s.port p) : s.modPort p f = s :=
  (State.modPort_congr (g := id) h).trans (State.modPort_id p s)

/-! ## Completions (07 R258, R261, R265, R293) -/

section
variable {runs : Bool} {cq : Nat} {c : Completion} {P : Port}

/-- A ring that does not run takes no completion. -/
theorem Port.complete_of_off (h : runs = false ∨ (P.ring cq).active = false ∨ (P.ring cq).ty ≠ 1) : P.complete runs cq c = P := by
  refine if_neg ?_
  simp only [Bool.and_eq_true, decide_eq_true_eq]
  rintro ⟨⟨hr, ha⟩, ht⟩
  obtain h | h | h := h
  · exact Bool.false_ne_true (h.symm.trans hr)
  · exact Bool.false_ne_true (h.symm.trans ha)
  · exact h ht

section
variable (hr : runs = true) (ha : (P.ring cq).active = true) (ht : (P.ring cq).ty = 1)
include hr ha ht

theorem Port.complete_of_free (hf : (P.ring cq).free 1 = true) :
    P.complete runs cq c = P.wrote cq 1 [.completion (P.slot cq) c] := by
  simp [Port.complete, hr, ha, ht, hf]

theorem Port.complete_of_full (hf : (P.ring cq).free 1 = false) :
    P.complete runs cq c = { P with owed := P.owed ++ [(cq, c)] } := by
  simp [Port.complete, hr, ha, ht, hf]

end
end

/-- The completion entry of a command (07 Table 7-8). -/
def State.completion (h : Hdr) (op : Nat) (r : Reply) (s : State) : Completion :=
  { ts := s.now, tag := h.tag, opcode := op, status := r.st, reason := r.rs, index := r.ix, payload := r.pl, ring := h.ring,
    cnt := h.cnt }

/-- A command out of execution, its reservation ended (07 R265). -/
def State.unreserved (h : Hdr) (s : State) : State :=
  ({ s with running := s.running.filter fun x => !isCmd h x.port x.ring x.cnt } : State).modPort h.port fun P =>
    P.modRing (s.inFlight h).cq fun q => { q with reserved := q.reserved - b2n (s.inFlight h).held }

@[simp] theorem State.unreserved_portRuns (h : Hdr) (p : PortId) (s : State) : (s.unreserved h).portRuns p = s.portRuns p := by
  unfold State.unreserved
  cases h.port <;> cases p <;> rfl

section
variable {h : Hdr} {op : Nat} {r : Reply} {s : State}

theorem State.reply_of_silent (hs : h.silent = true ∧ r.st = 0) : s.reply h op r = s.unreserved h := if_pos hs

theorem State.reply_of_signalled (hs : ¬(h.silent = true ∧ r.st = 0)) : s.reply h op r =
    (s.unreserved h).modPort h.port fun P => P.complete (s.portRuns h.port) (s.inFlight h).cq (s.completion h op r) := by
  rw [← State.unreserved_portRuns h h.port s]
  exact if_neg hs

end

/-- Settles O13: a completion is what `Port.complete` makes of the port whose reservation has ended. -/
theorem completionIsWrittenToItsRing : Obligations.CompletionIsWrittenToItsRing := by
  intro h op r s x c v q
  refine ⟨State.reply_of_silent, fun hs => ⟨fun hoff => ?_, fun hr ha ht => ⟨fun hf => ?_, fun hf => ?_⟩⟩⟩
  all_goals refine (State.reply_of_signalled hs).trans ?_
  · exact State.modPort_same (Port.complete_of_off hoff)
  · exact State.modPort_congr (Port.complete_of_free hr ha ht hf)
  · exact State.modPort_congr (Port.complete_of_full hr ha ht hf)

/-! ## How a ring command is judged (07 R264 to R268; 12 R419; 14 R447) -/

/-- A command begun, with the ownership request that it is among those of its tick (07 R286). -/
def State.asked (h : Hdr) (c : Cmd) (s : State) : State :=
  match c.ask with
  | some x => { s.begun h with own := { (s.begun h).own.atTick (s.begun h).now with
      reqs := ((s.begun h).own.atTick (s.begun h).now).reqs ++ [x] } }
  | none => s.begun h

section
variable {h : Hdr} {op : Nat} {c : Cmd} {act : State → State × Option Reply} {r : Reply} {s : State}

theorem State.refuses_of_bad (hb : c.bad = some r) : s.refuses h c = some r := by
  unfold State.refuses
  rw [hb]

section
variable (hb : c.bad = none)
include hb

theorem State.refuses_of_not_owner {x : Nat × Nat}
    (hx : (c.own.find? fun x => decide (s.owner x.1 x.2 ≠ some h.port)) = some x) :
    s.refuses h c = some { st := 2, rs := 4, ix := x.2 } := by
  unfold State.refuses
  rw [hb]
  dsimp only
  rw [hx]

/-- The checks after ownership, in their order: phase, deadline, lock, the service of the tile. -/
theorem State.refuses_of_owner (ho : ∀ x ∈ c.own, s.owner x.1 x.2 = some h.port) :
    s.refuses h c = if s.phaseLets c = false then some { st := 4 } else if s.past h = true then some { st := 5 }
      else if (c.locked && s.locked) = true then some { st := 10 }
      else c.tile.bind fun t =>
        if (s.engineless t || !c.needs.contains (s.tile t).link.life) = true then some { st := 4 } else none := by
  have hf : (c.own.find? fun x => decide (s.owner x.1 x.2 ≠ some h.port)) = none :=
    List.find?_eq_none.2 fun x hx => by simp [ho x hx]
  unfold State.refuses
  rw [hb]
  dsimp only
  rw [hf]
  cases c.tile <;> simp only [Bool.not_eq_true', Option.bind_none, Option.bind_some]

end

/-- Its fetch gives no tile an engine. -/
@[simp] theorem State.taken_noEngine (k : Hdr) : (s.taken k op).noEngine c = s.noEngine c := by
  simp only [State.noEngine, State.holdsBack, State.tile, State.taken_tiles, State.taken_rot, State.taken_now]

theorem State.begin_of_refused (hr : s.refuses h c = some r) (h5 : r.st ≠ 5) :
    s.begin_ h op c act = (s.asked h c).reply h op r := by
  unfold State.begin_
  rw [hr]
  dsimp only
  rw [if_neg h5]
  rfl

/-- A deadline that has passed is also a fault (02 Table 2-9). -/
theorem State.begin_of_missed (hr : s.refuses h c = some { st := 5 }) : s.begin_ h op c act =
    ((s.asked h c).raiseCmd h ((s.asked h c).engOf op h.arg)).reply h op { st := 5 } := by
  unfold State.begin_
  rw [hr]
  rfl

theorem State.begin_of_noEngine (hr : s.refuses h c = none) (hn : s.noEngine c = true) : s.begin_ h op c act =
    { s with fetched := s.fetched.map fun f =>
      if isCmd h f.port f.ring f.cnt then { f with waiting := true, cmd := c.cmd, tile := c.tile } else f } := by
  unfold State.begin_
  rw [hr]
  exact if_pos hn

theorem State.runCmd_of_grave (hg : s.dev.grave = true) : s.runCmd h op c act = s := if_pos hg

section
variable (hg : s.dev.grave = false)
include hg

theorem State.runCmd_of_not_turn (hu : (s.taken h op).turn h op = false) : s.runCmd h op c act = s.taken h op := by
  simp [State.runCmd, hg, hu]

theorem State.runCmd_of_turn (hu : (s.taken h op).turn h op = true) :
    s.runCmd h op c act = (s.taken h op).begin_ h op c act := by
  simp [State.runCmd, hg, hu]

end
end

/-- Settles O14: at its turn a command begins, and `State.refuses` says which check refuses it first. -/
theorem refusedCommandsCompleteInCheckOrder : Obligations.RefusedCommandsCompleteInCheckOrder := by
  intro h op c act s a asked
  refine ⟨State.runCmd_of_grave, State.runCmd_of_not_turn, fun hg hu => ?_⟩
  have refused {r : Reply} (h5 : r.st ≠ 5) (hr : s.refuses h c = some r) : s.runCmd h op c act = asked.reply h op r :=
    (State.runCmd_of_turn hg hu).trans (State.begin_of_refused ((State.taken_refuses ..).trans hr) h5)
  refine ⟨fun r hb h5 => refused h5 (State.refuses_of_bad hb), fun hb =>
    ⟨fun x hx => refused (show 2 ≠ 5 by decide) (State.refuses_of_not_owner hb hx), fun ho => ?_⟩⟩
  have hr := State.refuses_of_owner hb ho
  refine ⟨fun hp => refused (by decide) ?_, fun hp hd => ?_, fun hp hd hc hk => refused (by decide) ?_,
    fun hp hd hk t ht => ⟨fun hs => refused (by decide) ?_, fun hs hw => ?_⟩⟩
  · simp only [hr, hp, if_true]
  · rw [State.runCmd_of_turn hg hu, State.begin_of_missed]
    · rfl
    · simp only [State.taken_refuses, hr, hp, hd, reduceCtorEq, if_true, if_false]
  · simp only [hr, hp, hd, hc, hk, Bool.and_self, Bool.false_eq_true, reduceCtorEq, if_true, if_false]
  · simp only [hr, hp, hd, hk, ht, hs, Option.bind_some, Bool.false_eq_true, reduceCtorEq, if_true, if_false]
  · rw [State.runCmd_of_turn hg hu, State.begin_of_noEngine]
    · simp only [State.taken_refuses, hr, hp, hd, hk, ht, hs, Option.bind_some, Bool.false_eq_true, reduceCtorEq, if_false]
    · have hn : s.noEngine c = true := by
        unfold State.noEngine
        rw [ht]
        obtain hw | hw := hw <;> simp [hw]
      rw [State.taken_noEngine, hn]

/-! ## Intake (07 R260 to R265, R289) -/

/-- The port after a poll at count `now`: the next is due one interval later (07 R261). -/
def Port.polled (now : Tick) (P : Port) : Port :=
  { P with pollAgain := false, pollAt := if P.pollAt ≤ now then now + P.dbPoll * us / 10 else P.pollAt }

section
variable {p : PortId} {prods : List Nat} {s : State} (hr : s.portRuns p = true) (he : (s.port p).dbErr = false)
  (hd : (s.port p).pollAgain = true ∨ (s.port p).pollAt ≤ s.now)
include hr he hd

theorem State.poll_not_barred : ¬(!s.portRuns p || (s.port p).dbErr || !(s.port p).pollDue s.now) = true := by
  obtain hd | hd := hd <;> simp [Port.pollDue, hr, he, hd]

/-- A due poll takes the words up to the highest enabled ring, and then both ports write what found room. -/
theorem State.poll_of_read : s.poll p prods false =
    ((forAll (fun (x : Nat × Nat) u => u.takeProd p x.2 x.1) (prods.take (s.port p).pollWords).zipIdx
      (s.modPort p (Port.polled s.now))).pump.pumpStreams) := by
  unfold State.poll
  dsimp only
  rw [if_neg (State.poll_not_barred hr he hd)]
  rfl

/-- A poll whose read fails stops polling (07 R261). -/
theorem State.poll_of_failed : s.poll p prods true =
    (((s.modPort p (Port.polled s.now)).modPort p fun P => { P with dbErr := true }).raise (portBlk p) 2 0 0 0) := by
  unfold State.poll
  dsimp only
  rw [if_neg (State.poll_not_barred hr he hd), if_pos rfl]
  rfl

end

theorem State.bar2Write_of_nudge {p : PortId} {offset : Nat} {w : Word} {s : State} (h : offset < 0x1000) :
    s.bar2Write p offset w = s.modPort p fun P => { P with pollAgain := P.pollAgain || (P.enable && !P.dbErr) } := if_pos h

/-- Ring `r` of a port granted: its descriptor is counted as consumed, and a slot of completion ring `cq` is reserved (07 R265,
R289). -/
def Port.grants (r cq : Nat) (P : Port) : Port :=
  { ((P.modRing r fun q => { q with cons := q.cons + 1 }).modRing cq fun c => { c with reserved := c.reserved + 1 }) with
    rr := r }

/-- The command that a grant of ring `r` fetches with descriptor `d`. -/
def State.fetchOf (p : PortId) (r : Nat) (d : Desc) (s : State) : Fetched :=
  { port := p, ring := r, cnt := ((s.port p).ring r).cons, desc := d, tile := opTile d.opcode d.arg,
    cq := ((s.port p).ring r).cq, at_ := s.now }

/-- The state after a grant, with the command fetched and the ring's count in its CONS word (07 R261, R265). -/
def State.granted (p : PortId) (r : Nat) (d : Desc) (s : State) : State :=
  let cq := ((s.port p).ring r).cq
  let a := s.modPort p fun P => { P.grants r cq with out := P.out ++ [(P.grants r cq).consWrite r] }
  ({ a with fetched := a.fetched ++ [s.fetchOf p r d], lastGrant := some p } : State).rouse (portBlk p)

section
variable {p : PortId} {r : Nat} {d : Desc} {s : State} (hr : s.portRuns p = true) (ht : (s.port p).turn = some r)
  (hl : s.portRuns p.peer = false ∨ (s.port p.peer).turn = none ∨ s.lastGrant ≠ some p)
include hr ht hl

/-- A grant is made of the ring whose turn it is, unless the other intake is to be served first (07 R289). -/
theorem State.grant_not_barred : ¬(!s.portRuns p || (s.port p).turn ≠ some r ||
    (s.portRuns p.peer && (s.port p.peer).turn.isSome && s.lastGrant = some p)) = true := by
  obtain hl | hl | hl := hl <;> simp [hr, ht, hl]

theorem State.fetch_of_sound (hb : descBad d = none) (hw : descWrong d = none) : s.fetch p r d = s.granted p r d := by
  refine (if_neg (State.grant_not_barred hr ht hl)).trans ?_
  rw [hb, hw]
  rfl

/-- A descriptor with a byte that is not as the tables have it completes at once (07 R264). -/
theorem State.fetch_of_bad {i : Nat} (hb : descBad d = some i) : s.fetch p r d =
    ((s.granted p r d).begun ((s.fetchOf p r d).hdr (s.granted p r d).now)).reply
      ((s.fetchOf p r d).hdr (s.granted p r d).now) d.opcode (badField i) := by
  refine (if_neg (State.grant_not_barred hr ht hl)).trans ?_
  rw [hb]
  rfl

end

/-- Settles O37: poll, nudge and grant act at their tick, by the lemmas on their operations. -/
theorem intakeTakesProducersAndDescriptors : Obligations.IntakeTakesProducersAndDescriptors := by
  intro τ p s hs b
  refine ⟨fun prods hr he hd => ⟨?_, ?_⟩, fun offset val ho => ?_, fun r d hr ht hl => ⟨fun hb hw => ?_, fun i hb => ?_⟩⟩
  · exact next_onTick hs (State.poll_of_read hr he hd)
  · exact next_onTick hs (State.poll_of_failed hr he hd)
  · exact next_onTick hs (State.bar2Write_of_nudge ho)
  · exact next_onTick hs (State.fetch_of_sound hr ht hl hb hw)
  · exact next_onTick hs (State.fetch_of_bad hr ht hl hb)

end Sys2Proof.Machine
end

section
/-!
PROOFS. The end of a quiet step, and the ring commands on reflex rules and on a tile's service (08 R299, R306, R308, R309, R312,
R320, R321).
-/
namespace Sys2Proof.Machine

/-- Settles O5: nothing follows a quiet state. -/
theorem endOfStepAddsNothingWhenQuiet : Obligations.EndOfStepAddsNothingWhenQuiet := fun _ => State.finish_of_quiet

/-! ## Reflex rules -/

section
variable {t i : Nat} {r : Rule} {s : State}

/-- Of all settings, replacing the registers of a rule replaces its own alone. -/
theorem State.modRule_settings {f : Rule → Rule} {k : Word × Word × Word × Word} (h : ∀ x, (f x).setting = k) :
    (s.modTile t fun T => { T with rules := updAt f i T.rules }).settings =
      (updAt (fun T => (T.1, updAt (fun _ => k) i T.2.1, T.2.2)) t s.settings.1, s.settings.2) := by
  have ht (T : Tile) : ({ T with rules := updAt f i T.rules } : Tile).settings =
      (T.settings.1, updAt (fun _ => k) i T.settings.2.1, T.settings.2.2) := by
    unfold Tile.settings
    rw [map_updAt_of_comm (g := fun _ => k) h]
  unfold State.modTile State.settings
  rw [map_updAt_of_comm (g := fun T => (T.1, updAt (fun _ => k) i T.2.1, T.2.2)) ht]

/-- A rule put in place sets its four registers, and no other setting: a line that is freed and the judgement that follows are
no settings (08 R299). -/
theorem State.putRule_settings {f : Rule → Rule} (h : ∀ x, (f x).setting = r.setting) :
    (s.putRule t i r).settings = (s.modTile t fun T => { T with rules := updAt f i T.rules }).settings := by
  unfold State.putRule
  dsimp only
  rw [State.refresh_set, State.modRule_settings h]
  refine (State.modRule_settings (k := r.setting) ?_).trans ?_
  · exact fun _ => rfl
  · split
    · rw [State.freeLine_set]
    · rfl

variable {arg : Nat}

/-- A sound rule that drives no line of another rule is written (08 R299, R306). -/
theorem State.rfxWrite_puts (hb : ruleBad r = none) (hl : s.lineClash (arg / 64) (arg % 64) r = false) :
    s.rfxWrite arg r = (s.putRule (arg / 64) (arg % 64) r, some (Reply.ok 0)) := by
  unfold State.rfxWrite
  rw [hb]
  exact if_neg (by rw [hl]; exact Bool.false_ne_true)

/-- ENABLE is written where the rule then drives no line of another rule (08 R306, R308). -/
theorem State.rfxEnable_puts {en : Bool} {old : Rule} (ho : (s.tile (arg / 64)).rules.getD (arg % 64) {} = old)
    (hr : { old with cond := if en then old.cond ||| 0x80000000#32 else old.cond &&& 0x7FFFFFFF#32 } = r)
    (hl : s.lineClash (arg / 64) (arg % 64) r = false) :
    s.rfxEnable arg en =
      (let u := s.putRule (arg / 64) (arg % 64) r
       let x := (u.tile (arg / 64)).rules.getD (arg % 64) {}
       (u, some (Reply.ok (payload [(16, 1, b2n x.armed + 2 * x.why)])))) := by
  subst ho hr
  exact if_neg (by rw [hl]; exact Bool.false_ne_true)

end

/-- Settles O25: both commands put their rule in place, by `State.putRule_settings` with no other setting. -/
theorem ruleCommandsWriteExactlyTheirRule : Obligations.RuleCommandsWriteExactlyTheirRule := by
  intro h s harg hserves t i only
  have ht (k : Nat) (e : some (h.arg / 64) = some k) : s.serves h.at_ k = true := Option.some.inj e ▸ hserves
  refine ⟨fun cond qual thr act hl hops hb hclash => ⟨?_, State.putRule_settings fun _ => rfl⟩,
    fun en hl hclash => ⟨?_, State.putRule_settings fun _ => rfl⟩⟩
  · have hbad : (argBad h.arg 1024).or ((opsBad 0x18 (payload [(16, 4, cond.toNat), (20, 4, qual.toNat), (24, 4, thr.toNat),
        (28, 4, act.toNat)])).map badField) = none := by rw [argBad_none harg, hops]; rfl
    exact next_onRing_completes hl hbad ht rfl (State.rfxWrite_puts hb hclash)
  · exact next_onRing_completes hl (argBad_none harg) ht rfl (State.rfxEnable_puts rfl rfl hclash)

/-! ## Service -/

section
variable {h : Hdr} {op t : Nat} {s : State}

/-- A command that is meant for an offline tile, and that `lets` admits, is not refused (08 R321). -/
theorem State.refuses_none_of_offline {c : Cmd} (hl : s.lets h op c.own c.locked = true) (hb : c.bad = none)
    (ht : c.tile = some t) (hn : c.needs = [.offline]) (he : s.engineless t = false) (ho : (s.tile t).link.life = .offline) :
    (s.advance h.at_).refuses h c = none := by
  simp only [State.lets, State.inService, Bool.and_eq_true, Bool.not_eq_true', List.all_eq_true, decide_eq_true_eq] at hl
  obtain ⟨⟨⟨⟨⟨_, hc⟩, _⟩, hown⟩, hpast⟩, hlock⟩ := hl
  have hp : (s.advance h.at_).phaseLets c = true := by simp [State.phaseLets, hc]
  have he' : (s.advance h.at_).engineless t = false := by
    simpa only [State.engineless, State.tile, State.advance_tiles, State.advance_rot] using he
  have ho' : ((s.advance h.at_).tile t).link.life = .offline := by simpa only [State.tile, State.advance_tiles] using ho
  rw [State.refuses_of_owner hb hown, ht, hn]
  simp [hp, hpast, hlock, he', ho']

/-- A ring command to an offline tile with an engine, which gives no completion yet. -/
theorem next_onRing_offline_waits {c : State → Cmd} {act : State → State × Option Reply} {u : State}
    (hl : s.lets h op (c (s.advance h.at_)).own (c (s.advance h.at_)).locked = true) (hb : (c (s.advance h.at_)).bad = none)
    (ht : (c (s.advance h.at_)).tile = some t) (hn : (c (s.advance h.at_)).needs = [.offline]) (he : s.engineless t = false)
    (hbound : (s.tile t).bound = true) (hhold : (s.advance h.at_).holdsBack t = false)
    (ho : (s.tile t).link.life = .offline) (ha : act (s.begins h op) = (u, none)) :
    (.next (s.onRing h op c act) : Host.Outcome State Fault Refusal) = .next u.finish := by
  have hr := State.refuses_none_of_offline hl hb ht hn he ho
  simp only [State.lets, State.inService, Bool.and_eq_true, Bool.not_eq_true', decide_eq_true_eq] at hl
  obtain ⟨⟨⟨⟨⟨⟨hp, hg⟩, _⟩, hu⟩, _⟩, _⟩, _⟩ := hl
  have htile (k : Nat) (e : (c (s.advance h.at_)).tile = some k) :
      ((s.advance h.at_).tile k).bound = true ∧ (s.advance h.at_).holdsBack k = false := by
    obtain rfl := Option.some.inj (ht.symm.trans e)
    exact ⟨by simpa only [State.tile, State.advance_tiles] using hbound, hhold⟩
  have hact : act (((((s.advance h.at_).taken h op).begun h).cmdMargin h op).rouse
      ((((s.advance h.at_).taken h op).engOf op h.arg).getD 54)) = (u, none) := ha
  unfold State.onRing
  rw [State.onTick_running hp, State.runCmd_acts (by simpa using hg) hr hu htile, hact]

/-- A tile none of whose channels the other port owns (08 R309, R320). -/
theorem State.tileBad_none (ht : h.arg < 16) (hp : s.peerOwns h.port (32 * h.arg) 32 = none) : s.tileBad h = none :=
  (if_neg (Nat.not_le.2 ht)).trans hp

variable {img : Nat}

/-- ROTATE with an image to run, no rotation under way and an engine fit for it starts one (08 R309). -/
theorem State.rotateCmd_starts {newImg : Bool} (hi : s.rotImage h.arg newImg = some img) (hb : s.rot.busy = false)
    (hp : (s.pickEng (some img)).isSome = true) : s.rotateCmd h newImg = (s.startRot h.arg img (some h), none) := by
  unfold State.rotateCmd
  rw [hi]
  dsimp only
  rw [if_neg (by rw [hb]; exact Bool.false_ne_true), if_neg (by rw [Option.isNone_eq_false_iff.2 hp]; exact Bool.false_ne_true)]

/-- A rotation onto a fit engine is under way, of its tile and by its command. -/
theorem State.startRot_rot {k : Option Hdr} (hp : (s.pickEng (some img)).isSome = true) :
    (s.startRot t img k).rot.busy = true ∧ (s.startRot t img k).rot.tile = t ∧ (s.startRot t img k).rot.h = k := by
  obtain ⟨n, hn⟩ := Option.isSome_iff_exists.1 hp
  unfold State.startRot
  rw [hn]
  dsimp only
  split
  · exact ⟨rfl, rfl, rfl⟩
  · split <;> exact ⟨rfl, rfl, rfl⟩

end

/-- Settles O31: TILE_OFFLINE and ROTATE act on a tile that serves, TILE_READMIT on an offline one. -/
theorem serviceCommandsTakeTheirTile : Obligations.ServiceCommandsTakeTheirTile := by
  intro h s harg
  refine ⟨fun hpeer hserves => ?_, fun hl he hbound hhold ho =>
    next_onRing_offline_waits hl (argBad_none harg) rfl rfl he hbound hhold ho rfl⟩
  have hbad := State.tileBad_none harg hpeer
  have ht (k : Nat) (e : some h.arg = some k) : s.serves h.at_ k = true := Option.some.inj e ▸ hserves
  refine ⟨fun hl => next_onRing_waits hl hbad ht rfl rfl, fun newImg img hl hi hbusy hp => ⟨?_, State.startRot_rot hp⟩⟩
  exact next_onRing_waits hl hbad ht rfl (State.rotateCmd_starts hi (by rwa [State.begins_rot]) hp)

end Sys2Proof.Machine
end

section
/-!
PROOFS. Trigger bus lines on their way through the hub, lanes that fail and return, and the event merge (08 R306, R316; 01 R16,
R17, R38; 02 R61 to R64).
-/
namespace Sys2Proof.Machine

/-! ## Trigger bus lines (08 R306) -/

section
variable {l t : Nat} {v : Bool} {ts : Tick} {s : State}

theorem State.lineToHub_of_none (h : (s.lines.getD l {}).toHub = []) : s.lineToHub l = s := by
  unfold State.lineToHub
  dsimp only
  rw [h]

section
variable {rest : List (Bool × Tick)} (h : (s.lines.getD l {}).toHub = (v, ts) :: rest)
include h

/-- A change of a stale line, or from a tile that is lost or offline, moves nothing. -/
theorem State.lineToHub_of_stale (hs : (s.tile (s.lines.getD l {}).tile).lost = true ∨ (s.lines.getD l {}).stale = true ∨
    (s.tile (s.lines.getD l {}).tile).link.life = .offline) : s.lineToHub l = s := by
  unfold State.lineToHub
  dsimp only
  rw [h]
  refine if_pos ?_
  simpa only [Bool.or_eq_true, decide_eq_true_eq, or_assoc] using hs

/-- Any other sets the line and goes out to every tile. -/
theorem State.lineToHub_sends (hl : (s.tile (s.lines.getD l {}).tile).lost = false) (hs : (s.lines.getD l {}).stale = false)
    (ho : (s.tile (s.lines.getD l {}).tile).link.life ≠ .offline) : s.lineToHub l =
      { s with lines := updAt (fun L => { L with
          state := v, ts := ts, toHub := rest, toTiles := L.toTiles ++ tileNos.map fun t => (t, v, ts) }) l s.lines } := by
  unfold State.lineToHub
  dsimp only
  rw [h]
  refine if_neg ?_
  simp only [hl, hs, Bool.false_or, decide_eq_true_eq]
  exact ho

end

/-- The tile's copy of a line is set by the change that reached it, which is no longer on its way. -/
def State.lineCopied (t l : Nat) (v : Bool) (ts : Tick) (s : State) : State :=
  ({ s with lines := updAt (fun L => { L with toTiles := L.toTiles.erase (t, v, ts) }) l s.lines } : State).modLink t
    fun k => { k with lines := updAt (fun _ => v) l k.lines }

section
variable {k : Nat} (h : ((s.lines.getD l {}).toTiles.find? fun x => decide (x.1 = t)) = some (k, v, ts))
  (hl : (s.tile t).lost = false)
include h hl

/-- A change that reaches a tile with its link sets the tile's copy, and one that is not stale is seen by the rules and triggers
of an online tile. -/
theorem State.lineToTile_of_linked : s.lineToTile t l =
    if (s.lines.getD l {}).stale || !((s.lineCopied t l v ts).tile t).online then s.lineCopied t l v ts
    else ((s.lineCopied t l v ts).refreshAt t (some (true, l, v)) ts).fireWhere t 2
      (fun p => decide (p % 64 = l) && edgeParam p v) ts := by
  unfold State.lineToTile
  dsimp only
  rw [h]
  exact if_neg (by rw [hl]; exact Bool.false_ne_true)

theorem State.lineToTile_of_unseen (hq : (s.lines.getD l {}).stale = true ∨ ((s.lineCopied t l v ts).tile t).online = false) :
    s.lineToTile t l = s.lineCopied t l v ts := by
  refine (State.lineToTile_of_linked h hl).trans (if_pos ?_)
  simpa only [Bool.or_eq_true, Bool.not_eq_true'] using hq

theorem State.lineToTile_of_seen (hs : (s.lines.getD l {}).stale = false)
    (ho : ((s.lineCopied t l v ts).tile t).online = true) : s.lineToTile t l =
      ((s.lineCopied t l v ts).refreshAt t (some (true, l, v)) ts).fireWhere t 2
        (fun p => decide (p % 64 = l) && edgeParam p v) ts :=
  (State.lineToTile_of_linked h hl).trans (if_neg (by rw [hs, ho]; decide))

end
end

/-! ## Lanes (01 R16, R17; 08 R316) -/

section
variable {t m : Nat} {s : State}

theorem State.laneFail_of_no_healthy (h : (s.tile t).powered = false ∨ (s.tile t).link.laneOk &&& m = 0) :
    s.laneFail t m = s := by
  refine if_pos ?_
  simpa only [Bool.or_eq_true, Bool.not_eq_true', decide_eq_true_eq] using h

/-- A lane that carries no traffic fails, and two healthy ones are left: the lane fault alone. -/
theorem State.laneFail_of_unused (hp : (s.tile t).powered = true) (hd : (s.tile t).link.laneOk &&& m ≠ 0)
    (hu : (s.tile t).link.laneUse &&& ((s.tile t).link.laneOk &&& m) = 0)
    (hn : lanesIn ((s.tile t).link.laneOk - ((s.tile t).link.laneOk &&& m)) = 2) :
    s.laneFail t m = ((s.modLink t fun L => { L with
        laneOk := (s.tile t).link.laneOk - ((s.tile t).link.laneOk &&& m),
        bad := L.bad.filter (fun x => ((s.tile t).link.laneOk - ((s.tile t).link.laneOk &&& m)).testBit x.1),
        laneUse := (s.tile t).link.laneUse }).raise (35 + t) 13
          (if ((s.tile t).link.laneOk &&& m).testBit 0 then 0 else if ((s.tile t).link.laneOk &&& m).testBit 1 then 1 else 2)
          0 0) := by
  have hok : (s.tile t).link.laneOk - ((s.tile t).link.laneOk &&& m) ≠ 0 := by
    intro h0
    rw [h0] at hn
    exact absurd hn (by decide)
  unfold State.laneFail
  dsimp only
  rw [if_neg (by simp [hp, hd]), hu, hn]
  simp [hok]

/-- No link returns without power, where it was not lost, or while none of the lanes whose failure lost it carries frames. -/
theorem State.linkReturn_of_none {lanes : Nat} (h : (s.tile t).powered = false ∨ (s.tile t).link.laneOk ≠ 0 ∨
    (s.tile t).link.lostWith &&& lanes = 0) : s.linkReturn t lanes = s := by
  refine if_neg ?_
  simp only [Bool.and_eq_true, decide_eq_true_eq]
  rintro ⟨⟨hp, ho⟩, hk⟩
  obtain h | h | h := h
  · exact Bool.false_ne_true (h.symm.trans hp)
  · exact h ho
  · exact hk h

/-- A lost link returns: re-admitted on one lane, else its fault ends (01 R17, R38). -/
theorem State.linkReturn_of_lost {lanes : Nat} (hp : (s.tile t).powered = true) (ho : (s.tile t).link.laneOk = 0)
    (hk : (s.tile t).link.lostWith &&& lanes ≠ 0) : s.linkReturn t lanes =
      (let k := (s.tile t).link.lostWith &&& lanes
       let a := s.findSight t fun L => { L with laneOk := k, laneUse := lanesUsed k, bad := [] }
       (if lanesIn k = 1 then a.linkReadmit t else a.endPresent (35 + t) 14).refresh t) :=
  if_pos (by rw [hp, decide_eq_true ho, decide_eq_true hk]; rfl)

/-- A corrupted frame is counted, and those older than 10 s are forgotten (08 R316). -/
def State.frameNoted (t lane : Nat) (s : State) : State :=
  s.modLink t fun L => { L with
    retrans := satInc 0xFFFF L.retrans, bad := (lane, s.now) :: L.bad.filter fun x => decide (s.now < x.2 + 10 * sec) }

/-- The corrupted frames of a lane that are remembered. -/
def State.badOf (t lane : Nat) (s : State) : List (Nat × Tick) := (s.tile t).link.bad.filter fun x => decide (x.1 = lane)

section
variable {lane : Nat} (hl : (s.tile t).lost = false) (hb : (s.tile t).link.laneOk.testBit lane = true)
include hl hb

theorem State.badFrame_of_healthy : s.badFrame t lane =
    if (16 ≤ (((s.frameNoted t lane).badOf t lane).filter fun x =>
        decide ((s.frameNoted t lane).now < x.2 + ms)).length || 4 < ((s.frameNoted t lane).badOf t lane).length) = true
    then (s.frameNoted t lane).laneFail t (2 ^ lane) else s.frameNoted t lane :=
  if_neg (by rw [hl, hb]; decide)

/-- Up to four corrupted frames of a lane are counted only; those within 1 ms are among them. -/
theorem State.badFrame_counts (h : ((s.frameNoted t lane).badOf t lane).length ≤ 4) :
    s.badFrame t lane = s.frameNoted t lane := by
  refine (State.badFrame_of_healthy hl hb).trans (if_neg ?_)
  have hle := ((s.frameNoted t lane).badOf t lane).length_filter_le
    fun x => decide ((s.frameNoted t lane).now < x.2 + ms)
  simp only [Bool.or_eq_true, decide_eq_true_eq]
  omega

theorem State.badFrame_fails (h : 4 < ((s.frameNoted t lane).badOf t lane).length) :
    s.badFrame t lane = (s.frameNoted t lane).laneFail t (2 ^ lane) :=
  (State.badFrame_of_healthy hl hb).trans (if_pos (by rw [decide_eq_true h, Bool.or_true]))

end
end

/-! ## The merge (02 R61, R64) -/

section
variable {src : Nat} {e : Event} {s : State}

section
variable {rest : List LinkItem} (hs : src < 16) (he : popEv (s.tile src).link.sendQ = some (e, rest))
  (hh : (s.tile src).heard = true)
include hs he hh

/-- The next event of a tile that is heard leaves its link; the vitrine of its channel shows it. -/
theorem State.mergeTakes_of_tile : s.mergeTakes src =
    (let a := s.modLink src (Link.took rest)
     (if e.ch < 32 then a.accessioned src e.ch 2 (e.kind % 256 * 2 ^ 24 + e.payload % 2 ^ 24) e.ts 0 0 else a).arrive e) := by
  unfold State.mergeTakes
  rw [if_pos hs, he]
  exact if_neg (by rw [hh]; decide)

theorem State.mergeTakes_of_tile_event (hc : e.ch = 32) :
    s.mergeTakes src = (s.modLink src (Link.took rest)).arrive e := by
  rw [State.mergeTakes_of_tile hs he hh]
  exact congrArg (State.arrive e) (if_neg (by omega))

theorem State.mergeTakes_of_channel_event (hc : e.ch < 32) : s.mergeTakes src =
    ((s.modLink src (Link.took rest)).accessioned src e.ch 2 (e.kind % 256 * 2 ^ 24 + e.payload % 2 ^ 24) e.ts 0 0).arrive e := by
  rw [State.mergeTakes_of_tile hs he hh]
  exact congrArg (State.arrive e) (if_pos hc)

end

theorem State.mergeTakes_of_hub {es : List Event} (hs : 16 ≤ src) (he : s.merge.hubOut = e :: es) :
    s.mergeTakes src = State.arrive e { s with merge := { s.merge with hubOut := es } } := by
  unfold State.mergeTakes
  rw [if_neg (Nat.not_lt.2 hs), he]

theorem State.horizonOver_ends (he : s.merge.epi = true) (ht : s.merge.epiLast + ms ≤ s.now) :
    s.horizonOver = State.endPresent 54 3 { s with merge := { s.merge with epi := false } } :=
  if_pos (by rw [he, decide_eq_true ht]; rfl)

end

/-- Settles O53: each happening acts at its tick, by the lemma on its operation. -/
theorem linesLanesMergeAndReleaseFollowTheLink : Obligations.LinesLanesMergeAndReleaseFollowTheLink := by
  intro τ t s hs b T
  refine ⟨fun l => ⟨?_, ?_, ?_, fun k v ts hf hl => ⟨?_, ?_⟩⟩, ?_, ?_, fun lanes hp ho hk => ?_, ?_,
    fun lane hl hb => ⟨?_, ?_⟩, fun src e rest hsrc he hh => ⟨?_, ?_⟩, ?_, next_onTick hs rfl, ?_⟩
  · exact fun h => next_onTick hs (State.lineToHub_of_none h)
  · exact fun v ts rest h hq => next_onTick hs (State.lineToHub_of_stale h hq)
  · exact fun v ts rest h hl hq ho => next_onTick hs (State.lineToHub_sends h hl hq ho)
  · exact fun hq => next_onTick hs (State.lineToTile_of_unseen hf hl hq)
  · exact fun hq ho => next_onTick hs (State.lineToTile_of_seen hf hl hq ho)
  · exact fun m h => next_onTick hs (State.laneFail_of_no_healthy h)
  · exact fun m hp hd hu hn => next_onTick hs (State.laneFail_of_unused hp hd hu hn)
  · have hret := State.linkReturn_of_lost hp ho hk
    exact ⟨fun h1 => next_onTick hs (hret.trans (congrArg (State.refresh t) (if_neg h1))),
      fun h1 => next_onTick hs (hret.trans (congrArg (State.refresh t) (if_pos h1)))⟩
  · exact fun lanes h => next_onTick hs (State.linkReturn_of_none h)
  · exact fun h => next_onTick hs (State.badFrame_counts hl hb h)
  · exact fun h => next_onTick hs (State.badFrame_fails hl hb h)
  · exact fun hc => next_onTick hs (State.mergeTakes_of_tile_event hsrc he hh hc)
  · exact fun hc => next_onTick hs (State.mergeTakes_of_channel_event hsrc he hh hc)
  · exact fun src e es hsrc he => next_onTick hs (State.mergeTakes_of_hub hsrc he)
  · exact fun he ht => next_onTick hs (State.horizonOver_ends he ht)

end Sys2Proof.Machine
end

section
/-!
PROOFS. Watchdogs, rotations and repairs of engines, and the end of a tile's way out of service and back (08 R298, R309 to R312,
R320, R321; 09 R347; 01 R21).
-/
namespace Sys2Proof.Machine

/-- A happening of rotations and repairs outside the grave hold, from what its operation makes of the state at its tick. -/
theorem next_onEngine {τ : Tick} {f : State → State} {s u : State} (hs : s.power = .running) (hg : s.dev.grave = false)
    (h : f (s.advance τ) = u) :
    (.next (s.onEngine τ f) : Host.Outcome State Fault Refusal) = .next u.runWaiting.finish := by
  rw [State.onEngine_acts hs hg, h]

/-! ## Watchdog (08 R298; 09 R347) -/

section
variable {t : Nat} {s : State}

theorem State.serveWatchdog_of_bound (hb : (s.tile t).bound = true) (hl : (s.tile t).lost = false) (hg : s.dev.grave = false) :
    s.serveWatchdog t = (s.modSaf t fun f => { f with wdServed := s.now, wdBack := f.wd }).endWatchdog t :=
  if_pos (by rw [hb, hl, hg]; rfl)

theorem State.serveWatchdog_of_unserved (h : (s.tile t).bound = false ∨ (s.tile t).lost = true) : s.serveWatchdog t = s := by
  refine if_neg ?_
  obtain h | h := h <;> simp [h]

theorem State.expireWatchdog_expires (hp : (s.tile t).powered = true) (hw : (s.tile t).saf.wd = false)
    (ht : (s.tile t).saf.wdServed + (s.tile t).saf.timeout * ms ≤ s.now) : s.expireWatchdog t =
      (let a := s.raise (35 + t) 0 0 0 0
       (a.enterScope t fun f => { f with wd := true, wdSeen := true, wdBack := false, wdCause := a.causeOf (35 + t) 0 }).scopeEvent
        t 3 1 (a.causeOf (35 + t) 0)) :=
  if_pos (by rw [hp, hw, decide_eq_true ht]; rfl)

theorem State.expireWatchdog_in_time (ht : s.now < (s.tile t).saf.wdServed + (s.tile t).saf.timeout * ms) :
    s.expireWatchdog t = s :=
  if_neg (by rw [decide_eq_false (Nat.not_le.2 ht), Bool.and_false]; exact Bool.false_ne_true)

end

/-! ## Rotation (08 R310, R311) -/

section
variable {s : State}

/-- Outside a rotation its rows do nothing. -/
theorem State.rot_rows_of_idle (hb : s.rot.busy = false) :
    s.rotLoaded true = s ∧ s.rotCopied true = s ∧ s.rotGap = s ∧ s.handOver = s ∧ s.rotTimeout = s := by
  refine ⟨if_pos ?_, if_pos ?_, if_neg ?_, if_neg ?_, if_neg ?_⟩ <;> simp [hb]

theorem State.rotGap_of_not_atG (hg : s.atG = false) : s.rotGap = s :=
  if_neg (by rw [hg, Bool.and_false]; exact Bool.false_ne_true)

section
variable (hb : s.rot.busy = true)
include hb

theorem State.rotLoaded_of_load (hp : s.rot.phase = .load) (ok : Bool) : s.rotLoaded ok =
    if ok then { s.loaded s.rot.inEng .receiving s.rot.tile with rot := { s.rot with phase := .precopy } }
    else (s.endRot 2 8 false).raise 54 7 0 (Config.storeArea 0) 0 :=
  if_neg (by rw [hb, hp]; decide)

theorem State.rotCopied_of_precopy (hp : s.rot.phase = .precopy) (ok : Bool) : s.rotCopied ok =
    if ok then { s with rot := { s.rot with phase := .ready, copyAt := s.now } } else s.endRot 2 8 true :=
  if_neg (by rw [hb, hp]; decide)

theorem State.rotGap_starts (hp : s.rot.phase = .ready) (hg : s.atG = true) : s.rotGap =
    { s.modTile s.rot.tile fun T => { T with bound := false } with rot := { s.rot with phase := .gap, gapAt := s.now } } :=
  if_pos (by rw [hb, hp, hg]; rfl)

end

/-- The incoming engine bound to the rotation's tile, and the outgoing one free in the Depot (01 R21). -/
def State.swapped (s : State) : State :=
  ((s.modTile s.rot.tile fun T => { T with bound := true, rotating := false, engine := s.rot.inEng }).modEngine s.rot.inEng
    fun e => { e with st := .bound, tile := s.rot.tile }).modEngine s.rot.outEng fun e =>
      if e.st = .retired then e else { e with st := .idle, tile := 31 }

/-- The rotation is over with its handover. -/
def State.handedOver (s : State) : State :=
  { s.swapped with rot := { s.swapped.rot with
    busy := false, h := none, lastOutcome := 1, lastTile := s.rot.tile, lastGap := s.now - s.rot.gapAt } }

section
variable (hb : s.rot.busy = true) (hp : s.rot.phase = .gap)
include hb hp

theorem State.handOver_swaps (ht : s.now ≤ s.rot.gapAt + 20000) : s.handOver =
    (forAll (fun h u => u.reply h 0x88 (Reply.ok (payload [(16, 1, s.rot.outEng), (17, 1, s.rot.inEng),
      (18, 2, s.now - s.rot.gapAt)]))) s.rot.h.toList s.handedOver).countRotated := by
  have hc : (s.rot.busy && decide (s.rot.phase = .gap) && decide (s.now ≤ s.rot.gapAt + 20000)) = true := by
    rw [hb, hp, decide_eq_true ht]
    rfl
  have hd : s.rotDone = forAll (fun h u => u.reply h 0x88 (Reply.ok (payload [(16, 1, s.rot.outEng), (17, 1, s.rot.inEng),
      (18, 2, s.now - s.rot.gapAt)]))) s.rot.h.toList s.handedOver := if_pos hc
  exact (if_pos hc).trans (congrArg State.countRotated hd)

theorem State.rotTimeout_ends (ht : s.rot.gapAt + 20000 ≤ s.now) : s.rotTimeout = s.endGap 2 8 :=
  if_pos (by rw [hb, hp, decide_eq_true ht]; rfl)

end
end

/-! ## Repair (08 R312) -/

@[simp] theorem State.reply_now (h : Hdr) (op : Nat) (r : Reply) (s : State) : (s.reply h op r).now = s.now :=
  congrArg (fun x => x.2.2.2.2.1) (State.reply_ctl h op r s)

/-- Completions that carry the count all carry the count before them. -/
theorem forAll_reply_now {α : Type} (g : α → Hdr) (op : Nat) (r : Tick → Reply) (xs : List α) (s : State) :
    forAll (fun x v => v.reply (g x) op (r v.now)) xs s = forAll (fun x v => v.reply (g x) op (r s.now)) xs s := by
  induction xs generalizing s with
  | nil => rfl
  | cons x xs ih =>
    refine (ih (s.reply (g x) op (r s.now))).trans ?_
    rw [State.reply_now]
    rfl

/-- The tile of a repair bound to its new engine. -/
def State.rebound (t k : Nat) (s : State) : State :=
  (s.loaded k .bound t).modTile t fun T => { T with bound := true, rotating := false, engine := k }

/-- A repair with an engine binds it, and the commands of the rotations that became it complete. -/
theorem State.repaired_binds {t : Nat} {x : Nat × Nat × Nat × Tick} {s : State}
    (hx : (s.rot.repairs.find? fun r => decide (r.1 = t) && decide (r.2.2.1 ≠ 31)) = some x) : s.repaired t =
      (let u := s.rebound t x.2.2.1
       forAll (fun (y : Nat × Hdr) v => v.reply y.2 0x88 (Reply.ok (payload [(16, 1, x.2.1), (17, 1, x.2.2.1),
        (18, 2, sat 0xFFFF (u.now - x.2.2.2))]))) (u.rot.repairH.filter fun y => decide (y.1 = t))
        { u with rot := { u.rot with
          repairs := u.rot.repairs.filter (fun r => decide (r.1 ≠ t)), lastOutcome := 4, lastTile := t,
          lastGap := sat 0xFFFF ((u.now - x.2.2.2) / 100),
          repairH := u.rot.repairH.filter fun y => decide (y.1 ≠ t) } }) := by
  unfold State.repaired
  rw [hx]
  exact forAll_reply_now (fun y : Nat × Hdr => y.2) 0x88 (fun n => Reply.ok (payload [(16, 1, x.2.1), (17, 1, x.2.2.1),
    (18, 2, sat 0xFFFF (n - x.2.2.2))])) _ _

/-! ## Service (08 R320, R321) -/

section
variable {t lanes : Nat} {s : State}

theorem State.nowOffline_of_offlining (hl : (s.tile t).link.life = .offlining) : s.nowOffline t =
    forAll (fun h u => u.reply h 0x78 (Reply.ok 0)) (s.tile t).link.lifeH
      (s.modLink t fun L => { L with life := .offline, lifeH := [] }) := if_pos hl

theorem State.nowOffline_of_other (hl : (s.tile t).link.life ≠ .offlining) : s.nowOffline t = s := if_neg hl

theorem State.endReadmit_of_other (hl : (s.tile t).link.life ≠ .readmitting) (ok : Bool) : s.endReadmit t ok lanes = s :=
  if_pos hl

section
variable (hl : (s.tile t).link.life = .readmitting)
include hl

/-- A re-admission that fails leaves its tile offline. -/
theorem State.endReadmit_fails : s.endReadmit t false lanes =
    forAll (fun h u => u.reply h 0x79 { st := 8 }) (s.tile t).link.lifeH
      (s.modLink t fun L => { L with life := .offline, lifeH := [] }) :=
  (if_neg (not_not.2 hl)).trans (if_neg Bool.false_ne_true)

/-- One that finds all three lanes healthy puts its tile online, with no fault of its lanes left. -/
theorem State.endReadmit_on_three_lanes (hp : (s.tile t).powered = true) (hn : lanesIn (lanes % 8) = 3) :
    s.endReadmit t true lanes =
      (let a := ((s.modBlk (35 + t) fun k => { k with safe := false }).findSight t fun L => { L with
         life := .online, lifeH := [], laneOk := lanes % 8, laneUse := lanesUsed (lanes % 8), bad := [] }).endPresent (35 + t) 14
       let c := if (a.tile t).cv.refEn then a.refRise t else a
       forAll (fun h u => u.reply h 0x79 (Reply.ok 0)) (s.tile t).link.lifeH
        (((c.staleLines t false).leaveBlock t).refresh t)) := by
  have h0 : lanes % 8 ≠ 0 := by
    intro h0
    rw [h0] at hn
    exact absurd hn (by decide)
  unfold State.endReadmit
  dsimp only
  rw [if_neg (not_not.2 hl), if_pos (by rw [hp, decide_eq_true h0]; rfl), hn]
  rfl

end
end

/-- Settles O55: each happening acts at its tick, outside the grave hold, by the lemma on its operation. -/
theorem watchdogsRotationsRepairsAndServiceRunTheirSteps : Obligations.WatchdogsRotationsRepairsAndServiceRunTheirSteps := by
  intro τ t s hs hg b T r
  have hgb : b.dev.grave = false := by rwa [State.advance_dev]
  refine ⟨?_, ?_, ?_, ?_, fun hb hp => ?_, fun hb hp => ?_, ?_, ?_, fun hb hp => ⟨?_, ?_⟩, fun hb => ?_, fun x hx => ?_, ?_,
    ?_, ?_, ?_, ?_⟩
  · exact fun hb hl => next_onTick hs (State.serveWatchdog_of_bound hb hl hgb)
  · exact fun h => next_onTick hs (State.serveWatchdog_of_unserved h)
  · exact fun hp hw ht => next_onTick hs (State.expireWatchdog_expires hp hw ht)
  · exact fun ht => next_onTick hs (State.expireWatchdog_in_time ht)
  · have hload := State.rotLoaded_of_load hb hp
    exact ⟨next_onEngine hs hg (hload true), next_onEngine hs hg (hload false)⟩
  · have hcopy := State.rotCopied_of_precopy hb hp
    exact ⟨next_onEngine hs hg (hcopy true), next_onEngine hs hg (hcopy false)⟩
  · exact fun hb hp hG => next_onEngine hs hg (State.rotGap_starts hb hp hG)
  · exact fun hG => next_onEngine hs hg (State.rotGap_of_not_atG hG)
  · exact fun ht => next_onEngine hs hg (State.handOver_swaps hb hp ht)
  · exact fun ht => next_onEngine hs hg (State.rotTimeout_ends hb hp ht)
  · obtain ⟨hload, hcopy, hgap, hover, htime⟩ := State.rot_rows_of_idle hb
    exact ⟨next_onEngine hs hg hload, next_onEngine hs hg hcopy, next_onEngine hs hg hgap, next_onEngine hs hg hover,
      next_onEngine hs hg htime⟩
  · exact ⟨_, next_onEngine hs hg (State.repaired_binds hx), rfl⟩
  · exact fun hl => next_onTick hs (State.nowOffline_of_offlining hl)
  · exact fun hl => next_onTick hs (State.nowOffline_of_other hl)
  · exact fun hl ok lanes => next_onEngine hs hg (State.endReadmit_of_other hl ok)
  · exact fun hl lanes => next_onEngine hs hg (State.endReadmit_fails hl)
  · exact fun lanes hl hp hn => next_onEngine hs hg (State.endReadmit_on_three_lanes hl hp hn)

end Sys2Proof.Machine
end

section
/-!
PROOFS. SRAM banks under the scrubber and double-bit errors, and the rails of blocks and banks: adjustment, recovery, retention
and reports (08 R318, R319, R322, R323, R325; 09 R334).
-/
namespace Sys2Proof

/-- An element of an indexed map is its index's image of the element there. -/
theorem mapFrom_getElem? {α β : Type} (f : Nat → α → β) (k i : Nat) (xs : List α) :
    (mapFrom f k xs)[i]? = xs[i]?.map (f (k + i)) := by
  induction xs generalizing k i with
  | nil => rfl
  | cons x xs ih =>
    cases i with
    | zero => rfl
    | succ i =>
      rw [Nat.add_comm i 1, ← Nat.add_assoc]
      simpa only [mapFrom, Nat.add_comm 1 i, List.getElem?_cons_succ] using ih (k + 1) i

end Sys2Proof

namespace Sys2Proof.Machine

/-! ## SRAM (08 R318; 09 R334) -/

section
variable {k row item : Nat} {s : State}

theorem State.scrub_of_clean : s.scrub k row false = s.modSram k fun x => { x with ret := false, workAt := s.now } :=
  rfl

/-- A single-bit error counted at its bank, with its notice. -/
def State.corrects (k : Nat) (s : State) : State :=
  (s.modSram k fun x => { x with ret := false, workAt := s.now, corrected := satInc 0xFFFF x.corrected }).raise 53 0 k 0 0

/-- A row seen with an error before is repaired, any other noted. -/
theorem State.scrub_of_error : s.scrub k row true =
    if (s.sram.getD k {}).rows.contains row = true then (s.corrects k).repairRow k row
    else (s.corrects k).modSram k fun x => { x with rows := row :: x.rows } := rfl

/-- A bank marked after a double-bit error, with its fault, and the row repaired. -/
def State.uncorrected (k row : Nat) (s : State) : State :=
  ((s.modSram k fun x => { x with uncorr := true, ret := false, workAt := s.now }).raise 53 1 k 0 0).repairRow k row

theorem State.doubleBit_of_engine (hlo : 64 ≤ k) (hhi : k < 154) :
    s.doubleBit k row item = (s.uncorrected k row).raise ((k - 64) / 5) 0 k 0 0 :=
  (if_neg (Nat.not_lt.2 hlo)).trans (if_pos hhi)

theorem State.doubleBit_of_sv (hlo : 202 ≤ k) (hhi : k < 234) :
    s.doubleBit k row item = (s.uncorrected k row).raise 18 1 k 0 0 :=
  (if_neg (by omega)).trans <| (if_neg (by omega)).trans <| (if_neg (Nat.not_lt.2 hlo)).trans (if_pos hhi)

theorem State.doubleBit_of_merge (hlo : 234 ≤ k) (hhi : k < 250) :
    s.doubleBit k row item = ((s.uncorrected k row).raise 54 10 k 0 0).loseMerge item :=
  (if_neg (by omega)).trans <| (if_neg (by omega)).trans <| (if_neg (by omega)).trans <| (if_neg (Nat.not_lt.2 hlo)).trans
    (if_pos hhi)

end

/-! ## Rails (08 R322) -/

theorem railAfter_eq (on : Bool) (f m own : Nat) : railAfter on f m own =
    if on = false ∨ m < f then fullRail else if 2 * f < m then max 550 (own - 5) else own := by
  simp only [railAfter, Bool.or_eq_true, Bool.not_eq_true', decide_eq_true_eq]

section
variable {k margin : Nat} {s : State}

theorem State.railAdjust_of_bank (h : 56 ≤ k) : s.railAdjust k margin = s.modSram (k - 56) fun x =>
    { x with own := if s.scaleEn = false ∨ margin < 2000 then fullRail else if 4000 < margin then max 550 (x.own - 5)
      else x.own } := by
  refine (if_pos h).trans ?_
  simp only [railAfter_eq]

theorem State.railAdjust_of_unregulated (hlo : 53 ≤ k) (hhi : k < 56) : s.railAdjust k margin = s :=
  (if_neg (Nat.not_le.2 hhi)).trans (if_pos hlo)

theorem State.railAdjust_of_block (h : k < 53) : s.railAdjust k margin = s.modPwr k fun w =>
    { w with own := if s.scaleEn = false ∨ (s.pwr.getD k {}).minMargin.foldl min margin < s.floor k then fullRail
      else if 2 * s.floor k < (s.pwr.getD k {}).minMargin.foldl min margin then max 550 (w.own - 5) else w.own } := by
  refine (if_neg (by omega)).trans ((if_neg (Nat.not_le.2 h)).trans ?_)
  simp only [railAfter_eq]

theorem State.railRecover_of_block (h : k < 56) :
    s.railRecover k = s.modPwr k fun w => { w with own := fullRail, ret := false } := if_neg (Nat.not_le.2 h)

theorem State.railRecover_of_bank (h : 56 ≤ k) :
    s.railRecover k = s.modSram (k - 56) fun x => { x with own := fullRail, ret := false } := if_pos h

/-! ## Retention (08 R323) -/

/-- What last worked at `x` has been idle for 100 µs. -/
def State.idleSince (x : Tick) (s : State) : Bool := decide (x + 100 * us ≤ s.now)

theorem State.retention_of_unscaled (hs : s.scaleEn = false) : s.retention k = s := if_pos (by rw [hs]; rfl)

section
variable (hs : s.scaleEn = true)
include hs

theorem State.retention_of_bank (hk : 56 ≤ k) : s.retention k =
    s.modSram (k - 56) fun x => if s.idleSince x.workAt then { x with ret := true } else x :=
  (if_neg (by rw [hs]; decide)).trans (if_pos hk)

theorem State.retention_of_block (hk : k < 53) : s.retention k =
    if !s.busyBlk k && s.idleSince (s.pwr.getD k {}).workAt then s.modPwr k fun w => { w with ret := true } else s := by
  refine (if_neg (by rw [hs]; decide)).trans ((if_neg (by omega)).trans ((if_neg (by omega)).trans ?_))
  rw [decide_eq_true hk, Bool.true_and]
  rfl

theorem State.retention_of_idle_block (hk : k < 53) (hb : s.busyBlk k = false)
    (hi : s.idleSince (s.pwr.getD k {}).workAt = true) : s.retention k = s.modPwr k fun w => { w with ret := true } :=
  (State.retention_of_block hs hk).trans (if_pos (by rw [hb, hi]; rfl))

end

/-- With scaling off as with it on, a block at work or idle for less than 100 µs keeps its state. -/
theorem State.retention_of_working_block (hk : k < 53)
    (h : s.busyBlk k = true ∨ s.idleSince (s.pwr.getD k {}).workAt = false) : s.retention k = s := by
  cases hs : s.scaleEn with
  | false => exact State.retention_of_unscaled hs
  | true =>
    refine (State.retention_of_block hs hk).trans (if_neg ?_)
    obtain h | h := h
    · rw [h]
      exact Bool.false_ne_true
    · rw [h, Bool.and_false]
      exact Bool.false_ne_true

/-! ## Reports (08 R325) -/

/-- A renewal starts every report's margins anew, and reports the rail, draw and slack of each block that has a rail. -/
theorem State.renewPower_reports {draws : List Nat} {n : Nat} {w : Pwr} (h : (s.renewPower draws).pwr[n]? = some w) :
    ∃ x, s.pwr[n]? = some x ∧ w.minMargin = List.replicate 8 0xFFFFFFFF ∧
      (n < 53 → w.rail = x.own ∧ w.draw = sat 0xFFFFF (draws.getD n 0) ∧ w.slack = x.minMargin) := by
  unfold State.renewPower at h
  dsimp only at h
  rw [mapFrom_getElem?, Nat.zero_add] at h
  obtain ⟨x, hx, rfl⟩ := Option.map_eq_some_iff.1 h
  exact ⟨x, hx, rfl, fun hn => ⟨if_neg (by omega), if_neg (by omega), rfl⟩⟩

theorem State.renewPower_length (draws : List Nat) : (s.renewPower draws).pwr.length = s.pwr.length := mapFrom_length _ _ _

end

/-- Settles O56: each happening acts at its tick, by the lemma on its operation. -/
theorem memoryBanksAndRailsKeepTheirRecords : Obligations.MemoryBanksAndRailsKeepTheirRecords := by
  intro τ k s hs b idle
  refine ⟨?_, fun row => ⟨?_, ?_⟩, fun row item => ⟨?_, ?_, ?_⟩, fun margin => ⟨?_, ?_, ?_⟩, ?_, ?_, ⟨?_, ?_, ?_⟩, ?_,
    fun draws => ⟨b.renewPower draws, next_onTick hs rfl, rfl, State.renewPower_length draws, fun n w hw => ?_⟩⟩
  · exact fun row => next_onTick hs State.scrub_of_clean
  · exact fun h => next_onTick hs (State.scrub_of_error.trans (if_pos h))
  · exact fun h => next_onTick hs (State.scrub_of_error.trans (if_neg (ne_true_of_eq_false h)))
  · exact fun hlo hhi => next_onTick hs (State.doubleBit_of_sv hlo hhi)
  · exact fun hlo hhi => next_onTick hs (State.doubleBit_of_engine hlo hhi)
  · exact fun hlo hhi => next_onTick hs (State.doubleBit_of_merge hlo hhi)
  · exact fun h => next_onTick hs (State.railAdjust_of_bank h)
  · exact fun hlo hhi => next_onTick hs (State.railAdjust_of_unregulated hlo hhi)
  · exact fun h => next_onTick hs (State.railAdjust_of_block h)
  · exact fun h => next_onTick hs (State.railRecover_of_block h)
  · exact fun h => next_onTick hs (State.railRecover_of_bank h)
  · exact fun hsc hk hb hi => next_onTick hs (State.retention_of_idle_block hsc hk hb hi)
  · exact fun hk h => next_onTick hs (State.retention_of_working_block hk h)
  · exact fun hsc hk => next_onTick hs (State.retention_of_bank hsc hk)
  · exact fun hsc => next_onTick hs (State.retention_of_unscaled hsc)
  · obtain ⟨x, hx, hmin, hrep⟩ := State.renewPower_reports hw
    refine ⟨hmin, fun hn => ?_⟩
    obtain ⟨hrail, hdraw, hslack⟩ := hrep hn
    exact ⟨x, hx, hrail, hdraw, hslack⟩

end Sys2Proof.Machine
end

section
/-!
PROOFS. The reactions of a command's occurrences within its own step (09 Table 9-4, R331), the acknowledgement of a fault block
(09 R328, Table 9-17), and the happenings at fault sources, ALIVE, the hub's temperature, the Archive and the persistent log
(09 R327, R338, R348, R351, R352; 12 R422).
-/
namespace Sys2Proof.Machine

/-! ## Reactions within a step (09 R331) -/

/-- The bound on the turns empties the reactions that are left, and before it only an empty list ends them. -/
theorem State.settleIn_todo (n : Nat) (s : State) : (s.settleIn n).dev.todo = [] := by
  induction n generalizing s with
  | zero => rfl
  | succ n ih =>
    unfold State.settleIn
    split
    · assumption
    · exact ih _

/-- Both ways in which a step ends settle its reactions last. -/
theorem State.finish_todo (s : State) : s.finish.dev.todo = [] := by
  unfold State.finish
  dsimp only
  split
  · exact State.settleIn_todo _ _
  · exact State.settleIn_todo _ _

theorem State.onTick_todo {s : State} (h : s.dev.todo = []) (τ : Tick) (f : State → State) :
    (s.onTick τ f).dev.todo = [] := by
  unfold State.onTick
  split
  · exact State.finish_todo _
  · exact h

/-- A device reset leaves no reaction. -/
@[simp] theorem State.restart_todo (pw : Power) (cause : Nat) (s : State) : (s.restart pw cause).dev.todo = [] := rfl

section
variable {s : State} (h : s.dev.todo = [])
include h

theorem State.tickOn_todo : s.tickOn.dev.todo = [] := by
  have hd : s.tickOn.dev = s.dev := by
    unfold State.tickOn
    dsimp only
    split_ifs <;> rfl
  rwa [hd]

theorem State.advance_todo (τ : Tick) : (s.advance τ).dev.todo = [] := by rwa [State.advance_dev]

theorem State.brownOut_todo : s.brownOut.dev.todo = [] := by
  unfold State.brownOut
  split
  · rfl
  · exact h

theorem State.porst_todo : s.porst.dev.todo = [] := by
  unfold State.porst
  split
  · rfl
  · exact h

theorem State.enterFallow_todo : s.enterFallow.dev.todo = [] := by
  unfold State.enterFallow
  split
  · exact h
  · rfl

theorem State.wake_todo : s.wake.dev.todo = [] := by
  unfold State.wake
  split
  · exact h
  · exact h

theorem State.fsafePin_todo (level : Bool) : (s.fsafePin level).dev.todo = [] := by
  unfold State.fsafePin
  split
  · exact h
  · exact h

/-- No command leaves a reaction waiting: one that acts at its tick settles what it caused, and the supplies and resets that
act at once cause none. -/
theorem exec_todo (i : Instr) : answer (exec i s) fun v => v.dev.todo = [] := by
  cases i
  -- supplies, resets, start-up and Fallow
  case powerOn => rfl
  case brownOut => exact State.brownOut_todo (State.advance_todo h _)
  case porstFall => exact State.porst_todo (State.advance_todo h _)
  case startup => exact State.finish_todo _
  case vkaLoss => exact State.advance_todo h _
  case fallowEntry => exact State.enterFallow_todo h
  case wakeCrossing => exact State.wake_todo h
  case fsafeFall | fsafeRise => exact State.onTick_todo (State.fsafePin_todo h _) _ _
  -- happenings that bring a voltage or current
  case pinClamp | surge | lplusSample | supplyThreshold =>
    simp only [exec, execPinClamp, execSurge, execLplusSample, execSupplyThreshold]
    split
    · trivial
    · exact State.onTick_todo h _ _
  -- every other command acts at its tick
  all_goals exact State.onTick_todo h _ _

end

/-- Settles O6: an idle step has no occurrence, and a command takes the reactions of its own. -/
theorem noReactionWaitsBetweenCommands : Obligations.NoReactionWaitsBetweenCommands := by
  intro s h
  unfold step
  split
  · exact State.tickOn_todo h
  · next c cs _ => exact exec_todo (s := { s with pending := cs }) h c

/-! ## Acknowledgement (09 R328) -/

/-- The sources that an acknowledgement takes: named, latched, and without an occurrence at the block's present tick. -/
theorem State.mem_ackable (k mask i : Nat) (s : State) : i ∈ s.ackable k mask ↔
    i < 16 ∧ mask.testBit i = true ∧ ((s.blk k).src i).latched = true ∧ ((s.blk k).src i).last < s.bnow k := by
  simp only [State.ackable, List.mem_filter, List.mem_range, Bool.and_eq_true, decide_eq_true_eq, and_assoc]

/-- An acknowledgement at a block of the hub changes that record of its source only; its event is no part of a block. -/
theorem State.ackOne_blks {k : Nat} (hk : k < 35 ∨ 50 < k) (i : Nat) (s : State) : (s.ackOne k i).blks =
    (s.modSrc k i fun x => { x with latched := false, count := 0 }).blks := by
  unfold State.ackOne
  dsimp only
  rw [if_neg (by omega)]
  rfl

/-- What FAULT_ACK leaves of a block: its sources acknowledged, and the scopes that waited for them ended. -/
def State.acked (k mask : Nat) (s : State) : State :=
  let is := s.ackable k mask
  let v := forAll (State.ackOne k) is s
  let t := k - 35
  (if 35 ≤ k ∧ k ≤ 50 then (if is.contains 8 then v.endOrphans t else v).endWatchdog t else v).endNet

theorem State.ackBlk_acks {k : Nat} {s : State} (hl : 35 ≤ k ∧ k ≤ 50 → (s.tile (k - 35)).lost = false) (mask : Nat) :
    s.ackBlk k mask = (s.acked k mask, some (Reply.ok (payload
      [(16, 2, (s.ackable k mask).foldl (fun n i => n + 1 <<< i) 0), (18, 2, presentMask ((s.acked k mask).blk k).srcs)]))) := by
  refine if_neg fun ⟨hlo, hhi, hlost⟩ => ?_
  rw [hl ⟨hlo, hhi⟩] at hlost
  exact Bool.false_ne_true hlost

/-- Settles O18: FAULT_ACK needs no tile to serve, and acts by `State.ackBlk_acks`. -/
theorem faultAckClearsNamedLatchedSources : Obligations.FaultAckClearsNamedLatchedSources := by
  intro h mask s hs harg hlost b is v t w
  refine ⟨?_, fun i => State.mem_ackable _ _ i b, fun k i u hk => State.ackOne_blks hk i u⟩
  exact next_onRing_completes (c := fun _ => { bad := argBad h.arg 55, early := true }) hs (argBad_none harg)
    (fun _ ht => nomatch ht) rfl (State.ackBlk_acks (by rwa [State.begins_tile]) mask)

/-! ## Fault sources (09 R327) and the self-check (09 R338) -/

section
variable {k i : Nat} {s : State}

/-- A source whose condition is over and that last occurred 1 ms ago stops being present. -/
theorem State.presentEnd_ends (hc : s.condHolds k i = false) (ht : ((s.blk k).src i).last + ms ≤ s.bnow k) :
    s.presentEnd k i = s.endPresent k i := if_pos (by rw [hc, decide_eq_true ht]; rfl)

/-- Any other stays as it is. -/
theorem State.presentEnd_stays (h : s.condHolds k i = true ∨ s.bnow k < ((s.blk k).src i).last + ms) :
    s.presentEnd k i = s := by
  refine if_neg ?_
  obtain hc | ht := h
  · rw [hc]
    exact Bool.false_ne_true
  · rw [decide_eq_false (Nat.not_le.2 ht), Bool.and_false]
    exact Bool.false_ne_true

/-- Scope 2 of a tile with its block as a cause; the first cause stays while the scope does (09 R341). -/
def Safety.blocked (c : Cause) (f : Safety) : Safety :=
  { f with blk := true, cause := if f.off || f.blk then f.cause else c }

section
variable {t : Nat} (c : Cause)

theorem State.enterBlock_of_block : s.enterBlock t false c =
    if (s.tile t).saf.off || (s.tile t).saf.blk then s.enterScope t (Safety.blocked c)
    else (s.enterScope t (Safety.blocked c)).scopeEvent t 3 2 c := by
  have hf : (fun f : Safety => { f with
      off := f.off || false, blk := f.blk || !false, cause := if f.off || f.blk then f.cause else c }) =
      Safety.blocked c := by
    funext f
    rw [Bool.or_false, Bool.not_false, Bool.or_true]
    rfl
  unfold State.enterBlock
  dsimp only
  rw [hf]

theorem State.enterBlock_first (ho : (s.tile t).saf.off = false) (hb : (s.tile t).saf.blk = false) :
    s.enterBlock t false c = (s.enterScope t (Safety.blocked c)).scopeEvent t 3 2 c :=
  (State.enterBlock_of_block c).trans (if_neg (by rw [ho, hb]; exact Bool.false_ne_true))

theorem State.enterBlock_again (h : (s.tile t).saf.off = true ∨ (s.tile t).saf.blk = true) :
    s.enterBlock t false c = s.enterScope t (Safety.blocked c) :=
  (State.enterBlock_of_block c).trans (if_pos (Bool.or_eq_true_iff.2 h))

end

theorem State.selfchk_of_equal (k : Nat) : s.selfchk k 0 = s := if_pos rfl

/-- A block whose status copies differ, in its own safe state with its SELFCHK fault. -/
def State.mismatched (k diff : Nat) (s : State) : State :=
  (s.raise k 15 0 diff 0).modBlk k fun x => { x with safe := true }

section
variable {diff : Nat} (hd : diff ≠ 0)
include hd

/-- A difference puts its block into its safe state: the streams of a pipeline end, and a tile is in scope 2. -/
theorem State.selfchk_of_difference : s.selfchk k diff =
    if 19 ≤ k ∧ k ≤ 34 then (s.mismatched k diff).stopWhere (k - 19) 3 fun _ => true
    else if 35 ≤ k ∧ k ≤ 50 then
      (s.mismatched k diff).enterBlock (k - 35) false ((s.mismatched k diff).causeOf k 15)
    else s.mismatched k diff := if_neg hd

theorem State.selfchk_of_other (hk : k < 19 ∨ 50 < k) : s.selfchk k diff = s.mismatched k diff :=
  (State.selfchk_of_difference hd).trans ((if_neg (by omega)).trans (if_neg (by omega)))

theorem State.selfchk_of_pipe (hlo : 19 ≤ k) (hhi : k ≤ 34) :
    s.selfchk k diff = (s.mismatched k diff).stopWhere (k - 19) 3 fun _ => true :=
  (State.selfchk_of_difference hd).trans (if_pos ⟨hlo, hhi⟩)

theorem State.selfchk_of_tile (hlo : 35 ≤ k) (hhi : k ≤ 50) : s.selfchk k diff =
    (s.mismatched k diff).enterBlock (k - 35) false ((s.mismatched k diff).causeOf k 15) :=
  (State.selfchk_of_difference hd).trans ((if_neg (by omega)).trans (if_pos ⟨hlo, hhi⟩))

end
end

/-! ## ALIVE (09 R348, Table 9-11) and the hub's temperature (12 R422) -/

section
variable {s : State}

theorem State.gateServe_of_service (hg : s.dev.grave = false) :
    s.gateServe = { s with dev := { s.dev with gateAt := s.now, gateOk := true } } :=
  if_neg (by rw [hg]; exact Bool.false_ne_true)

theorem State.gateServe_of_grave (hg : s.dev.grave = true) : s.gateServe = s := if_pos hg

theorem State.gateMiss_of_late (ht : s.dev.gateAt + ms ≤ s.now) :
    s.gateMiss = { s with dev := { s.dev with gateOk := false } } := if_pos ht

theorem State.gateMiss_in_time (ht : s.now < s.dev.gateAt + ms) : s.gateMiss = s := if_neg (Nat.not_le.2 ht)

theorem State.aliveEdge_toggles (hn : s.now % 50000 = 0) (hw : s.aliveWhy = 0) :
    s.aliveEdge = { s with dev := { s.dev with aliveLevel := !s.dev.aliveLevel } } := if_pos ⟨hn, hw⟩

theorem State.aliveEdge_holds (h : s.now % 50000 ≠ 0 ∨ s.aliveWhy ≠ 0) : s.aliveEdge = s :=
  if_neg (not_and_or.2 h)

/-- The hub's junction temperature as it is stored. -/
def State.heated (tj : Int) (s : State) : State :=
  { s with therm := { tj := tj, hot := decide (1250 < tj), hotSeen := s.therm.hotSeen || decide (1250 < tj) } }

variable {tj : Int}

theorem State.hubTemp_of_same (h : decide (1250 < tj) = s.therm.hot) : s.hubTemp tj = s.heated tj := by
  unfold State.hubTemp
  dsimp only
  rw [h, if_neg (by cases s.therm.hot <;> decide), if_neg (by cases s.therm.hot <;> decide), ← h]
  rfl

theorem State.hubTemp_rises (hh : decide (1250 < tj) = true) (hw : s.therm.hot = false) :
    s.hubTemp tj = (s.heated tj).raise 54 8 0 (toField 16 (roundHalfEven tj 10)) 0 :=
  if_pos (by rw [hh, hw]; rfl)

theorem State.hubTemp_falls (hh : decide (1250 < tj) = false) (hw : s.therm.hot = true) :
    s.hubTemp tj = (s.heated tj).endPresent 54 8 :=
  (if_neg (by rw [hh]; exact Bool.false_ne_true)).trans (if_pos (by rw [hh, hw]; rfl))

/-! ## The Archive's windows (09 R351) and the persistent log (09 R352) -/

theorem State.windowEnd_between (hn : s.now % 1000000 ≠ 0) : s.windowEnd = s := if_pos hn

/-- A stratum whose window ends without a summary counts anew. -/
def Stratum.calmed (A : Stratum) : Stratum := { A with winCnt := 0, coal := sat 0xFFFFFFFF A.coal }

/-- Where no summary waits, the end of the window only counts strata 1 to 3 anew. -/
theorem State.windowEnd_of_calm (hn : s.now % 1000000 = 0) (hst : (s.arch.all fun A => A.storms.isEmpty) = true)
    (hlen : s.arch.length = 4) :
    s.windowEnd = { s with arch := mapFrom (fun n A => if n = 0 then A else A.calmed) 0 s.arch } := by
  obtain ⟨A, B, C, D, ha⟩ := List.length_eq_four.1 hlen
  simp only [ha, List.all_cons, List.all_nil, Bool.and_true, Bool.and_eq_true, List.isEmpty_iff] at hst
  obtain ⟨-, hB, hC, hD⟩ := hst
  unfold State.windowEnd
  rw [if_neg (not_not.2 hn)]
  simp [forAll, ha, updAt, mapFrom, Stratum.calmed, hB, hC, hD]

variable (fails : Bool)

theorem State.mirrorWrite_of_none (h : s.per.plog.ready = false ∨ s.per.plog.queue = []) : s.mirrorWrite fails = s := by
  refine if_pos ?_
  obtain h | h := h
  · rw [h]
    rfl
  · rw [h, List.isEmpty_nil, Bool.or_true]

section
variable (hr : s.per.plog.ready = true) (hq : s.per.plog.queue ≠ [])
include hr hq

/-- A log that is ready and has something queued writes it, or reports that it could not. -/
theorem State.mirrorWrite_of_queued : s.mirrorWrite fails =
    if fails then
      ({ s with per := { s.per with plog := { s.per.plog with failed := true } } } : State).raise 54 7 0 (Config.storeArea 2) 0
    else
      let u : State := { s with per := { s.per with plog :=
        { s.per.plog.writeOne (if s.per.plog.queue.any (fun x => decide (x.1 = 0)) then 0 else 1) with failed := false } } }
      if s.per.plog.failed then u.endPresent 54 7 else u :=
  if_neg (by rw [hr, Bool.not_true, Bool.false_or, List.isEmpty_iff]; exact hq)

theorem State.mirrorWrite_fails : s.mirrorWrite true =
    ({ s with per := { s.per with plog := { s.per.plog with failed := true } } } : State).raise 54 7 0 (Config.storeArea 2) 0 :=
  State.mirrorWrite_of_queued true hr hq

theorem State.mirrorWrite_writes (hf : s.per.plog.failed = false) : s.mirrorWrite false =
    { s with per := { s.per with plog :=
      { s.per.plog.writeOne (if s.per.plog.queue.any (fun x => decide (x.1 = 0)) then 0 else 1) with failed := false } } } :=
  (State.mirrorWrite_of_queued false hr hq).trans <| (if_neg Bool.false_ne_true).trans (if_neg (by rw [hf]; exact Bool.false_ne_true))

end
end

/-- Settles O57: each happening acts at its tick, by the lemma on its operation. -/
theorem faultSourcesNetAliveArchiveAndLogFollowTheirHappenings :
    Obligations.FaultSourcesNetAliveArchiveAndLogFollowTheirHappenings := by
  intro τ s hs b l
  refine ⟨fun k i => ⟨?_, ?_⟩, ?_, fun k diff hd => ⟨?_, ?_, fun hlo hhi => ?_⟩, ?_, ?_, ?_, ?_, ?_, ?_, ?_, ?_,
    fun tj => ⟨?_, ?_, ?_⟩, ?_, ?_, ?_, ?_, ?_⟩
  · exact fun hc ht => next_onTick hs (State.presentEnd_ends hc ht)
  · exact fun h => next_onTick hs (State.presentEnd_stays h)
  · exact fun k => next_onTick hs (State.selfchk_of_equal k)
  · exact fun hk => next_onTick hs (State.selfchk_of_other hd hk)
  · exact fun hlo hhi => next_onTick hs (State.selfchk_of_pipe hd hlo hhi)
  · have htile := State.selfchk_of_tile (s := b) hd hlo hhi
    exact ⟨fun ho hb => next_onTick hs (htile.trans (State.enterBlock_first _ ho hb)),
      fun h => next_onTick hs (htile.trans (State.enterBlock_again _ h))⟩
  · exact next_onTick hs rfl
  · exact next_onTick hs rfl
  · exact fun hg => next_onTick hs (State.gateServe_of_service hg)
  · exact fun hg => next_onTick hs (State.gateServe_of_grave hg)
  · exact fun ht => next_onTick hs (State.gateMiss_of_late ht)
  · exact fun ht => next_onTick hs (State.gateMiss_in_time ht)
  · exact fun hn hw => next_onTick hs (State.aliveEdge_toggles hn hw)
  · exact fun h => next_onTick hs (State.aliveEdge_holds h)
  · exact fun h => next_onTick hs (State.hubTemp_of_same h)
  · exact fun hh hw => next_onTick hs (State.hubTemp_rises hh hw)
  · exact fun hh hw => next_onTick hs (State.hubTemp_falls hh hw)
  · exact fun hn => next_onTick hs (State.windowEnd_between hn)
  · exact fun hn hst hlen => next_onTick hs (State.windowEnd_of_calm hn hst hlen)
  · exact fun h f => next_onTick hs (State.mirrorWrite_of_none f h)
  · exact fun hr hq => next_onTick hs (State.mirrorWrite_fails hr hq)
  · exact fun hr hq hf => next_onTick hs (State.mirrorWrite_writes hr hq hf)

end Sys2Proof.Machine
end

section
/-!
PROOFS. The bytes of the store (01 Table 1-8; 10 R362, R365): its canonical form under every step, and what IMAGE_WRITE stores.
-/
namespace Sys2Proof.Machine

/-! ## A command that writes the store -/

/-- A command that is refused keeps the bytes and the identity words, whatever its effect would have been. -/
theorem State.begin_kept_of_refuses {h : Hdr} {op : Nat} {c : Cmd} {act : State → State × Option Reply} {s : State} {r : Reply}
    (hr : s.refuses h c = some r) : (s.begin_ h op c act).per.kept = s.per.kept := by
  have hb : s.begin_ h op c act = s.begin_ h op c fun u => (u, none) := by
    unfold State.begin_
    rw [hr]
  rw [hb]
  exact State.begin__kept _ _ _ _ _ fun _ => rfl

/-- The bytes and identity words that a ring command leaves are those it found, or those its effect leaves of them: its fetch,
its refusal, its wait and its completion keep them. -/
theorem State.runCmd_kept_cases (h : Hdr) (op : Nat) (c : Cmd) (act : State → State × Option Reply) (s : State) :
    (s.runCmd h op c act).per.kept = s.per.kept ∨
      ∃ u : State, u.per.kept = s.per.kept ∧ (s.runCmd h op c act).per.kept = (act u).1.per.kept := by
  have ht := State.taken_kept h op s
  obtain ⟨_, e⟩ | e | ⟨r, hr, e⟩ | ⟨fs, e⟩ | ⟨_, e⟩ := s.runCmd_cases h op c act
  · exact .inl (congrArg (·.per.kept) e)
  · exact .inl (e ▸ ht)
  · exact .inl (e ▸ (State.begin_kept_of_refuses ((State.taken_refuses ..).trans hr)).trans ht)
  · exact .inl (e ▸ ht)
  · refine .inr ⟨(((s.taken h op).begun h).cmdMargin h op).rouse (((s.taken h op).engOf op h.arg).getD 54), by simp, ?_⟩
    rw [e]
    dsimp only
    split
    · exact State.reply_kept _ _ _ _
    · rfl

/-- A ring command keeps the canonical form where its effect does. -/
theorem State.onRing_wf (h : Hdr) (op : Nat) (c : State → Cmd) {act : State → State × Option Reply} {s : State}
    (hact : ∀ u : State, Memory.wf u.per.cells = true → Memory.wf (act u).1.per.cells = true)
    (hw : Memory.wf s.per.cells = true) : Memory.wf (s.onRing h op c act).per.cells = true := by
  unfold State.onRing State.onTick
  split
  · have ha := State.cells_of_kept (State.advance_kept h.at_ s)
    rw [State.cells_of_kept (State.finish_kept _)]
    obtain e | ⟨u, hu, e⟩ := (s.advance h.at_).runCmd_kept_cases h op (c (s.advance h.at_)) act
    · rwa [State.cells_of_kept e, ha]
    · rw [State.cells_of_kept e]
      exact hact u (by rwa [State.cells_of_kept hu, ha])
  · exact hw

/-! ## Every step -/

/-- Every command keeps the canonical form: all but two keep the bytes themselves. -/
theorem exec_wf (i : Instr) {s : State} (hw : Memory.wf s.per.cells = true) :
    answer (exec i s) fun v => Memory.wf v.per.cells = true := by
  cases hi : i.writesStore with
  | false => exact answer_mono (fun v hv => by rwa [State.cells_of_kept hv]) (exec_kept i s hi)
  | true =>
    unfold Instr.writesStore at hi
    split at hi
    · exact State.onRing_wf _ _ _ (fun _ => State.imageWrite_wf _ _ _ _ _ _) hw
    · exact State.onRing_wf _ _ _ (fun _ => State.imageVerify_wf _ _ _) hw
    · cases hi

/-- Settles O7: an idle step keeps the bytes, and a command keeps their canonical form. -/
theorem storeStaysCanonical : Obligations.StoreStaysCanonical := by
  intro s hw
  unfold step
  split
  · exact (congrArg Memory.wf (State.cells_of_kept (State.tickOn_kept s))).trans hw
  · next c cs _ => exact exec_wf (s := { s with pending := cs }) c hw

/-! ## IMAGE_WRITE (10 R365, Table 10-9) -/

/-- The state in which a download stores its bytes: the session is the port's, STAGE is WRITING, and so is the record of the
standby bank where the bytes go there. -/
def State.writing (p : PortId) (kiln : Bool) (s : State) : State :=
  let w : State := { s with upd := { s.upd with session := some p, stage := .writing, idleAt := none } }
  if kiln then w else w.modRec s.standby fun r => { r with st := .writing, nextBoot := false }

/-- Where a download to the Kiln or the standby bank begins. -/
def State.loadBase (kiln : Bool) (s : State) : Nat := if kiln then kilnBase else bankBase s.standby

section
variable (p : PortId) (kiln : Bool) (s : State)

@[simp] theorem State.modRec_upd (b : Nat) (f : BankRec → BankRec) : (s.modRec b f).upd = s.upd := by
  unfold State.modRec
  split <;> rfl

theorem State.writing_stage : (s.writing p kiln).upd.stage = .writing := by
  unfold State.writing
  split
  · rfl
  · rw [State.modRec_upd]

theorem State.writing_cells : (s.writing p kiln).per.cells = s.per.cells := by
  unfold State.writing
  split
  · rfl
  · rw [State.modRec_cells]

end

theorem State.imageWrite_stores {h : Hdr} {kiln : Bool} {offset len : Nat} {bytes : List Byte} {s : State}
    (hb : s.upd.stage.busy = false) : s.imageWrite h kiln offset len bytes false =
      ((s.writing h.port kiln).storePut (s.loadBase kiln + offset) (bytes.take len), some (Reply.ok 0)) :=
  if_neg (by rw [hb]; exact Bool.false_ne_true)

/-- A length that IMAGE_WRITE takes is the number of bytes that it carries. -/
theorem length_of_writeBad_none {kiln : Bool} {offset len : Nat} {bytes : List Byte}
    (hw : writeBad kiln offset len bytes = none) : bytes.length = len := by
  by_contra hne
  unfold writeBad at hw
  rw [if_pos (c := len < 64 ∨ _) (.inr (.inr (.inr hne)))] at hw
  split_ifs at hw

/-- The standby bank follows from the phase, the records and the running image alone. -/
theorem State.begins_standby (h : Hdr) (op : Nat) (s : State) : (s.begins h op).standby = (s.advance h.at_).standby := by
  simp only [State.standby, State.currentBank, State.begins_start, State.begins_per, State.begins_upd, State.advance_start,
    State.advance_per, State.advance_upd]

/-- Settles O10: the command stores its bytes in one run, by `Memory.read_writeRun`. -/
theorem imageWriteStoresItsBytesAndNoOthers : Obligations.ImageWriteStoresItsBytesAndNoOthers := by
  intro h kiln offset len bytes s hl hw hs hb hbusy
  have hlen := length_of_writeBad_none hb
  have hcells : (s.begins h 0x80).per.cells = s.per.cells := by rw [State.begins_per]
  refine ⟨_, next_onRing_completes (c := fun s => { s.updNeeds h with
      bad := (s.sessionBad h).or ((writeBad kiln offset len bytes).map badField) }) hl ?_ (fun _ ht => nomatch ht) rfl
    (State.imageWrite_stores (by rwa [State.begins_upd])), State.writing_stage .., fun a => ?_⟩
  · dsimp only
    rw [hs, hb]
    rfl
  · have hbase : (s.begins h 0x80).loadBase kiln = if kiln then kilnBase else bankBase (s.advance h.at_).standby := by
      rw [State.loadBase, State.begins_standby]
    dsimp only
    rw [State.storePut, List.take_of_length_le hlen.le, State.writing_cells, hcells, Memory.read_writeRun _ _ hw, hlen, hbase]

end Sys2Proof.Machine
end

section
/-!
PROOFS. The end of a firmware update: activation live or by a restart, revert, recovery, the session's time-out, the switch of
the supervisor and the trial's expiry (10 R364, R367 to R373, R376, R381).
-/
namespace Sys2Proof.Machine

/-! ## Activation, revert and recovery (10 R367 to R373, R381) -/

/-- A completion changes no register of start-up. -/
@[simp] theorem State.reply_start (h : Hdr) (op : Nat) (r : Reply) (s : State) : (s.reply h op r).start = s.start := by
  unfold State.reply
  dsimp only
  split <;> simp only [State.modPort_start]

/-- The state in which a live activation begins: the session is the port's, the bank is TRIAL, and STAGE is ACTIVATING. -/
def State.activating (h : Hdr) (secs : Nat) (s : State) : State :=
  let r := (s.openSession h.port).modRec s.standby fun r => { r with st := .trial, nextBoot := false }
  { r with upd := { r.upd with
    stage := .activating, act := some h, liveTrial := true, rotated := 0, svDone := false, trialSecs := trialTime secs,
    trialEnd := none, idleAt := none } }

/-- The state that a restart activates: the bank is TRIAL for the next boot. -/
def State.trialNext (dflt : Bool) (secs : Nat) (s : State) : State :=
  let r := s.modRec s.standby fun r => { r with st := .trial, nextBoot := true }
  { r with upd := { r.upd with defaults := dflt, trialSecs := trialTime secs } }

section
variable {h : Hdr} {secs : Nat} {s : State}

section
variable (hsecs : secsBad secs = false) (ha : s.canActivate = true) (hd : s.digestsMatch s.standby = true)
include hsecs ha hd

theorem State.liveCmd_starts (ht : (s.tiles.any fun T => T.link.life ≠ .online) = false)
    (hf : s.liveFits (bankBase s.standby) (bankBase s.upd.runBank) = true) (he : (engNos.any fun n => (s.engine n).usable) = true) :
    s.liveCmd h false secs = ((s.activating h secs).loadDepot s.standby, none) := by
  unfold State.liveCmd State.activateLive
  simp only [hsecs, ha, hd, ht, hf, he, State.activating, Bool.or_false, Bool.and_false, Bool.not_true, Bool.false_eq_true,
    if_false]

theorem State.restartCmd_restarts (dflt : Bool) : s.restartCmd h dflt secs =
    (((s.trialNext dflt secs).reply h 0x82 (Reply.ok 0)).chipRestart, none) := by
  unfold State.restartCmd State.activateRestart
  simp only [hsecs, ha, hd, State.trialNext, Bool.and_false, Bool.not_true, Bool.false_eq_true, if_false]

end

theorem State.imageRevert_reverts (hs : s.upd.stage = .trial ∨ s.upd.stage = .activating) :
    s.imageRevert h = ((s.openSession h.port).revert 2 (some h), none) := if_pos hs

theorem State.imageRevert_not_ready (ht : s.upd.stage ≠ .trial) (ha : s.upd.stage ≠ .activating) :
    s.imageRevert h = (s, some { st := 4 }) := if_neg (not_or.2 ⟨ht, ha⟩)

theorem State.imageRecover_restarts : s.imageRecover h =
    State.chipRestart { s.reply h 0x85 (Reply.ok 0) with start := { s.start with wantRecovery := true } } := by
  unfold State.imageRecover
  dsimp only
  rw [State.reply_start]

theorem State.activateBad_none (hs : s.sessionBad h = none) (ho : s.peerOwns h.port 0 512 = none) : s.activateBad h = none := by
  rw [State.activateBad, hs, ho]
  rfl

end

/-- Settles O33: the commands need no tile, and act by the lemmas on their operations. -/
theorem activationRestartRevertAndRecovery : Obligations.ActivationRestartRevertAndRecovery := by
  intro h s hs
  refine ⟨fun ho => ?_, fun hl => ⟨fun hst => ?_, fun ht ha => ?_⟩⟩
  · have hbad := State.activateBad_none hs ho
    refine ⟨fun hl => ?_, fun dflt secs hl => ?_⟩
    · have hr := State.imageRecover_restarts (h := h) (s := s.begins h 0x85)
      rw [State.begins_start] at hr
      exact next_onRing_waits (c := fun s => { bad := s.activateBad h, locked := true }) hl hbad
        (fun _ ht => nomatch ht) rfl (Prod.ext hr rfl)
    · intro b hsecs ha hd
      refine ⟨fun ht hf he => ?_, ?_⟩
      · exact next_onRing_waits (c := fun s => { bad := s.activateBad h, locked := true }) hl hbad
          (fun _ ht => nomatch ht) rfl (State.liveCmd_starts hsecs ha hd ht (by rwa [State.begins_upd]) he)
      · exact next_onRing_waits (c := fun s => { bad := s.activateBad h, recov := true, locked := true }) hl hbad
          (fun _ ht => nomatch ht) rfl (State.restartCmd_restarts hsecs ha hd dflt)
  · exact next_onRing_waits (c := fun s => { bad := s.sessionBad h }) hl hs (fun _ ht => nomatch ht) rfl
      (State.imageRevert_reverts (by rwa [State.begins_upd]))
  · exact next_onRing_completes (c := fun s => { bad := s.sessionBad h }) hl hs (fun _ ht => nomatch ht) rfl
      (State.imageRevert_not_ready (by rwa [State.begins_upd]) (by rwa [State.begins_upd]))

/-! ## Happenings of the supervisor -/

section
variable {τ : Tick} {f : State → State} {s : State} (hs : s.power = .running)
include hs

/-- A happening of the supervisor outside the grave hold, from what its operation makes of the state at its tick. -/
theorem next_onSv {u : State} (hg : (s.advance τ).dev.grave = false) (h : f (s.advance τ) = u) :
    (.next (s.onSv τ f) : Host.Outcome State Fault Refusal) = .next u.finish := by
  rw [State.onSv_acts hs (by rwa [State.advance_dev] at hg), h]

/-- The supervisor does nothing in the grave hold (09 R339). -/
theorem next_onSv_of_grave (hg : (s.advance τ).dev.grave = true) :
    (.next (s.onSv τ f) : Host.Outcome State Fault Refusal) = .next (s.advance τ).finish := next_onTick hs (if_pos hg)

end

section
variable {s : State}

theorem State.sessionEnd_of_idle {x : Tick} (hx : s.upd.idleAt = some x) : s.sessionEnd =
    if x + 60 * sec ≤ s.now then { s with upd := { s.upd with session := none, idleAt := none } } else s := by
  rw [State.sessionEnd, hx]

/-! An activation whose supervisor part has not switched goes on with it, or is dropped (10 R369, R376). -/

section
variable (ha : s.upd.stage = .activating) (hd : s.upd.svDone = false)
include ha hd

theorem State.svSwitch_fails : s.svSwitch false = s.storeFail.dropActivation (1 - s.upd.runBank) 8 :=
  if_pos (by rw [ha, hd]; rfl)

theorem State.svSwitch_of_unreadable (hr : s.readable (1 - s.upd.runBank) = false) :
    s.svSwitch true = s.dropActivation (1 - s.upd.runBank) 11 := by
  simp [State.svSwitch, ha, hd, hr]

theorem State.svSwitch_switches (hr : s.readable (1 - s.upd.runBank) = true) :
    s.svSwitch true = { s with upd := { s.upd with svDone := true } } := by
  simp [State.svSwitch, ha, hd, hr]

end

theorem State.trialOver_of_due {x : Tick} (ht : s.upd.stage = .trial) (hx : s.upd.trialEnd = some x) (hn : x ≤ s.now) :
    s.trialOver = s.revert 3 none := by
  rw [State.trialOver, ht, hx]
  exact if_pos hn

theorem State.trialOver_of_not_due {x : Tick} (hx : s.upd.trialEnd = some x) (h : s.upd.stage ≠ .trial ∨ s.now < x) :
    s.trialOver = s := by
  unfold State.trialOver
  split
  · next y ht hy =>
    obtain rfl : x = y := Option.some.inj (hx.symm.trans hy)
    exact if_neg (Nat.not_le.2 (h.resolve_left (not_not.2 ht)))
  · rfl

end

end Sys2Proof.Machine
end

section
/-!
PROOFS. The frames of a serial port: their start, their end and stray edges (11 R385, R393, R395 to R401, Table 11-3).
-/
namespace Sys2Proof.Machine

section
variable {n : Nat} {f : Frame} {s : State}

/-- The next frame of a free port is judged: its deadline, its port, its record, and it starts or leaves (11 R393, R395, R396,
R401). -/
def State.judgeFrame (n : Nat) (f : Frame) (s : State) : State :=
  let p := s.sps.getD n {}
  let cfg := p.sels.getD f.sel {}
  if s.past f.h then (s.raiseCmd f.h none).dropFrame n f { st := 5 }
  else if !p.en then s.dropFrame n f { st := 4 }
  else if f.fails then s.dropFrame n f { st := 8, rs := 8, ix := 16 }
  else match recBad f.fr cfg f.resAddr with
    | some i => s.dropFrame n f (badField i)
    | none => s.modSp n fun p => { p with wait := p.wait.drop 1, cur := some { f with s := s.now, cfg := cfg } }

theorem State.startFrame_of_wait {fs : List Frame} (hc : (s.sps.getD n {}).cur = none) (hw : (s.sps.getD n {}).wait = f :: fs) :
    s.startFrame n = if s.now < (s.sps.getD n {}).free ∨ s.dev.grave = true then s else s.judgeFrame n f := by
  unfold State.startFrame
  dsimp only
  rw [hc, hw]
  simp only [Bool.or_eq_true, decide_eq_true_eq]
  rfl

theorem State.judgeFrame_of_past (hp : s.past f.h = true) :
    s.judgeFrame n f = (s.raiseCmd f.h none).dropFrame n f { st := 5 } := if_pos hp

section
variable (hp : s.past f.h = false)
include hp

theorem State.judgeFrame_of_disabled (he : (s.sps.getD n {}).en = false) : s.judgeFrame n f = s.dropFrame n f { st := 4 } := by
  unfold State.judgeFrame
  simp only [hp, he, Bool.not_false, Bool.false_eq_true, if_false, if_true]

section
variable (he : (s.sps.getD n {}).en = true)
include he

theorem State.judgeFrame_of_unread (hu : f.fails = true) : s.judgeFrame n f = s.dropFrame n f { st := 8, rs := 8, ix := 16 } := by
  unfold State.judgeFrame
  simp only [hp, he, hu, Bool.not_true, Bool.false_eq_true, if_false, if_true]

section
variable (hu : f.fails = false)
include hu

theorem State.judgeFrame_of_bad {i : Nat} (hr : recBad f.fr ((s.sps.getD n {}).sels.getD f.sel {}) f.resAddr = some i) :
    s.judgeFrame n f = s.dropFrame n f (badField i) := by
  unfold State.judgeFrame
  simp only [hp, he, hu, hr, Bool.not_true, Bool.false_eq_true, if_false]

theorem State.judgeFrame_starts (hr : recBad f.fr ((s.sps.getD n {}).sels.getD f.sel {}) f.resAddr = none) :
    s.judgeFrame n f = s.modSp n fun p => { p with
      wait := p.wait.drop 1, cur := some { f with s := s.now, cfg := (s.sps.getD n {}).sels.getD f.sel {} } } := by
  unfold State.judgeFrame
  simp only [hp, he, hu, hr, Bool.not_true, Bool.false_eq_true, if_false]

end
end
end

/-- The frame's return clock is counted (11 R398). -/
def Frame.counts (f : Frame) : Bool := f.cfg.ret = 1 || f.cfg.ret = 2

/-- The edges counted are not those of the cycles driven (11 R398). -/
def Frame.miscounts (edges : Nat) (f : Frame) : Bool := f.counts && edges ≠ 2 * f.driven

/-- The port after frame `f` has ended: free after the gap of its select. -/
def SPort.after (f : Frame) (edges : Nat) (p : SPort) : SPort :=
  { p with
    cur := none, frames := (p.frames + 1) % 65536, edgeErr := if f.miscounts edges then satInc 0xFFFF p.edgeErr else p.edgeErr,
    free := f.rise + f.cfg.gap, idleHigh := decide (2 ≤ f.cfg.mode) }

/-- What a frame that ends completes with (11 Table 11-4). -/
def Frame.ended (edges : Nat) (f : Frame) : Reply :=
  { st := if f.abortAt.isSome then 6 else if f.miscounts edges then 8 else 0,
    pl := payload [(16, 2, f.words.1), (18, 1, f.words.2),
      (19, 1, b2n (f.miscounts edges) + 2 * b2n f.abortAt.isSome + 16 * f.phase),
      (20, 4, if f.counts then edges else 0), (24, 4, f.s)] }

/-- Frame `f` of port `n` has ended: the port is free again, and the words read are in host memory (11 R394, R397 to R400). -/
def State.frameOver (n : Nat) (f : Frame) (ws : List Word) (edges : Nat) (s : State) : State :=
  let a := s.modSp n (SPort.after f edges)
  if recReads f.fr && (s.port f.h.port).live && !s.dev.grave then
    a.modPort f.h.port fun P => { P with out := P.out ++ [.words f.resAddr (f.results ws)] }
  else a

section
variable (ws : List Word) (edges : Nat)

theorem State.endFrame_of_none (hc : (s.sps.getD n {}).cur = none) : s.endFrame n ws edges = s := by
  rw [State.endFrame, hc]

theorem State.endFrame_of_cur (hc : (s.sps.getD n {}).cur = some f) : s.endFrame n ws edges =
    if s.now < f.rise then s else (s.frameOver n f ws edges).reply f.h 0x60 (f.ended edges) := by
  rw [State.endFrame, hc]
  rfl

end
end

/-- Settles O58: the supervisor's happenings act outside the grave hold, the serial port's at their tick, by the lemmas on their
operations. -/
theorem sessionActivationTrialAndFramesEnd : Obligations.SessionActivationTrialAndFramesEnd := by
  intro τ n s hs b P
  refine ⟨fun hg => ⟨next_onSv_of_grave hs hg, next_onSv_of_grave hs hg, fun _ => next_onSv_of_grave hs hg⟩,
    fun x hg hx => ⟨fun ht => ?_, fun ht => ?_⟩, fun hg ha hd => ?_, fun x hg hx => ⟨fun ht hn => ?_, fun h => ?_⟩,
    fun f fs hc hw => ?_, fun f ws edges hc => ⟨fun ht => ?_, fun ht => ?_⟩, fun hc ws edges => ?_, next_onTick hs rfl⟩
  · exact next_onSv hs hg ((State.sessionEnd_of_idle hx).trans (if_pos ht))
  · exact next_onSv hs hg ((State.sessionEnd_of_idle hx).trans (if_neg (Nat.not_le.2 ht)))
  · exact ⟨next_onSv hs hg (State.svSwitch_fails ha hd), fun hr => next_onSv hs hg (State.svSwitch_of_unreadable ha hd hr),
      fun hr => next_onSv hs hg (State.svSwitch_switches ha hd hr)⟩
  · exact next_onSv hs hg (State.trialOver_of_due ht hx hn)
  · exact next_onSv hs hg (State.trialOver_of_not_due hx h)
  · have hstart := State.startFrame_of_wait hc hw
    refine ⟨fun h => next_onTick hs (hstart.trans (if_pos h)), fun hf hg => ?_⟩
    have judged {u : State} (h : b.judgeFrame n f = u) : exec (.spFrameStart τ n) s = .next u.finish :=
      next_onTick hs ((hstart.trans (if_neg (not_or.2 ⟨Nat.not_lt.2 hf, by rw [hg]; exact Bool.false_ne_true⟩))).trans h)
    exact ⟨fun hp => judged (State.judgeFrame_of_past hp), fun hp he => judged (State.judgeFrame_of_disabled hp he),
      fun hp he hu => judged (State.judgeFrame_of_unread hp he hu),
      fun hp he hu => ⟨fun i hr => judged (State.judgeFrame_of_bad hp he hu hr),
        fun hr => judged (State.judgeFrame_starts hp he hu hr)⟩⟩
  · exact next_onTick hs ((State.endFrame_of_cur ws edges hc).trans (if_pos ht))
  · exact next_onTick hs ((State.endFrame_of_cur ws edges hc).trans (if_neg (Nat.not_lt.2 ht)))
  · exact next_onTick hs (State.endFrame_of_none ws edges hc)

end Sys2Proof.Machine
end

section
/-!
PROOFS. The commands of a serial port: a frame queued, and the frames of a port aborted (11 R396, R399, R401).
-/
namespace Sys2Proof.Machine

/-- A port that is enabled takes the frame at the end of its queue (11 R396, R401). -/
theorem State.queueFrame_of_enabled {h : Hdr} {r : FrameRec} {resAddr : Nat} {fails : Bool} {s : State}
    (he : (s.sps.getD (h.arg / 4) {}).en = true) :
    s.queueFrame h r resAddr fails = (s.modSp (h.arg / 4) fun p => { p with
      wait := p.wait ++ [{ h := h, sel := h.arg % 4, fr := r, resAddr := resAddr, fails := fails }] }, none) :=
  if_neg (by rw [he]; exact Bool.false_ne_true)

/-- An abort at `now` ends the frame in progress: it is not aborted yet, and an edge of it is still to come (11 R399). -/
def SPort.abortHits (now : Tick) (p : SPort) : Bool :=
  match p.cur with
  | some f => f.abortAt.isNone && decide (now ≤ f.lastEdge (recTotal f.fr))
  | none => false

/-- What an abort does to port `p` of number `n`: its queue is emptied, each frame of it completes with ABORTED in order, the
frame in progress is marked where the abort ends it, and the completion counts them all (11 R399). -/
theorem State.abortFrames_of_port {n : Nat} {p : SPort} {s : State} (hp : s.sps.getD n {} = p) :
    s.abortFrames n =
      (forAll (fun (f : Frame) u => u.reply f.h 0x60 { st := 6, pl := payload [(19, 1, 2)] }) p.wait (s.modSp n fun q => { q with
          wait := [], cur := if p.abortHits s.now then q.cur.map fun f => { f with abortAt := some s.now } else q.cur }),
        some (Reply.ok (payload [(16, 1, p.wait.length + b2n (p.abortHits s.now))]))) := by
  subst hp
  rfl

/-- Settles O30: both commands need no tile, and act by the lemmas on their operations; to begin leaves the ports as they were. -/
theorem serialCommandsQueueAndAbortFrames : Obligations.SerialCommandsQueueAndAbortFrames := by
  intro h s
  constructor
  · intro rec resAddr fails hl harg he
    have hen : ((s.begins h 0x60).sps.getD (h.arg / 4) {}).en = true := by rwa [State.begins_sps]
    exact next_onRing_waits (c := fun _ => { bad := argBad h.arg 64, own := [(4, h.arg / 4)] }) hl (argBad_none harg)
      (fun _ ht => nomatch ht) rfl (State.queueFrame_of_enabled hen)
  · intro hl harg b p hit stopped
    have hp : b.sps.getD h.arg {} = p := by rw [State.begins_sps]
    exact next_onRing_completes (c := fun _ => { bad := argBad h.arg 16, own := [(4, h.arg)] }) hl (argBad_none harg)
      (fun _ ht => nomatch ht) rfl (State.abortFrames_of_port hp)

end Sys2Proof.Machine
end

section
/-!
PROOFS. What the commands that write no register and restart nothing leave as it was: the settings, and the lock, ownership,
supplies, temperature and power (02 R50; 07 R281; 12 R409, R417; 14 R442, R445). And the device that does not run.
-/
namespace Sys2Proof.Machine

/-! ## A command's own effect and what may follow it -/

/-- A state in which `P` holds, with what may follow it within the step: nothing, the step's end, or, after a happening of
rotations and repairs, the commands that waited and the step's end. -/
def State.EndsFrom (resumes : Bool) (P : State → Prop) (v : State) : Prop :=
  ∃ u, P u ∧ (v = u ∨ v = u.finish ∨ (resumes = true ∧ v = u.runWaiting.finish))

/-- A command that either brings a stress beyond the ratings or answers a state that has the property. -/
theorem answer_unless_fault {c : Prop} [Decidable c] {x : Fault} {v : State} {P : State → Prop} (h : P v) :
    answer (if c then .fault x else .next v) P := by
  split
  · trivial
  · exact h

/-- `P` depends on a state by what `X` reads of it, time passing keeps `P`, and the frames of a command's place keep `X`. -/
structure State.Lasting {α : Type} (X : State → α) (P : State → Prop) : Prop where
  of_same : ∀ {u v : State}, X v = X u → P u → P v
  advance : ∀ (τ : Tick) {u : State}, P u → P (u.advance τ)
  rouse : ∀ (k : Nat) (u : State), X (u.rouse k) = X u
  runCmd : ∀ (h : Hdr) (op : Nat) (c : Cmd) {act : State → State × Option Reply}, (∀ u, X (act u).1 = X u) →
    ∀ u : State, X (u.runCmd h op c act) = X u

section
variable {α : Type} {X : State → α} {P : State → Prop} {r : Bool} {f : State → State} {s : State} {τ : Tick}
  (hP : State.Lasting X P) (hs : P s)
include hP hs

theorem State.Lasting.onTick (hf : ∀ u, X (f u) = X u) : State.EndsFrom r P (s.onTick τ f) := by
  unfold State.onTick
  split
  · exact ⟨_, hP.of_same (hf _) (hP.advance τ hs), .inr (.inl rfl)⟩
  · exact ⟨_, hs, .inl rfl⟩

theorem State.Lasting.onRing {h : Hdr} {op : Nat} {c : State → Cmd} {act : State → State × Option Reply}
    (hact : ∀ u, X (act u).1 = X u) : State.EndsFrom r P (s.onRing h op c act) :=
  hP.onTick hs fun _ => hP.runCmd _ _ _ hact _

theorem State.Lasting.onTile {t : Nat} (hf : ∀ u, X (f u) = X u) : State.EndsFrom r P (s.onTile τ t f) := by
  refine hP.onTick hs fun u => ?_
  split
  · exact (hf _).trans (hP.rouse _ _)
  · rfl

theorem State.Lasting.onPower {t : Nat} (hf : ∀ u, X (f u) = X u) : State.EndsFrom r P (s.onPower τ t f) := by
  refine hP.onTick hs fun u => ?_
  split
  · exact (hf _).trans (hP.rouse _ _)
  · rfl

theorem State.Lasting.onSv (hf : ∀ u, X (f u) = X u) : State.EndsFrom r P (s.onSv τ f) := by
  refine hP.onTick hs fun u => ?_
  split
  · rfl
  · exact hf _

theorem State.Lasting.onEngine (hf : ∀ u, X (f u) = X u) : State.EndsFrom true P (s.onEngine τ f) := by
  unfold State.onEngine State.onTick
  split
  · dsimp only
    split
    · exact ⟨_, hP.advance τ hs, .inr (.inl rfl)⟩
    · exact ⟨_, hP.of_same (hf _) (hP.advance τ hs), .inr (.inr ⟨rfl, rfl⟩)⟩
  · exact ⟨_, hs, .inl rfl⟩

end

/-! ## Settings -/

theorem State.lasting_settings (s : State) : State.Lasting State.settings fun u => u.settings = s.settings where
  of_same := Eq.trans
  advance τ _ := (State.advance_set τ _).trans
  rouse := State.rouse_set
  runCmd h op c _ hact u := State.runCmd_set h op c _ u hact

/-- The own effect of a command that may set nothing keeps every setting. The cases are grouped by where a command acts; each
place keeps the settings where the command's own operation does. -/
theorem exec_settings (i : Instr) (s : State) (hi : i.sets = false) :
    answer (exec i s) (State.EndsFrom i.resumes fun u => u.settings = s.settings) := by
  have hs := s.lasting_settings
  cases i
  -- ring commands
  case nop | timeRead | outSet | mirForceOff | mirForceOn | mirRelease | outCancel | chTrimSet | chTrimZero
      | chTrimSpan | chTrimReset | rfxStatus | seqDisarm | seqTrigger | inject | calibrate | calibrateExcl
      | streamStart | streamStop | streamSource | bankLoad | bankSelect | spFrame | spAbort | faultAck | logRead
      | tileOffline | tileReadmit | rotate | imageWrite | imageVerify | imageActivateLive | imageConfirm
      | settingsSave | imageErase | catRead | lock | unlock | claim | release | handover | takeover | ownerQuery
      | txnSubmit | txnCancel =>
    exact hs.onRing rfl fun u => by simp
  -- happenings inside a tile
  case refReady | sieveAccession | chatterWindowEnd | stuckTimeout | dicGateEnd | trimButtonHold | trimButtonStuck
      | offStateCheck | aoReadback | crailSample | seqTimerTrigger | heldTriggerRelease | slotStart | conversionEnd
      | rangingReattempt | dmdResult | scanDeadline | speculativeScanStart | specConfirmTimeout | injectStart
      | injectDeadline | calPeriodStart | calStep | refCompare =>
    exact hs.onTile rfl fun u => by simp
  -- happenings at the pins of a tile
  case inputCrossing | txnCommit | outputCommit | shortGndDetect | overloadRetry | thermalShutdown | thermalReenable
      | overDecl | openOn | darkPulse | surgeEnd | reenergiseSlot | aiiFoldback | aiiRetry | excitationCycleCheck
      | mirrorPeriodStart | tileTempSample =>
    exact hs.onPower rfl fun u => by simp
  -- rotations and repairs
  case rotationLoadEnd | rotationPrecopyEnd | rotationGapStart | rotationHandover | rotationGapTimeout
      | repairHandover | readmissionComplete =>
    exact hs.onEngine rfl fun u => by simp
  -- happenings of the supervisor
  case depotImageLoadEnd | trimSaveTimer | sessionTimeout | activationSvSwitch =>
    exact hs.onSv rfl fun u => by simp
  -- other happenings at a tick
  case doorbellPoll | nudge | descriptorFetch | commandWaitDeadline | msixMessage | ringError | portReset
      | portLiveChange | tbNowLoRead | barrierTransferStart | barrierTransferLoss | barrierTransferResume
      | deviceScopeEnd | syncEdge | syncLeadPulse | syncLost | trimCaptureTimeout | txnMemberArrival | txnReady
      | txnDecision | txnDecisionArrival | txnAccessionReport | outputActionArrival | lineChangeHub | lineChangeTile
      | watchdogService | watchdogExpiry | laneFailure | linkReturn | eventArrivalMerge | eventRelease
      | horizonEpisodeEnd | pipelineInput | blockTimeout | streamDeliveryDeadline | tileOfflineComplete | sramScrub
      | sramDoubleBitError | railAdjust | marginRecovery | retentionEntry | powerReportRenewal | presentEnd
      | selfchkCompare | netCheck | aliveGateService | aliveGateTimeout | hubTempSample | stormWindowEnd
      | plogMirrorWrite | spFrameStart | spFrameEnd | svLockstepMismatch | linkFrameCorrupted | sckrStrayEdge
      | pcieUncorrectableError | aliveEdge =>
    exact hs.onTick rfl fun u => by simp
  -- happenings that bring a voltage or current
  case pinClamp | surge =>
    exact answer_unless_fault (hs.onPower rfl fun u => by simp)
  case lplusSample => exact answer_unless_fault (hs.onTile rfl fun u => by simp)
  case supplyThreshold => exact answer_unless_fault (hs.onTick rfl fun u => by simp)
  -- supplies and pins that act while the device does not run
  case vkaLoss => exact ⟨_, (State.loseVka_set _).trans (State.advance_set _ _), .inl rfl⟩
  case wakeCrossing => exact ⟨_, State.wake_set s, .inl rfl⟩
  case fsafeFall | fsafeRise => exact hs.onTick (State.fsafePin_set _ _) fun u => by simp
  -- commands that may set
  all_goals exact Bool.noConfusion hi

/-- Settles O11, by the frame of every command that may set nothing. -/
theorem onlySettingCommandsChangeSettings : Obligations.OnlySettingCommandsChangeSettings := exec_settings

/-! ## Lock, ownership, supplies, temperature, power and the hub count -/

theorem State.control_inj {u v : State} : u.control = v.control ↔
    u.lock = v.lock ∧ u.own.tab = v.own.tab ∧ u.sup = v.sup ∧ u.therm = v.therm ∧ u.now = v.now ∧ u.power = v.power := by
  simp only [State.control, Prod.mk.injEq]

/-- What control reads of a state is what it was in `s`, but for a hub count that has not fallen. -/
def State.HeldSince (s u : State) : Prop := s.now ≤ u.now ∧ u.control = { s with now := u.now }.control

theorem State.heldSince_refl (s : State) : s.HeldSince s := ⟨Nat.le_refl _, rfl⟩

theorem State.HeldSince.of_control {s u v : State} (h : v.control = u.control) (hu : s.HeldSince u) : s.HeldSince v := by
  obtain ⟨_, _, _, _, hn, _⟩ := State.control_inj.1 h
  unfold State.HeldSince
  rw [hn, h]
  exact hu

theorem State.HeldSince.advance {s u : State} (τ : Tick) (hu : s.HeldSince u) : s.HeldSince (u.advance τ) := by
  obtain ⟨hn, hc⟩ := hu
  unfold State.advance
  split
  · obtain ⟨hlock, hown, hsup, htherm, _, hpower⟩ := State.control_inj.1 hc
    exact ⟨Nat.le_trans hn (Nat.le_max_left _ _), State.control_inj.2 ⟨hlock, hown, hsup, htherm, rfl, hpower⟩⟩
  · exact ⟨hn, hc⟩

theorem State.lasting_control (s : State) : State.Lasting State.control s.HeldSince where
  of_same := State.HeldSince.of_control
  advance τ _ := State.HeldSince.advance τ
  rouse := State.rouse_ctl
  runCmd h op c _ hact u := State.runCmd_ctl h op c _ u hact

/-- The own effect of a command that may not steer keeps what control reads. The cases are grouped by where a command acts;
each place keeps it where the command's own operation does. -/
theorem exec_control (i : Instr) (s : State) (hi : i.steers = false) :
    answer (exec i s) (State.EndsFrom i.resumes s.HeldSince) := by
  have hs := s.lasting_control
  cases i
  -- ring commands
  case nop | timeRead | chMode | outSet | mirForceOff | mirForceOn | mirRelease | outCancel | chTrimSet | chTrimZero
      | chTrimSpan | chTrimReset | rfxWrite | rfxEnable | rfxStatus | seqArm | seqDisarm | seqTrigger | inject
      | calibrate | calibrateExcl | streamStart | streamStop | streamSource | bankLoad | bankSelect | spFrame | spAbort | faultAck | logRead
      | tileOffline | tileReadmit | rotate | imageWrite | imageVerify | imageActivateLive | imageConfirm
      | settingsSave | imageErase | catRead | ownerQuery
      | txnSubmit | txnCancel =>
    exact hs.onRing s.heldSince_refl fun u => by simp
  -- happenings inside a tile
  case refReady | sieveAccession | chatterWindowEnd | stuckTimeout | dicGateEnd | trimButtonHold | trimButtonStuck
      | offStateCheck | aoReadback | crailSample | seqTimerTrigger | heldTriggerRelease | slotStart | conversionEnd
      | rangingReattempt | dmdResult | scanDeadline | speculativeScanStart | specConfirmTimeout | injectStart
      | injectDeadline | calPeriodStart | calStep | refCompare =>
    exact hs.onTile s.heldSince_refl fun u => by simp
  -- happenings at the pins of a tile
  case inputCrossing | txnCommit | outputCommit | shortGndDetect | overloadRetry | thermalShutdown | thermalReenable
      | overDecl | openOn | darkPulse | surgeEnd | reenergiseSlot | aiiFoldback | aiiRetry | excitationCycleCheck
      | mirrorPeriodStart | tileTempSample =>
    exact hs.onPower s.heldSince_refl fun u => by simp
  -- rotations and repairs
  case rotationLoadEnd | rotationPrecopyEnd | rotationGapStart | rotationHandover | rotationGapTimeout
      | repairHandover | readmissionComplete =>
    exact hs.onEngine s.heldSince_refl fun u => by simp
  -- happenings of the supervisor
  case depotImageLoadEnd | trimSaveTimer | sessionTimeout | activationSvSwitch =>
    exact hs.onSv s.heldSince_refl fun u => by simp
  -- other happenings at a tick
  case doorbellPoll | nudge | descriptorFetch | commandWaitDeadline | msixMessage | ringError | portReset
      | portLiveChange | tbNowLoRead | barrierTransferStart | barrierTransferLoss | barrierTransferResume
      | deviceScopeEnd | syncLeadPulse | syncLost | trimCaptureTimeout | txnMemberArrival | txnReady
      | txnDecision | txnDecisionArrival | txnAccessionReport | outputActionArrival | lineChangeHub | lineChangeTile
      | watchdogService | watchdogExpiry | laneFailure | linkReturn | eventArrivalMerge | eventRelease
      | horizonEpisodeEnd | pipelineInput | blockTimeout | streamDeliveryDeadline | tileOfflineComplete | sramScrub
      | sramDoubleBitError | railAdjust | marginRecovery | retentionEntry | powerReportRenewal | presentEnd
      | selfchkCompare | netCheck | aliveGateService | aliveGateTimeout | stormWindowEnd
      | plogMirrorWrite | spFrameStart | spFrameEnd | svLockstepMismatch | linkFrameCorrupted | sckrStrayEdge
      | pcieUncorrectableError | aliveEdge =>
    exact hs.onTick s.heldSince_refl fun u => by simp
  -- happenings that bring a voltage or current
  case pinClamp | surge =>
    exact answer_unless_fault (hs.onPower s.heldSince_refl fun u => by simp)
  case lplusSample => exact answer_unless_fault (hs.onTile s.heldSince_refl fun u => by simp)
  -- the pin that acts while the device does not run
  case fsafeFall | fsafeRise => exact hs.onTick (s.heldSince_refl.of_control (State.fsafePin_ctl _ _)) fun u => by simp
  -- commands that may steer
  all_goals exact Bool.noConfusion hi

/-- Settles O12, by the frame of every command that may not steer. -/
theorem onlyTheirCommandsChangeLockOwnersAndSupplies : Obligations.OnlyTheirCommandsChangeLockOwnersAndSupplies :=
  fun i s hi => answer_mono (fun _ ⟨u, ⟨hn, hc⟩, hv⟩ => ⟨u, hv, hn, hc⟩) (exec_control i s hi)

/-! ## The device that does not run (12 R409) -/

/-- A happening at a tick does nothing while the device does not run. -/
theorem next_onTick_stopped {τ : Tick} {f : State → State} {s : State} (hs : s.power ≠ .running) :
    (.next (s.onTick τ f) : Host.Outcome State Fault Refusal) = .next s :=
  congrArg _ (State.onTick_stopped hs)

/-- Settles O4: every command but those of `Instr.whileStopped` acts at its tick, or brings a value beyond the ratings. -/
theorem stoppedDeviceKeepsItsState : Obligations.StoppedDeviceKeepsItsState := by
  intro i s hs hi
  cases i
  case powerOn | brownOut | porstFall | startup | vkaLoss | fallowEntry | wakeCrossing | fsafeFall | fsafeRise => cases hi
  case pinClamp | surge | lplusSample | supplyThreshold =>
    simp only [exec, execPinClamp, execSurge, execLplusSample, execSupplyThreshold]
    split
    · exact .inr rfl
    · exact .inl (next_onTick_stopped hs)
  all_goals exact .inl (next_onTick_stopped hs)

end Sys2Proof.Machine
end

section
/-!
PROOFS. Ring commands of the hub: SETUP_LOCK (14 R445, R446), queries and reads (07 Table 7-7; 08 Table 8-7; 09 Table 9-17; 14
R449), and CAT_WRITE (14 R450).
-/
namespace Sys2Proof.Machine

/-! ## SETUP_LOCK (14 R445) -/

theorem satInc_eq_min (m n : Nat) : satInc m n = min m (n + 1) := by
  unfold satInc sat
  split <;> omega

section
variable {l : LockSt} {now : Tick} {p : PortId} {key : Nat}

theorem LockSt.judge_lock_of_free (hk : key ≠ 0) (hl : l.locked = false) :
    l.judge now { port := p, unlock := false, key := key } = ({ locked := true, port := p, key := key }, Reply.ok 1) := by
  simp [LockSt.judge, hk, hl]

theorem LockSt.judge_lock_of_no_key (hk : key = 0) :
    l.judge now { port := p, unlock := false, key := key } = (l, { badField 20 with pl := b2n l.locked }) := by
  simp [LockSt.judge, hk]

theorem LockSt.judge_lock_of_locked (hk : key ≠ 0) (hl : l.locked = true) :
    l.judge now { port := p, unlock := false, key := key } = (l, { st := 10, pl := 1 }) := by
  simp [LockSt.judge, hk, hl]

theorem LockSt.judge_unlock_of_free (hl : l.locked = false) :
    l.judge now { port := p, unlock := true, key := key } = (l, Reply.ok 0) := by
  simp [LockSt.judge, hl]

/-- Eight wrong keys and the last of them within the second before (14 R445). -/
def LockSt.timedOut (now : Tick) (l : LockSt) : Prop := 8 ≤ l.fails ∧ ∃ x, l.lastWrong = some x ∧ now < x + sec

/-- UNLOCK on a set lock: refused within the time-out, and otherwise judged by its key. -/
theorem LockSt.judge_unlock_of_locked [Decidable (l.timedOut now)] (hl : l.locked = true) :
    l.judge now { port := p, unlock := true, key := key } =
      if l.timedOut now then (l, { st := 10, pl := 1 })
      else if key = l.key then ({ l with locked := false, key := 0 }, Reply.ok 0)
      else ({ l with fails := min 255 (l.fails + 1), lastWrong := some now }, { st := 10, pl := 1 }) := by
  cases hw : l.lastWrong with
  | none => simp [LockSt.judge, LockSt.timedOut, hl, hw, satInc_eq_min]
  | some x => simp [LockSt.judge, LockSt.timedOut, hl, hw, satInc_eq_min]

end

/-! ## The LOCK commands of one tick (14 R446) -/

/-- What follows a LOCK in its tick sees the lock as the tick found it. -/
theorem State.locked_add (r : LockReq) (s : State) : ({ s with lock := s.lock.add s.now r } : State).locked = s.locked := by
  unfold State.locked State.lockNow Lock.add Lock.atTick
  by_cases h : s.lock.chg = some s.now <;> simp [h]

/-- The first LOCK of a tick is judged against the lock that the tick found, and alone makes the lock in force. -/
theorem Lock.add_first {l : Lock} {now : Tick} {r : LockReq} (hc : l.chg ≠ some now) :
    (l.add now r).toLockSt = (l.toLockSt.judge now r).1 ∧ (l.add now r).view now r.port = (l.toLockSt.judge now r).1 := by
  unfold Lock.add Lock.atTick
  rw [if_neg hc]
  cases hp : r.port <;> simp [Lock.view, Lock.after, hp]

theorem Lock.view_first {l : Lock} {now : Tick} (p : PortId) (hc : l.chg ≠ some now) :
    (l.atTick now).view now p = l.toLockSt := by
  unfold Lock.atTick
  rw [if_neg hc]
  cases p <;> rfl

theorem State.lockRow_of_other {c : Instr} (hc : ∀ g k, c ≠ .lock g k ∧ c ≠ .unlock g k) (s : State) :
    s.lockRow c = s := by
  unfold State.lockRow
  split
  · exact absurd rfl (hc _ _).1
  · exact absurd rfl (hc _ _).2
  · rfl

/-- Where no LOCK was decided in the tick and none of HA stands before it in the queue, the lock seen is the one in force. -/
theorem State.lockSeen_first {p : PortId} {s : State} (hc : s.lock.chg ≠ some s.now)
    (hq : p = .ha ∨ ∀ c ∈ s.pending, ∀ g k, c ≠ .lock g k ∧ c ≠ .unlock g k) : s.lockSeen p = s.lock.toLockSt := by
  cases p with
  | ha => exact Lock.view_first .ha hc
  | hb =>
    have hrows : forAll State.lockRow s.pending s = s :=
      forAll_keeps (fun u => u = s) State.lockRow s.pending
        (fun c hm u hu => (State.lockRow_of_other ((hq.resolve_left (by decide)) c hm) u).trans hu) s rfl
    unfold State.lockSeen
    dsimp only
    rw [hrows]
    exact Lock.view_first .hb hc

/-- Settles O17: `State.lockCmd` takes the judgement of the lock seen, whose cases are those of `LockSt.judge`. -/
theorem lockAndUnlockByKey : Obligations.LockAndUnlockByKey := by
  intro h key s hl b v locked ends
  have judged {i : Instr} {u : Bool} {w : LockSt} {r : Reply}
      (hi : exec i s = .next (s.onRing h 0x92 (fun _ => {}) (State.lockCmd h.port u key)))
      (hj : v.judge b.now { port := h.port, unlock := u, key := key } = (w, r)) : ends i u w r := by
    refine ⟨congrArg Prod.fst hj, b.lock.add b.now { port := h.port, unlock := u, key := key }, ?_, State.locked_add _ b, ?_⟩
    · rw [hi]
      refine next_onRing_completes (c := fun _ => {}) hl rfl (fun _ ht => nomatch ht) rfl ?_
      exact congrArg (fun x => (_, some x)) (congrArg Prod.snd hj)
    · intro hc hq
      obtain ⟨ha, hv⟩ := Lock.add_first (r := { port := h.port, unlock := u, key := key }) hc
      rw [← State.lockSeen_first hc hq, hj] at ha hv
      exact ⟨ha, hv⟩
  refine ⟨fun hk hf => judged rfl (LockSt.judge_lock_of_free hk hf), fun hk => judged rfl (LockSt.judge_lock_of_no_key hk),
    fun hk hf => judged rfl (LockSt.judge_lock_of_locked hk hf), fun hf => judged rfl (LockSt.judge_unlock_of_free hf),
    fun hf => ?_⟩
  classical
  have hu := LockSt.judge_unlock_of_locked (now := b.now) (p := h.port) (key := key) hf
  exact ⟨fun ho => judged rfl (hu.trans (if_pos ho)),
    fun ho hk => judged rfl (hu.trans ((if_neg ho).trans (if_pos hk))),
    fun ho hk => judged rfl (hu.trans ((if_neg ho).trans (if_neg hk)))⟩

/-! ## Queries -/

/-- Settles O15: each query acts on no state, and completes with what it reads of the state in which it begins. -/
theorem queriesOnlyComplete : Obligations.QueriesOnlyComplete := by
  intro h s
  refine ⟨fun hl => ?_, fun hl => ?_, fun hl cls first hb => ?_, fun hl ha hs => ?_⟩
  · exact next_onRing_completes (c := fun _ => { early := true, recov := true }) hl rfl (fun _ ht => nomatch ht) rfl rfl
  · exact next_onRing_completes (c := fun _ => { early := true, recov := true }) hl rfl (fun _ ht => nomatch ht) rfl rfl
  · exact next_onRing_completes (c := fun _ => { bad := ownBad cls first h.arg 48, early := true }) hl hb
      (fun _ ht => nomatch ht) rfl rfl
  · exact next_onRing_completes (c := fun _ => { bad := argBad h.arg 16, tile := some h.arg, cmd := some (.rfxStatus h) }) hl
      (argBad_none ha) (fun _ ht => Option.some.inj ht ▸ hs) rfl rfl

/-! ## Reads of logs and of the catalogue -/

/-- The entries of a log from `start` on, as LOG_READ numbers the logs: the strata 0 to 3, and the persistent rings 4 and 5. -/
def State.logEntries (log start count : Nat) (s : State) : Nat × List (List Byte) × Nat :=
  let A := s.arch.getD log {}
  let l := s.per.plog
  if log < 4 then logFrom (A.entries.map ArchEntry.bytes) A.next start count
  else if log = 4 then logFrom (l.s0.map LogRec.bytes) (l.next0 % 2 ^ 32) start count
  else logFrom (l.s1.map LogRec.bytes) (l.next1 % 2 ^ 32) start count

/-- LOG_READ with sound operands writes those entries. -/
theorem State.logRead_writes {h : Hdr} {log count addr start : Nat} {s : State} (hlog : log < 6) (h1 : 1 ≤ count)
    (h512 : count ≤ 512) (ha : addr % 64 = 0) :
    s.logRead h log count addr start =
      (let x := s.logEntries log start count
       (s.modPort h.port fun P => { P with out := P.out ++ [.entries addr x.2.1] },
         some { st := if x.2.1.length < count then 7 else 0,
                pl := payload [(16, 4, x.1), (20, 2, x.2.1.length), (24, 4, x.2.2)] })) := by
  unfold State.logRead
  rw [if_neg (by omega), if_neg (by omega), if_neg (not_not_intro ha)]
  rfl

/-- Settles O19: both commands write to the host what `State.logRead_writes` and `State.catRead` read. -/
theorem logAndCatalogueReadsWriteHostMemory : Obligations.LogAndCatalogueReadsWriteHostMemory := by
  intro h s write
  constructor
  · intro log count addr start hl hlog h1 h512 ha A l x
    have hx : (s.begins h 0x71).logEntries log start count = x := by
      unfold State.logEntries
      rw [State.begins_arch, State.begins_per]
    refine next_onRing_completes (c := fun _ => { early := true }) hl rfl (fun _ ht => nomatch ht) rfl ?_
    rw [State.logRead_writes hlog h1 h512 ha, hx]
  · intro start count addr hl hc b n short b'
    exact next_onRing_completes (c := fun _ => { bad := (catBad start count addr).map badField, early := true, recov := true })
      hl (by rw [hc]; rfl) (fun _ ht => nomatch ht) rfl rfl

/-! ## CAT_WRITE -/

section
variable {h : Hdr} {start count : Nat} {words : List Word} {s : State}

/-- The addresses that a catalogue command reaches (14 R450). -/
def catAddrs (start count : Nat) : List Nat := (List.range (catReach start count).1).map fun i => start + 4 * i

/-- The payload of CAT_WRITE after `k` words. -/
def catWritten (start k : Nat) : Nat := payload [(16, 2, k), (18, 1, 0), (20, 4, start + 4 * k)]

/-- Under SETUP_LOCK a CAT_WRITE that reaches an RWL register writes nothing. -/
theorem State.catWrite_of_locked (hk : s.locked = true) (hw : (catAddrs start count).any isRwl = true) :
    s.catWrite h start count words = (s, some { st := 10, pl := catWritten start 0 }) :=
  if_pos (by rw [hk]; exact hw)

/-- Where every word is accepted CAT_WRITE completes with their count. -/
theorem State.catWrite_accepted (hk : s.locked = false) (ho : (catAddrs start count).any (otherPort h.port) = false)
    {u : State} {k : Nat} (hp : catPut h.port start (words.take (catReach start count).1) 0 s = (u, k, none)) :
    s.catWrite h start count words = (u, some {
      st := if (catReach start count).2 then 7 else 0, ix := if (catReach start count).2 then (catReach start count).1 else 0,
      pl := catWritten start k }) := by
  unfold State.catWrite
  unfold catAddrs at ho
  generalize catReach start count = x at ho hp ⊢
  obtain ⟨n, short⟩ := x
  dsimp only at ho hp ⊢
  rw [hk, ho, hp]
  rfl

end

/-- Settles O20, by the two lemmas on CAT_WRITE. -/
theorem catalogueWriteActsAsRegisterWrites : Obligations.CatalogueWriteActsAsRegisterWrites := by
  intro h start count words s hl hc b n short as
  have acts {u : State} {r : Reply} (ha : b.catWrite h start count words = (u, some r)) :
      exec (.catWrite h start count words) s = .next (u.reply h 0x91 r).finish :=
    next_onRing_completes (c := fun _ => { bad := (catBad start count 0).map badField }) hl (by rw [hc]; rfl)
      (fun _ ht => nomatch ht) rfl ha
  exact ⟨fun hk hw => acts (State.catWrite_of_locked hk hw), fun hk ho u k hp => acts (State.catWrite_accepted hk ho hp)⟩

end Sys2Proof.Machine
end

section
/-!
PROOFS. Writes in BAR0 (14 R442, R447, Table 14-2).
-/
namespace Sys2Proof.Machine

section
variable {p : PortId} {a n be : Nat} {w : Word} {s : State}

/-- A write that names no whole word of a register that the port may write there is counted, and does nothing else. -/
theorem State.barWrite_of_discarded (h : n ≠ 1 ∨ be ≠ 15 ∨ (blockOf a).isNone = true ∨ otherPort p a = true ∨
    (isRwl a = true ∧ s.rwl = false)) : s.barWrite p a n be w = s.countDiscard p a :=
  if_pos (by simpa only [Bool.not_eq_true'] using h)

/-- Any other is put into its register. -/
theorem State.barWrite_pokes (hb : (blockOf a).isNone = false) (ho : otherPort p a = false)
    (hw : isRwl a = true → s.rwl = true) : s.barWrite p a 1 15 w = (s.poke p a w).1 := by
  refine if_neg ?_
  rintro (h | h | h | h | ⟨hr, hl⟩)
  · exact h rfl
  · exact h rfl
  · exact Bool.false_ne_true (hb.symm.trans h)
  · exact Bool.false_ne_true (ho.symm.trans h)
  · rw [hw hr] at hl
    exact Bool.false_ne_true hl

end

/-- A BAR0 write acts at its tick, at an address that may be written in another way. -/
theorem next_onWrite {τ : Tick} {p : PortId} {a a' : Nat} {w : Word} {s : State} (hs : s.power = .running) (ha : a = a') :
    (.next (s.onWrite τ p a 1 15 w) : Host.Outcome State Fault Refusal) = .next ((s.advance τ).barWrite p a' 1 15 w).finish :=
  next_onTick hs (by rw [ha])

/-- Settles O34: by the two lemmas on `State.barWrite`, and each row's address by that of its block. -/
theorem registerWritesReachTheirRegisterOrAreCounted : Obligations.RegisterWritesReachTheirRegisterOrAreCounted := by
  intro τ p w s hs b at_
  have tile (t x y : Nat) : tileAddr t (x + y) = 0x20000 + 0x4000 * t + x + y := (Nat.add_assoc _ _ _).symm
  refine ⟨fun a n be h => next_onTick hs (State.barWrite_of_discarded h),
    fun a hb ho hw => next_onTick hs (State.barWrite_pokes hb ho hw), fun r => ⟨next_onWrite hs rfl, next_onWrite hs rfl⟩,
    next_onWrite hs rfl, fun t c reg => ⟨?_, ?_, ?_⟩, fun t n => ⟨?_, ?_⟩, fun t => ⟨?_, ?_, ?_, ?_, ?_, ?_⟩, ?_⟩
  · exact next_onWrite hs (tile t _ _)
  · exact next_onWrite hs ((tile t _ _).trans (congrArg (· + 4 * reg) (Nat.add_assoc _ _ _).symm))
  · exact next_onWrite hs ((tile t _ _).trans (congrArg (· + 4 * reg) (Nat.add_assoc _ _ _).symm))
  · exact next_onWrite hs (tile t _ _)
  · exact next_onWrite hs (tile t _ _)
  all_goals exact next_onWrite hs rfl

end Sys2Proof.Machine
end

section
/-!
PROOFS. The state after reset, and what power-on, brown-out, PORST_N, Fallow, the supplies, the safe-state net's pin and the
barrier transfers do (09 R343, R344; 12 R405 to R425).
-/
namespace Sys2Proof.Machine

/-! ## The state after reset (14 R443) -/

/-- Nothing is owned after reset. -/
theorem State.reset_owner (cls n : Nat) : State.reset.owner cls n = none := by
  change ((([512, 128, 512, 64, 16].map fun k => List.replicate k none).getD cls []).getD n none : Option PortId) = none
  rw [List.getD_eq_getElem?_getD (l := List.map _ _), List.getElem?_map]
  cases [512, 128, 512, 64, 16][cls]? with
  | none => rfl
  | some k => exact (List.getD_eq_getElem?_getD ..).trans (List.getElem?_getD_replicate_default_eq ..)

theorem State.reset_port (p : PortId) : State.reset.port p = {} := by cases p <;> rfl

/-- The tiles after reset are alike but for their engine. -/
theorem State.of_mem_reset_tiles {T : Tile} (h : T ∈ State.reset.tiles) : ∃ n, T = { engine := n } := by
  obtain ⟨n, _, rfl⟩ := List.mem_map.1 h
  exact ⟨n, rfl⟩

/-- Settles O8: each register holds its default. -/
theorem resetIsSoundAndHoldsTheRegistersResetValues : Obligations.ResetIsSoundAndHoldsTheRegistersResetValues := by
  refine ⟨rfl, rfl, rfl, rfl, rfl, rfl, State.reset_owner, fun p => ?_, List.length_map _, fun T hT => ?_⟩
  · rw [State.reset_port]
    refine ⟨rfl, rfl, rfl, rfl, rfl, List.length_replicate, fun q hq => ?_⟩
    obtain rfl := List.eq_of_mem_replicate hq
    exact ⟨rfl, rfl⟩
  · obtain ⟨n, rfl⟩ := State.of_mem_reset_tiles hT
    refine ⟨rfl, rfl, rfl, rfl, rfl, rfl, rfl, List.length_replicate, List.length_replicate, fun q hq => ?_, fun c hc => ?_⟩
    · obtain rfl := List.eq_of_mem_replicate hq
      exact ⟨rfl, rfl⟩
    · obtain rfl := List.eq_of_mem_replicate hc
      exact ⟨rfl, rfl⟩

/-! ## Device resets and Fallow (12 R409 to R425) -/

/-- What a device reset leaves of `s` in `u` (12 R409, Table 12-3): the store, and otherwise the state after reset. -/
def State.Wiped (s u : State) : Prop :=
  u.own = {} ∧ u.lock = {} ∧ u.tiles = State.reset.tiles ∧ u.pipes = State.reset.pipes ∧ u.engines = State.reset.engines ∧
    u.blks = State.reset.blks ∧ u.ha.rings = State.reset.ha.rings ∧ u.hb.rings = State.reset.hb.rings ∧ u.fetched = [] ∧
    u.txns = [] ∧ u.per.kept = s.per.kept

theorem State.restart_wipes {s v : State} (h : v.per.kept = s.per.kept) (pw : Power) (cause : Nat) :
    s.Wiped (v.restart pw cause) := ⟨rfl, rfl, rfl, rfl, rfl, rfl, rfl, rfl, rfl, rfl, h⟩

theorem State.brownOut_running {s : State} (hs : s.power = .running) :
    s.brownOut = ({ s with per := { s.per with plog := s.per.plog.cut } } : State).restart .held 4 := if_pos hs

theorem State.porst_running {s : State} (hs : s.power = .running) : s.porst = s.restart .held 1 := if_pos hs

theorem State.wake_in_fallow {s : State} (hs : s.power = .fallow) :
    s.wake = { s with per := { s.per with ka := { s.per.ka with wakeCnt := min 0xFFFF (s.per.ka.wakeCnt + 1) } } } := by
  rw [← satInc_eq_min]
  exact if_pos hs

/-- Settles O40: every one of the resets is `State.restart`, which takes all but the store, the keep-alive domain and the grave
hold from the state after reset. -/
theorem resetsKeepStoreAndKeepAliveDomain : Obligations.ResetsKeepStoreAndKeepAliveDomain := by
  intro τ s gone
  have hp (hs : s.power = .running) : (s.advance τ).power = .running := (State.advance_power τ s).trans hs
  have hka : (s.advance τ).per.ka = s.per.ka := congrArg Persist.ka (State.advance_per τ s)
  have hgrave : (s.advance τ).dev.grave = s.dev.grave := congrArg DevFault.grave (State.advance_dev τ s)
  refine ⟨fun lowMs vkaOk => ?_, fun hs => ?_, fun hs => ?_, fun hs => ?_, fun hs => congrArg _ (State.wake_in_fallow hs),
    fun hs => congrArg _ (if_neg hs), ?_⟩
  · refine ⟨_, rfl, rfl, State.restart_wipes (v := s) rfl .held (if s.power = .fallow ∧ vkaOk then 3 else 0), rfl, rfl,
      fun hv => ?_, fun hv => ?_⟩
    · subst hv
      rfl
    · subst hv
      exact ⟨rfl, rfl, rfl⟩
  · exact ⟨_, congrArg Host.Outcome.next (State.brownOut_running (hp hs)), rfl,
      State.restart_wipes (State.advance_kept τ s) .held 4, rfl, hka, hgrave⟩
  · exact ⟨_, congrArg Host.Outcome.next (State.porst_running (hp hs)), rfl,
      State.restart_wipes (State.advance_kept τ s) .held 1, rfl, hka, hgrave⟩
  · exact ⟨_, congrArg Host.Outcome.next (if_neg hs), rfl, State.restart_wipes (v := s) rfl .fallow 0, rfl⟩
  · refine ⟨_, rfl, rfl, rfl, rfl, rfl, fun h4 => ?_, State.advance_tiles _ _, State.advance_kept _ _, fun hs => ?_⟩
    · change (updAt (fun _ => false) 4 (s.advance τ).sup.ok).getD 4 true = false
      rw [State.advance_sup, updAt_getD, if_pos ⟨rfl, h4⟩]
    · exact (if_neg (by rwa [State.advance_power])).trans (State.advance_power _ _)

/-! ## Supplies (12 R405) -/

/-- A rail's state after a sample (12 Table 12-7). -/
def State.supplySampled (rail : Nat) (mv : Int) (s : State) : State :=
  { s with sup := { s.sup with
      ok := updAt (fun _ => railOk s.sup.vio33 rail mv) rail s.sup.ok,
      seen := updAt (fun x => x || !railOk s.sup.vio33 rail mv) rail s.sup.seen,
      viso := if rail = 3 then (clampInt 0 65535 mv).toNat else s.sup.viso } }

section
variable {rail : Nat} {mv : Int} {s : State}

/-- VKA raises nothing, and no rail does that stays on its side of its limits. -/
theorem State.railSample_quiet (h : rail = 4 ∨ s.sup.ok.getD rail true = railOk s.sup.vio33 rail mv) :
    s.railSample rail mv = s.supplySampled rail mv := by
  obtain h | h := h
  · exact if_pos h
  · unfold State.railSample
    simp only [h, Bool.not_and_self, Bool.and_not_self, Bool.false_and, Bool.false_eq_true, if_false]
    exact ite_self _

theorem State.railSample_leaves (hr : rail ≠ 4) (hw : s.sup.ok.getD rail true = true)
    (hk : railOk s.sup.vio33 rail mv = false) :
    s.railSample rail mv = (s.supplySampled rail mv).raise 54 9 0 rail 0 :=
  (if_neg hr).trans (if_pos (by rw [hw, hk]; rfl))

theorem State.railSample_returns (hr : rail ≠ 4) (hw : s.sup.ok.getD rail true = false) (hk : railOk s.sup.vio33 rail mv = true)
    (ha : ((s.supplySampled rail mv).sup.ok.take 4).all id = true) :
    s.railSample rail mv = (s.supplySampled rail mv).endPresent 54 9 :=
  (if_neg hr).trans ((if_neg (by rw [hw, hk]; decide)).trans (if_pos (Bool.and_eq_true_iff.2 ⟨by rw [hw, hk]; rfl, ha⟩)))

end

/-! ## FSAFE_N and the net (09 R343, R344), and barrier transfers (12 R414, R415) -/

section
variable {s : State}

theorem State.fsafePin_running {level : Bool} (hs : s.power = .running) : s.fsafePin level = s := if_pos hs

theorem State.fsafeFall_asserts (h : s.dev.fsafe = true) : s.fsafeFall =
    (({ s with dev := { s.dev with fsafe := false, fsafeSeen := true } } : State).raise 54 0 0 0 0).assertNet 54 0 :=
  if_neg (by rw [h]; decide)

theorem State.fsafeRise_ends (h : s.dev.fsafe = false) : s.fsafeRise =
    ({ s with dev := { s.dev with fsafe := true, highSince := s.now } } : State).endPresent 54 0 :=
  if_neg (ne_true_of_eq_false h)

theorem State.endNet_ends (ho : s.dev.netOn = true) (hn : s.net = false) (ht : s.dev.highSince + ms ≤ s.now) : s.endNet =
    (forAll (fun t u => u.leaveScope t fun f => { f with net := false }) tileNos
      ({ s with dev := { s.dev with netOn := false } } : State)).netEvent 4 :=
  if_pos (by rw [ho, hn, decide_eq_true ht]; rfl)

end

/-- Settles O42: each happening acts at its tick, by the lemma on its operation. -/
theorem supplySafeNetAndBarrierHappenings : Obligations.SupplySafeNetAndBarrierHappenings := by
  intro τ s hs b
  have pin {f : State → State} {level : Bool} {u : State} (h : f b = u) :
      (.next ((s.fsafePin level).onTick τ f) : Host.Outcome State Fault Refusal) = .next u.finish := by
    rw [State.fsafePin_running hs]
    exact next_onTick hs h
  have sampled {rail : Nat} {mv : Int} {u : State} (hb : railBeyond rail mv = false) (h : b.railSample rail mv = u) :
      exec (.supplyThreshold τ rail mv) s = .next u.finish :=
    (if_neg (ne_true_of_eq_false hb)).trans (next_onTick hs h)
  refine ⟨fun rail mv h => if_pos h, fun rail mv hb => ⟨?_, ?_, ?_⟩, fun h => pin (State.fsafeFall_asserts h),
    fun h => pin (State.fsafeRise_ends h), fun ho hn ht => next_onTick hs (State.endNet_ends ho hn ht),
    fun t h => ?_, fun t h => ?_⟩
  · exact fun h => sampled hb (State.railSample_quiet h)
  · exact fun hr hw hk => sampled hb (State.railSample_leaves hr hw hk)
  · exact fun hr hw hk ha => sampled hb (State.railSample_returns hr hw hk ha)
  · exact next_onTick hs (if_neg (by rw [h]; decide))
  · exact next_onTick hs (if_neg (ne_true_of_eq_false h))

end Sys2Proof.Machine
end
